-- ==== Sys2Proof/Word.lean ====
section
/-! DEFINITION. Words, bytes and the plainest arithmetic on them. -/

namespace Sys2Proof

/-- One byte (00_scope R8). -/
abbrev Byte := BitVec 8
/-- A 16-bit word. -/
abbrev W16 := BitVec 16
/-- A 32-bit word: the width of every register of BAR0 (14 R407). -/
abbrev W32 := BitVec 32
/-- A 64-bit word. -/
abbrev W64 := BitVec 64

/-- The largest value of a 32-bit crow's nest counter (for example 05 R190: "Saturates at 0xFFFF_FFFF"). -/
def ctrMax : Nat := 0xFFFFFFFF

end Sys2Proof
end

