-- ==== Sys2Proof/Config.lean ====
section
/-! DEFINITION. What the part fixes (the counts of a UZT-KR1-A, 01 R35) and the values its manual leaves open. -/

namespace Sys2Proof.Config

/-- Main arrays in service (00 R19). -/
def nArrays : Nat := 160
/-- Spar groups, Gram arrays, vector units and tile queues in service (00 R19). -/
def nGroups : Nat := 40
/-- Resident contexts (00 R19). -/
def nCtx : Nat := 8
/-- Tether ports (00 R19). -/
def nPorts : Nat := 16
/-- Local SRAM banks in service (08 R248). -/
def nBanks : Nat := 48
/-- HBM3E stacks (00 R19). -/
def nStacks : Nat := 8
/-- Entries of one tile queue (04 R112). -/
def queueDepth : Nat := 8
/-- Where a tally count saturates (09 R287). -/
def tallyMax : Nat := 262143
/-- Messages one egress stream may hold uncompleted (09 R290). -/
def egressDepth : Nat := 64

/-- FREE VALUE number `n`, of any width: a value the manual leaves open after an operation that goes on.
State holds the counter that numbers the draws (log entry 6); nothing can evaluate it. -/
opaque freeValue (w : Nat) : Nat → BitVec w

/-- FREE VALUE: the minimum step length in cycles that firmware's simulation of a plan reports (07 R235, R236).
The manual does not give that simulation in full (log entry 16). The argument is the plan's image. -/
opaque simMinStep : List (BitVec 8) → Nat

/-- FREE VALUE: the SEQ of the first slot that firmware's simulation of a plan's timing fails, for a rejection code and the primary or a
variant of an image; none: it passes. The manual does not give that simulation in full (07 R235; log entry 35). -/
opaque simFault : Nat → Nat → List (BitVec 8) → Option Nat

/-- FREE VALUE: the nominal time of one iteration of a solve and of its return tail, in watch cycles, which firmware knows from the plan;
the manual gives no formula (06 R208; log entry 60). The arguments are the structure CRC, METHOD and PRECOND. -/
opaque nominalTimes : Nat → Nat → Nat → Nat × Nat

/-- FREE VALUE: the SHA-512 the manual names without defining (12 R362, 15 R457; log entry 9). -/
opaque sha512 : List (BitVec 8) → BitVec 512

/-- FREE VALUE: the signature the device's identity key gives a text (15 R456; log entry 9). -/
opaque identitySign : List (BitVec 8) → BitVec 512

/-- FREE VALUE: the factory calibration record, whose layout the manual does not give (15 R445, R458; log entry 9). -/
opaque factoryBytes : List (BitVec 8)

/-- FREE VALUE: the identity certificate chain in flash (15 R442, R456; log entry 9). -/
opaque certChain : List (BitVec 8)

/-- FREE VALUE: the CDAT table that port H answers with (14 R403; log entry 9). -/
opaque cdat : List (BitVec 8)

/-- FREE VALUE: where the SR_STEP fields of a narrow-format state block lie, by byte offset; the manual names the field without
placing it (11 R352; log entry 33). The argument is the block. -/
opaque srStepOffsets : List (BitVec 8) → List Nat

end Sys2Proof.Config
end

