-- ==== Sys2Proof/Syntax.lean ====
section
/-! DEFINITION. The commands the block takes: one constructor of Instr per row of spec/opcode_table.json, with the
operands the row's rule gives it. Where the outside world decides something (what a partner answers, whether a
signature verifies, what a test found), the command carries that fact as an operand. -/

namespace Sys2Proof

/-- Names a halyard command in progress: its ring and the TAG of its descriptor, and whether the host fails the access to its buffer (14
R418 to R420). -/
structure CmdRef where
  ring : Nat
  tag : Nat
  hostFail : Bool
deriving DecidableEq, Repr

/-- A failure that BIST found: the KIND of R394, the unit's number (a bank, stack, group or array for a row, 32 * stack +
pseudo-channel for KIND 8), whether it is a ballast unit, and the address of a failing row (13 R390, R391, R394). -/
structure UnitFail where
  kind : Nat
  unit : Nat
  ballast : Bool
  addr : Option Nat
deriving DecidableEq, Repr

/-- What the start-up after PWROK finds in the hardware (15 R440): PLL lock, HBM training, BIST failures. -/
structure BootIn where
  pllOk : Bool
  hbmOk : Bool
  bist : List UnitFail
deriving DecidableEq, Repr

/-- What the link partner of a tether port claims when the port trains (09 R277): whether it trained (for a far port:
whether the plane accepted it), its rate code, node coordinates, DIR code and index within its bundle. -/
structure PortTrain where
  trained : Bool
  rate : Nat
  board : Nat
  x : Nat
  y : Nat
  dir : Nat
  idx : Nat
deriving DecidableEq, Repr

/-- The monitored rails (16 R469). -/
inductive Rail where
  | vddc | vdds | vddhbm | vddt
deriving DecidableEq, Repr

/-- Junction temperatures after trim, in quarter degrees: the compute sensors and the HBM stacks (15 R454, 16 R471). -/
structure ThermIn where
  tj : List Int
  hbm : List Int
deriving DecidableEq, Repr

/-- What port H's partner offers when the link trains (14 R402): its modes (codes of CXL_H_STAT.MODE), the width, and
what the host enables. -/
structure LinkIn where
  modes : List Nat
  width : Nat
  lopt : Bool
  cache : Bool
  mem : Bool
  recovered : Bool
deriving DecidableEq, Repr

/-- A firmware image as its header and the outcome of the checks over its body (15 R443, R444). -/
structure FwImage where
  magic : W32
  format : Nat
  svn : Nat
  keySlot : Nat
  length : Nat
  line : Nat
  minor : Nat
  build : Nat
  resvZero : Bool
  keyHash : BitVec 512
  sigOk : Bool
  bodyOk : Bool
  hash : BitVec 512
deriving DecidableEq, Repr

/-- The scan chains a test access may enable (13 R393). -/
inductive ScanChain where
  | shroud | keyStore | masthead | ioDie | ballastUnit | other
deriving DecidableEq, Repr

/-- The vector unit and context an instruction issues on (04 R117, R120). -/
structure VUse where
  group : Nat
  ctx : Nat
deriving DecidableEq, Repr

/-- The fields of a vector instruction word below CLASS and OP (04 R122). -/
structure VFields where
  type : Nat
  dst : Nat
  a : Nat
  b : Nat
  c : Nat
  axis : Bool
  subFlush : Bool
  rtz : Bool
  row0 : Nat
  rowsM1 : Nat
  scal : Nat
  imm : Nat
deriving DecidableEq, Repr

/-- The tensor that a conversion point produces in FP8, FP4 or INT8: its number, the entries H of its amax history, the margin, and
whether the plan asks for delayed scaling (02 R49; log entry 53). -/
structure AmaxIn where
  tensor : Nat
  depth : Nat
  margin : Nat
  delayed : Bool
deriving DecidableEq, Repr

/-- What the plan gives a conversion point beyond its instruction word: the stream number of its draws, the index of the first
element, the elements from one row to the next (02 R58, R62), and the tensor it produces (02 R49). -/
structure DrawIn where
  stream : Nat
  base : Nat
  pitch : Nat
  amax : AmaxIn
deriving DecidableEq, Repr

/-- A tether message header: the fields of its 64 bytes (09 R285). Reserved bits are 0. -/
structure WireHdr where
  opc : Nat
  accOp : Nat
  fmt : Nat
  sig : Bool
  vc : Nat
  tally : Nat
  lenM1 : Nat
  srcNode : Nat
  dstNode : Nat
  srcRank : Nat
  dstRank : Nat
  lepoch : Nat
  tag : Nat
  remote : Nat
  step : Nat
  job : Nat
  inc : Nat
  status : Nat
  start : Nat
  hcrc : Nat
deriving DecidableEq, Repr

/-- A device that appears on port G, as enumeration finds it (08 R255, R258): capacity in bytes, negotiated lanes, the
GEN code of CRW_GON_BAY, and whether it sits behind a switch. -/
structure CxlDev where
  capBytes : Nat
  linkW : Nat
  gen : Nat
  switched : Bool
  bay : Option Nat
deriving DecidableEq, Repr

/-- The access that port G ended with an error (08 R260): its bay and gondola address, and, when the chip carried it for a request of 09 R289,
the port and the header of that request. -/
structure GonErr where
  bay : Nat
  addr : Nat
  req : Option (Nat × WireHdr)
deriving DecidableEq, Repr

/-- What the code finds in the words a read covers: those with a single-bit error and those that cannot be corrected, by
address for a line of memory (13 R380, R388), by 128 * row + column for a carry-store half (03 R110), and for a vector block by scalar
word, with its instruction words from 32 on (04 R149). -/
structure EccFind where
  ce : List Nat
  ue : List Nat
deriving DecidableEq, Repr

/-- Where an array parity failure shows: in a weight register rather than in streaming, and on a spar slot, which every array of the step has
taken (03 R108). -/
structure ParityAt where
  inWeight : Bool
  onSpar : Bool
deriving DecidableEq, Repr

/-- A vector block that becomes issuable: its slot, and what the code finds in the scalar words and instruction words it reads (04 R149,
R150). -/
structure VblockIn where
  seq : Nat
  scalar : EccFind
deriving DecidableEq, Repr

/-- A halo that is short at the deadline: the solver, the product that waits for it, and the watch time (06 R219). -/
structure HaloLate where
  id : Nat
  n : Nat
  now : Nat
deriving DecidableEq, Repr

/-- What firmware learns of a control core: it missed two heartbeats, a corrected word in its memory at a watch time, or an uncorrectable
one (13 R385 to R387, R399). -/
inductive CoreEvent where
  | missed
  | corrected (now : Nat)
  | uncorrectable
deriving DecidableEq, Repr

/-- A control core and what firmware learns of it. -/
structure CoreIn where
  core : Nat
  event : CoreEvent
deriving DecidableEq, Repr

/-- A DOE request on port H (14 R403, R404). -/
inductive DoeIn where
  | spdm (nonce : BitVec 256)
  | ideKeyProg (stream : Nat)
  | ideKeyStop (stream : Nat)
  | cdat
deriving DecidableEq, Repr

/-- What the shroud's checks of a key record and its manifest find: the tag of the wrapped key verifies (12 R364), and the public key under
which the manifest's signature verifies, if there is one (12 R363). -/
structure KeyCheck where
  tagOk : Bool
  signer : Option (BitVec 256)
deriving DecidableEq, Repr

/-- A key record as the shroud opens it (12 R364): `tagOk` is what the GCM check of the wrap found. -/
structure KeyIn where
  modelId : W64
  planBind : W64
  crcBind : W64
  resvZero : Bool
  tagOk : Bool
deriving DecidableEq, Repr

/-- A shard entry of a manifest (12 R362). -/
structure Shard where
  index : Nat
  dstOff : Nat
  length : Nat
  nonceBase : W64
  resvZero : Bool
deriving DecidableEq, Repr

/-- A manifest (12 R362): header fields, shard table, and the public key under which its signature verifies (none: no key). -/
structure ManifestIn where
  magic : W32
  format : Nat
  kind : Nat
  priv : Bool
  signed : Bool
  resvZero : Bool
  modelId : W64
  baseRef : W64
  version : W32
  keyId : Nat
  total : Nat
  shards : List Shard
  signer : Option (BitVec 256)
deriving DecidableEq, Repr

/-- One sealed chunk as the shroud opens it (12 R366, R367): its shard and index, the plaintext, whether its tag
verifies, and whether the shard's SHA-512 agrees with DIGEST once the last chunk is in. `nack` is a NACK answer (R369). -/
structure ChunkIn where
  shard : Nat
  chunk : Nat
  plain : List Byte
  tagOk : Bool
  digestOk : Bool
  nack : Bool
deriving DecidableEq, Repr

/-- What a restore finds outside the chip (11 R350): the slot image its buddy PUTs back and the one in the host window,
each as the bytes it holds, and the watch time. -/
structure RestoreIn where
  buddy : List (Nat × Byte)
  host : List (Nat × Byte)
deriving DecidableEq, Repr

/-- How the drain ended at each target (11 R345): bit i set where target i of TGT took every byte; and the SHA-512 the
drain engine formed over the digest ranges (10 R326). -/
structure SnapCost where
  ok : Nat
  sha : BitVec 512
deriving DecidableEq, Repr

/-- The watch time at which rank 0 computes the interval (11 R347, R348). -/
structure IntervalIn where
  now : Nat
deriving DecidableEq, Repr

/-- How a preconditioner build runs (06 R213): the watch time at each boundary where it is checked. -/
structure BuildIn where
  checks : List Nat
deriving DecidableEq, Repr

/-- What a solve takes from outside the chip (06 R207, R208): the watch time at which each of its iterations ended; the stop flags of the
other chips in the last reduction of each (bit 0 TOL, 1 BREAKDOWN, 2 NONFINITE, 3 D), combined by maximum; the halo words of each matrix
product, in order; the FP64 partials of the other ranks in each global reduction, in order; the watch time of its record. -/
structure SolveEnd where
  ends : List Nat
  flags : List Nat
  halos : List (List W64)
  reds : List (List (Nat × List W64))
  now : Nat
deriving DecidableEq, Repr

/-- THE COMMANDS: one constructor per row of spec/opcode_table.json, in the table's order. A docstring names the row's
mnemonic and its rule. -/
inductive Instr where
  /-- POWER_ON_RESET (R434). RESET_N driven low resets the whole device, the watch domain included. -/
  | powerOnReset
  /-- RESET_N_RELEASE (R440). Release of RESET_N starts the watch domain, senses fuses, runs the watch-domain self-check, drives VID and asserts PWR_EN. -/
  | resetNRelease (selfCheckOk : Bool)
  /-- PWROK_RISE (R440). PWROK going high starts PLL lock, key zeroization, HBM training, BIST, the boot chain, calibration, repairs and tether bring-up. -/
  | pwrokRise (b : BootIn)
  /-- PORT_TRAINING_COMPLETE (R277). A tether port finishes training and reaches UP, or is left DOWN with a NOTE when it fails or the partner disagrees. -/
  | portTrainingComplete (p : Nat) (r : PortTrain)
  /-- PWROK_TIMEOUT (R441). PWROK not high by 50.50 ms puts the device in its safe state with cause POWER. -/
  | pwrokTimeout
  /-- PWROK_FALL (R441). PWROK falling stops every clock but the watch clock within 1 us, asserts FAULT_N and reports cause POWER. -/
  | pwrokFall
  /-- RAIL_MONITOR_TRIP (R469). A monitored rail out of range for 10 us acts as a PWROK fall. -/
  | railMonitorTrip (r : Rail)
  /-- VDDAO_LOSS (R469). Loss of VDDAO or VDDAO_IO stops the whole device. -/
  | vddaoLoss
  /-- REEF_REQ_CHANGE (R452). A debounced change on REEF_REQ changes the board's reef request. -/
  | reefReqChange (v : Nat)
  /-- THERMAL_REQUEST_CHANGE (R454). A compute or HBM sensor crossing T1 to T3, or falling 3 C below, changes the thermal request and sets IRQ_CAUSE.THERM. -/
  | thermalRequestChange (t : ThermIn)
  /-- THERMAL_TRIP (R455). A sensor at 120 C, or an HBM stack at 105 C, asserts THERMTRIP_N and enters the safe state with cause THERMAL. -/
  | thermalTrip (t : ThermIn)
  /-- GOVERNOR_STEP_DOWN (R453). Every 20 us while average power exceeds the cap the clock falls one step, or issue is held at the floor. -/
  | governorStepDown (watts : Nat)
  /-- GOVERNOR_STEP_UP (R453). After 1 ms below 95 % of the cap the clock rises one step toward the ceiling. -/
  | governorStepUp (watts : Nat)
  /-- FAST_CLAMP (R453). An on-die estimate more than 10 % above the cap holds issue on alternate cycles and counts in CRW_PWR_CLAMP. -/
  | fastClamp (estimate : Nat)
  /-- FAST_CLAMP_END (R453). After 100 us the clamp ends and the governor resumes alone. -/
  | fastClampEnd
  /-- VID_SETTLE_CLOCK_RISE (R448). 20 us after VID rises the arithmetic clock follows it up one step. -/
  | vidSettleClockRise
  /-- SPAR_GROUP_IDLE (R436). A group in RUN that has issued no slot for 2 us enters IDLE. -/
  | sparGroupIdle (g : Nat)
  /-- SLEEP_MARK (R437). Slot order reaching a sleep mark takes the group toward OFF. -/
  | sleepMark (g : Nat)
  /-- WAKE_MARK (R437). Slot order reaching a wake mark starts the group, or latches the start while it powers down. -/
  | wakeMark (g : Nat)
  /-- SPAR_GROUP_POWER_DOWN_DONE (R438). The IDLE-to-OFF transition completes, and a latched start from cold follows. -/
  | sparGroupPowerDownDone (g : Nat)
  /-- SPAR_GROUP_RUN (R436). A started group reaches RUN, clears its pending bit and releases slots waiting on it. -/
  | sparGroupRun (g : Nat)
  /-- CORE_POWER_GATE (R439). A control core with no work for 1 ms is power-gated. -/
  | corePowerGate (c : Nat)
  /-- PORT_H_LINK_UP (R402). Port H trains to the highest mode both ends support. -/
  | portHLinkUp (l : LinkIn)
  /-- HALYARD_RESET (R405). A conventional reset or function-level reset of port H resets the halyard registers, cache, HDM mapping and weight sessions. -/
  | halyardReset
  /-- PORT_H_LINK_DOWN (R405). A surprise link-down of port H acts as a halyard reset once the link returns, while the plan runs on. -/
  | portHLinkDown
  /-- HALYARD_ENABLE (R414). Writing HLY_CTRL.EN to 1 starts the halyard, or latches the enable behind a shut-down. -/
  | halyardEnable
  /-- HALYARD_SHUT_DOWN (R415). Writing HLY_CTRL.EN to 0 shuts down every ring, or cancels a latched enable. -/
  | halyardShutDown
  /-- RING_ENABLE (R415). Setting a RING_EN bit resets the ring's pointers and phase and starts fetching, or latches the enable. -/
  | ringEnable (n : Nat)
  /-- RING_SHUT_DOWN (R415). Clearing a RING_EN bit stops fetching and lets commands in progress finish or abort. -/
  | ringShutDown (n : Nat)
  /-- SHUT_DOWN_COMPLETE (R414). The last command of a shut-down ring finishes, QUIESCED is set and a latched enable restarts the ring. -/
  | shutDownComplete (n : Nat)
  /-- DOORBELL (R416). A write of HLY_SQ_TAIL takes the whole new tail, or sets BAD_TAIL and shuts the ring down. -/
  | doorbell (n : Nat) (tail : Nat)
  /-- COMMAND_FETCH (R420). When its ring has room and order allows, the device fetches the next descriptor and starts the command. -/
  | commandFetch (n : Nat) (d : Option (BitVec 512))
  /-- CQ_HEAD_WRITE (R417). Host software advancing HLY_CQ_HEAD frees completion entries and releases held completions. -/
  | cqHeadWrite (n : Nat) (head : Nat)
  /-- EVENT_RING_HEAD_WRITE (R427). Advancing the event ring head frees entries for held CONTAINED, DEGRADED and FATAL records. -/
  | eventRingHeadWrite (head : Nat)
  /-- COALESCING_TIMER (R430). TIME us after an unsignalled completion the ring's cause bit is raised. -/
  | coalescingTimer (n : Nat)
  /-- MSIX_UNMASK (R429). Unmasking a vector whose cause is still set sends its pending message. -/
  | msixUnmask (v : Nat)
  /-- IRQ_CAUSE_CLEAR (R428). Writing 1 to an IRQ_CAUSE bit clears it, unless hardware sets it in the same cycle. -/
  | irqCauseClear (w : W32) (hw : BitVec 10)
  /-- IRQ_MASK_WRITE (R429). A write of IRQ_MASK enables cause bits and may send messages for causes already set. -/
  | irqMaskWrite (w : W32)
  /-- DBG_WTIME_LO_READ (R411). Reading DBG_WTIME_LO latches bits 63:32 of watch time into DBG_WTIME_HI. -/
  | dbgWtimeLoRead
  /-- NFLAG_CLEAR (R73). Writing 1 to a CRW_NFLAG_CTXn bit clears it in every engine's host-visible word and may reset FIRST_ENG. -/
  | nflagClear (c : Nat) (w : W32) (hw : List (Nat × W16))
  /-- ACCFLAG_CLEAR (R304). Writing 1 to a CRW_TTH_ACCFLAG bit clears that flag. -/
  | accflagClear (w : W32) (hw : W32)
  /-- CRW_GEN_CTRL_CLR (R408). Clears CRW_RSVD_WR, the stall and pivot counters and stall remainders. -/
  | crwGenCtrlClr (w : W32)
  /-- CRW_CURV_CTRL_CLR (R190). Clears the curvature counters. -/
  | crwCurvCtrlClr (w : W32)
  /-- CRW_SOLV_CTRL_CLR (R220). Clears the solver counters. -/
  | crwSolvCtrlClr (w : W32)
  /-- CRW_PLAN_CTRL_CLR (R242). Clears the plan slip and counter registers. -/
  | crwPlanCtrlClr (w : W32)
  /-- CRW_MEM_CTRL_CLR (R269). Clears the memory counters. -/
  | crwMemCtrlClr (w : W32)
  /-- CRW_TTH_CTRL_CLR (R304). Clears the tether counters. -/
  | crwTthCtrlClr (w : W32)
  /-- CRW_VRD_CTRL_CLR (R333). Clears the verdict counters. -/
  | crwVrdCtrlClr (w : W32)
  /-- CRW_SNAP_CTRL_CLR (R358). Clears the snapshot counters. -/
  | crwSnapCtrlClr (w : W32)
  /-- CRW_WGT_CTRL_CLR (R379). Clears the weight counters. -/
  | crwWgtCtrlClr (w : W32)
  /-- CRW_INT_CTRL_CLR (R395). Clears the integrity counters. -/
  | crwIntCtrlClr (w : W32)
  /-- CRW_PWR_CTRL_CLR (R459). Clears the power counters and PEAK. -/
  | crwPwrCtrlClr (w : W32)
  /-- SCRUB_ENABLE (R389). Writing CRW_SCRUB_CTRL.EN to 1 resumes the scrubber, or latches the enable behind a stop. -/
  | scrubEnable
  /-- SCRUB_DISABLE (R389). Writing CRW_SCRUB_CTRL.EN to 0 stops the scrubber after the line in flight. -/
  | scrubDisable
  /-- BKT_CFG_WRITE (R385). A write of CRW_BKT_CFGn changes THRESH and LEAK of a bucket class, restarting or stopping its leak timer. -/
  | bktCfgWrite (n : Nat) (w : W32)
  /-- REGISTER_WRITE (R407). A write to a register with no behaviour of its own stores RW fields, or is ignored and counted in CRW_RSVD_WR. -/
  | registerWrite (off : Nat) (w : W32) (bytes : Nat)
  /-- NOP (R421). Completes with no effect. -/
  | nop (c : CmdRef)
  /-- DISCOVER (R422). Writes the discovery record of counted resources to the host buffer. -/
  | discover (c : CmdRef)
  /-- NFLAG_READ (R421). Writes every engine's host-visible flag word for one context, without clearing. -/
  | nflagRead (c : CmdRef)
  /-- COUNTER_READ (R385). Writes the bucket levels of one class to the host buffer. -/
  | counterRead (c : CmdRef)
  /-- REPAIR_READ (R394). Writes held repair reports, oldest first. -/
  | repairRead (c : CmdRef)
  /-- MEM_READ (R423). Copies device memory to the host, with zeros for sealed ranges and STATUS MEMORY on uncorrectable lines. -/
  | memRead (c : CmdRef)
  /-- MEM_WRITE (R423). Copies host data into permitted device memory line by line. -/
  | memWrite (c : CmdRef) (buf : List Byte)
  /-- PLAN_LOAD (R421). Copies a plan image into HBM. -/
  | planLoad (c : CmdRef) (buf : List Byte)
  /-- PLAN_ADMIT (R236). Validates the plan set and admits it, clearing engine state, or rejects it with a code. -/
  | planAdmit (c : CmdRef) (now : Nat)
  /-- PLAN_REPLACE (R237). Validates a new plan set to take effect at the first start of step S, or refuses it. -/
  | planReplace (c : CmdRef)
  /-- PLAN_STOP (R237). Requests a stop at step S that leaves no plan admitted. -/
  | planStop (c : CmdRef)
  /-- PATCH_POST (R197). Host software posts a value patch into a solver's patch buffer. -/
  | patchPost (c : CmdRef) (buf : List Byte)
  /-- PERM_HOST_DONE (R294). Counts host-written permutation entries toward completion of the permuting collective. -/
  | permHostDone (c : CmdRef)
  /-- SNAP_SET_BOUNDS (R349). Replaces I_MIN, I_MAX, K0 and M0. -/
  | snapSetBounds (c : CmdRef)
  /-- SNAP_FORCE_POINT (R349). Forces a snapshot point at a named step index. -/
  | snapForcePoint (c : CmdRef)
  /-- SNAP_DISABLE (R349). Stops new snapshot points while a copying snapshot completes. -/
  | snapDisable (c : CmdRef)
  /-- SNAP_ENABLE (R349). Enables snapshots, or latches the enable behind a completing disable. -/
  | snapEnable (c : CmdRef)
  /-- SNAP_HOST_WINDOW (R423). Names the host snapshot window, its length and write rate. -/
  | snapHostWindow (c : CmdRef)
  /-- SNAP_RESTORE (R350). Admits a plan together with snapshot step s and writes state back in the order of R351. -/
  | snapRestore (c : CmdRef) (src : RestoreIn) (now : Nat)
  /-- WGT_OPEN (R364). Opens a weight session on a slot and returns a signed fresh X25519 public key. -/
  | wgtOpen (c : CmdRef) (pub : BitVec 256)
  /-- WGT_KEY (R364). Takes the key record, unwraps the CEK, checks the manifest and on the gateway route streams the sealed images. -/
  | wgtKey (c : CmdRef) (k : KeyCheck) (manifest : List Byte)
  /-- WGT_CHUNKS (R424). Has the shroud read and open a run of chunk slots from the session's window. -/
  | wgtChunks (c : CmdRef) (chunks : List ChunkIn)
  /-- WGT_CLOSE (R421). Ends a weight session with ABORTED. -/
  | wgtClose (c : CmdRef)
  /-- WGT_SWITCH (R374). Requests a switch of the weight epoch to named slots at step S, or refuses it. -/
  | wgtSwitch (c : CmdRef)
  /-- PUB_KEY_ENROL (R363). Enrols an Ed25519 publisher key in a key slot. -/
  | pubKeyEnrol (c : CmdRef) (key : BitVec 256)
  /-- PUB_KEY_CLEAR (R363). Clears a publisher key slot. -/
  | pubKeyClear (c : CmdRef)
  /-- DIGEST_PERIOD (R371). Sets the period of the at-rest digest checks. -/
  | digestPeriod (c : CmdRef)
  /-- GON_CONFIGURE (R256). Forms the gondola interleave set, or refuses it. -/
  | gonConfigure (c : CmdRef)
  /-- GON_REMOVE (R259). Starts a managed removal of a bay, or acknowledges a GONE bay. -/
  | gonRemove (c : CmdRef)
  /-- BALLAST_ROTATE (R392). Requests that a healthy unit be swapped into ballast at a named step. -/
  | ballastRotate (c : CmdRef)
  /-- BIST_RUN (R392). Starts an in-service test of a ballast unit, or refuses it. -/
  | bistRun (c : CmdRef)
  /-- HDM_MAP (R431). Maps or unmaps the host-visible memory range over CXL.mem. -/
  | hdmMap (c : CmdRef)
  /-- REEF_SET (R452). Sets the host reef request. -/
  | reefSet (c : CmdRef)
  /-- POWER_READ (R458). Returns package power and the hottest sensor. -/
  | powerRead (c : CmdRef)
  /-- CAL_READ (R458). Writes the factory record and the applied user record to the host buffer. -/
  | calRead (c : CmdRef)
  /-- CAL_WRITE (R447). Applies a valid user calibration record and optionally persists it, or refuses it. -/
  | calWrite (c : CmdRef) (rec : BitVec 256)
  /-- ATTEST (R457). Writes a signed attestation report with the verifier's nonce. -/
  | attest (c : CmdRef)
  /-- IDENT_CERT (R456). Writes the identity certificate chain. -/
  | identCert (c : CmdRef)
  /-- FLASH_WRITE (R458). Verifies an image and writes it to flash slot A or B. -/
  | flashWrite (c : CmdRef) (img : FwImage)
  /-- BOOT_SELECT (R458). Names the preferred boot image. -/
  | bootSelect (c : CmdRef)
  /-- BOOT_SELECT_COMMIT_SVN (R458). Burns the fused SVN to the running SVN when both images qualify. -/
  | bootSelectCommitSvn (c : CmdRef)
  /-- SAFE_INFO (R458). Returns the safe-state cause. -/
  | safeInfo (c : CmdRef)
  /-- DEVICE_RESET (R458). Writes its completion and then performs a power-on reset with rails held. -/
  | deviceReset (c : CmdRef)
  /-- HDM_HOST_READ (R431). A host CXL.mem read of the mapped range returns data, or poisoned data on an uncorrectable line. -/
  | hdmHostRead (off : Nat) (len : Nat)
  /-- HDM_HOST_WRITE (R431). A host CXL.mem write to the mapped range is applied coherently. -/
  | hdmHostWrite (off : Nat) (data : List Byte)
  /-- SHROUD_WINDOW_WRITE (R424). A host write into BAR2 reaches the shroud window of a session, or is dropped with a NOTE. -/
  | shroudWindowWrite (off : Nat) (data : List Byte)
  /-- SCAN_CHAIN_ENABLE (R393). Enabling a scan chain that reaches key material zeroizes the key store, and in service aborts sessions and enters the safe state. -/
  | scanChainEnable (ch : ScanChain)
  /-- STEP_START (R231). Once the previous flip or skip is complete and the anchor has arrived, a step starts and its tally windows roll. -/
  | stepStart (now : Nat)
  /-- ADMISSION_BARRIER_TIMEOUT (R232). An admission barrier not complete 10 s after admission reports NOTE once. -/
  | admissionBarrierTimeout
  /-- STEP_WATCHDOG (R234). STEP_TO after the step start without reaching the verdict point raises a contained data error. -/
  | stepWatchdog
  /-- ARRAY_SLOT (R79). An array record issues, its weight set loads and activation rows stream through the cells. -/
  | arraySlot (seq : Nat) (carry : EccFind)
  /-- WEIGHT_LOAD_COMPLETE (R80). A weight-set load completes and releases the first row that the spar held. -/
  | weightLoadComplete (a : Nat) (waited : Nat)
  /-- TILE_CLAIM (R104). A drain claims a free tile-queue entry when the first result leaves, or stalls the spar until one frees. -/
  | tileClaim (a : Nat)
  /-- TILE_SEAL (R105). 4 cycles after the last valid result leaves the south edge the tile is sealed and becomes visible to the vector unit. -/
  | tileSeal (a : Nat)
  /-- ARRAY_REPLAY (R108). A parity failure discards unsealed work, reloads when needed and restreams the weight set. -/
  | arrayReplay (a : Nat) (p : ParityAt) (rows : Nat)
  /-- MAIN_ARRAY_SWAP (R397). A second parity failure takes the array out of service and a ballast spare takes its service number and replays. -/
  | mainArraySwap (a : Nat)
  /-- GRAM_SLOT (R164). A Gram record fills, accumulates ring rows and spills its tile. -/
  | gramSlot (seq : Nat)
  /-- GRAM_REPLAY (R166). A Gram parity failure replays the continuing chain, and a second failure swaps in Gram ballast. -/
  | gramReplay (g : Nat) (again : Bool)
  /-- VBLOCK_SLOT (R150). A vector block becomes issuable for its context. -/
  | vblockSlot (b : VblockIn)
  /-- ADD (R126). Adds a and b per lane. -/
  | add (u : VUse) (f : VFields)
  /-- SUB (R126). Subtracts b from a per lane. -/
  | sub (u : VUse) (f : VFields)
  /-- MUL (R126). Multiplies a by b per lane. -/
  | mul (u : VUse) (f : VFields)
  /-- FMA (R126). Computes a times b plus c, rounded once. -/
  | fma (u : VUse) (f : VFields)
  /-- FNMA (R126). Computes c minus a times b, rounded once. -/
  | fnma (u : VUse) (f : VFields)
  /-- MIN (R126). IEEE minimum per lane. -/
  | min (u : VUse) (f : VFields)
  /-- MAX (R126). IEEE maximum per lane. -/
  | max (u : VUse) (f : VFields)
  /-- ABS (R126). Absolute value per lane. -/
  | abs (u : VUse) (f : VFields)
  /-- NEG (R126). Negation per lane. -/
  | neg (u : VUse) (f : VFields)
  /-- DIV (R127). Divides a by b, correctly rounded. -/
  | div (u : VUse) (f : VFields)
  /-- SQRT (R127). Square root, correctly rounded. -/
  | sqrt (u : VUse) (f : VFields)
  /-- RSQRT (R127). Reciprocal square root, correctly rounded. -/
  | rsqrt (u : VUse) (f : VFields)
  /-- RECIP (R127). Reciprocal, correctly rounded. -/
  | recip (u : VUse) (f : VFields)
  /-- EXP2 (R127). Two to the power a, correctly rounded. -/
  | exp2 (u : VUse) (f : VFields)
  /-- LOG2 (R127). Base-two logarithm, correctly rounded. -/
  | log2 (u : VUse) (f : VFields)
  /-- CVT (R130). Converts slots between formats at a conversion point. -/
  | cvt (u : VUse) (f : VFields) (srcFmt : Nat) (d : DrawIn)
  /-- SUM (R131). Reduces by summation in the fixed tree. -/
  | sum (u : VUse) (f : VFields)
  /-- SUMSQ (R131). Reduces the squares by summation. -/
  | sumsq (u : VUse) (f : VFields)
  /-- RED_MAX (R131). Reduces by IEEE maximum. -/
  | redMax (u : VUse) (f : VFields)
  /-- RED_MIN (R131). Reduces by IEEE minimum. -/
  | redMin (u : VUse) (f : VFields)
  /-- AMAX (R131). Reduces to the largest finite magnitude. -/
  | amax (u : VUse) (f : VFields)
  /-- PERM (R134). Permutes lanes within rows by index. -/
  | perm (u : VUse) (f : VFields)
  /-- SCAT (R134). Scatters lanes by index, highest lane winning. -/
  | scat (u : VUse) (f : VFields)
  /-- SCATADD (R134). Scatter-adds lanes by index in ascending lane order. -/
  | scatadd (u : VUse) (f : VFields)
  /-- CGATH (R134). Gathers down columns by index. -/
  | cgath (u : VUse) (f : VFields)
  /-- RBCAST (R134). Broadcasts one row to every row. -/
  | rbcast (u : VUse) (f : VFields)
  /-- CBCAST (R134). Broadcasts one column across each row. -/
  | cbcast (u : VUse) (f : VFields)
  /-- XPOSE (R134). Transposes a whole tile. -/
  | xpose (u : VUse) (f : VFields)
  /-- SEL_SMALLEST (R137). Merges lanes into per-row lists of the k smallest values. -/
  | selSmallest (u : VUse) (f : VFields)
  /-- SEL_LARGEST (R137). Merges lanes into per-row lists of the k largest values. -/
  | selLargest (u : VUse) (f : VFields)
  /-- LU (R138). Factors blocks in place into L and U with pivot substitution. -/
  | lu (u : VUse) (f : VFields)
  /-- CHOL (R138). Cholesky-factors blocks in place with pivot substitution. -/
  | chol (u : VUse) (f : VFields)
  /-- GJINV (R138). Inverts blocks in place by Gauss-Jordan elimination. -/
  | gjinv (u : VUse) (f : VFields)
  /-- TRINV (R138). Inverts lower-triangular blocks in place. -/
  | trinv (u : VUse) (f : VFields)
  /-- LD (R144). Loads rows from memory into a tile buffer, widening exactly. -/
  | ld (u : VUse) (f : VFields) (ext : W64)
  /-- ST (R144). Stores rows to memory, converting when the format differs. -/
  | st (u : VUse) (f : VFields) (ext : W64) (d : DrawIn)
  /-- LDS (R144). Loads consecutive 64-bit words into scalar words. -/
  | lds (u : VUse) (f : VFields) (ext : W64)
  /-- GATH (R146). Gathers table elements from memory by index, zero beyond EXTENT. -/
  | gath (u : VUse) (f : VFields) (ext : W64)
  /-- SETVL (R148). Sets the context's present vector length. -/
  | setvl (u : VUse) (f : VFields)
  /-- POP (R115). Releases the context's oldest queue entries at the end of the vector block. -/
  | pop (u : VUse) (f : VFields)
  /-- CKPT (R150). Ends the current vector block, applying pending releases and counter updates. -/
  | ckpt (u : VUse) (f : VFields)
  /-- CTRL_NOP (R148). Vector no-operation. -/
  | ctrlNop (u : VUse) (f : VFields)
  /-- VECTOR_BLOCK_RESTART (R151). A tile-buffer parity failure tests the row and restarts the vector block. -/
  | vectorBlockRestart (u : VUse) (buf : Nat) (row : Nat) (rowBad : Bool)
  /-- QUEUE_ENTRY_REPLAY (R152). A queue-entry parity failure replays the producing weight set and then restarts the block. -/
  | queueEntryReplay (u : VUse) (q : Nat) (row : Nat) (rowBad : Bool)
  /-- XFER_SLOT (R245). A transfer descriptor issues on a transfer queue. -/
  | xferSlot (seq : Nat)
  /-- XFER_COMPLETE (R245). A transfer finishes and releases slots that wait on it. -/
  | xferComplete (seq : Nat)
  /-- WAIT_SLOT (R225). A slot that only waits completes when its waits are met. -/
  | waitSlot (seq : Nat) (now : Nat)
  /-- FENCE_SLOT (R291). A FENCE completes when every earlier TETHER slot of the stream has completed. -/
  | fenceSlot (seq : Nat)
  /-- PUT_ISSUE (R283). A TETHER slot builds and sends a PUT. -/
  | putIssue (seq : Nat)
  /-- GET_ISSUE (R283). A TETHER slot sends a GET, reserving its local range. -/
  | getIssue (seq : Nat)
  /-- ACCUMULATE_ISSUE (R283). A TETHER slot sends an ACCUMULATE. -/
  | accumulateIssue (seq : Nat)
  /-- SIGNAL_ISSUE (R283). A TETHER slot sends a SIGNAL. -/
  | signalIssue (seq : Nat)
  /-- PUT_RECEIVE (R286). A received PUT is checked, written and optionally signalled, then ACKed. -/
  | putReceive (port : Nat) (h : WireHdr) (data : List Byte)
  /-- GET_RECEIVE (R286). A received GET is checked and answered with GET_RESP. -/
  | getReceive (port : Nat) (h : WireHdr)
  /-- ACCUMULATE_RECEIVE (R292). A received ACCUMULATE combines elements atomically, optionally signals, then ACKs. -/
  | accumulateReceive (port : Nat) (h : WireHdr) (data : List Byte)
  /-- SIGNAL_RECEIVE (R286). A received SIGNAL increments its tally window by INC and ACKs. -/
  | signalReceive (port : Nat) (h : WireHdr)
  /-- GET_RESP_RECEIVE (R286). A GET response writes its data at LOCAL and completes the message. -/
  | getRespReceive (h : WireHdr) (data : List Byte)
  /-- ACK_RECEIVE (R286). An ACK completes its message and increments CTALLY when enabled. -/
  | ackReceive (h : WireHdr)
  /-- NACK_RECEIVE (R290). A NACK completes its message without effect and, unless EPOCH or WINDOW, raises a contained data error. -/
  | nackReceive (h : WireHdr)
  /-- MESH_TRANSIT (R281). A message for another chip is forwarded on the mesh, moving to the escape channel when needed. -/
  | meshTransit (h : WireHdr) (data : List Byte)
  /-- MESSAGE_TIMEOUT (R290). A message not completed 100 us after issue raises a contained data error and counts. -/
  | messageTimeout (tag : Nat)
  /-- LINK_REPLAY (R295). A flit failing its CRC makes the sender replay from that sequence number. -/
  | linkReplay (port : Nat)
  /-- LANE_FAILURE (R296). A lane is declared failed and the direction's ballast lane is swapped in over 32 us. -/
  | laneFailure (lane : Nat) (ballastTrains : Bool) (partnerFree : Bool)
  /-- PARTNER_GONE (R297). All lanes losing lock or a partner power-off report takes the port DOWN with a NOTE and reroutes traffic. -/
  | partnerGone (port : Nat)
  /-- PATCH_POINT (R200). At a solve's patch point the solver applies, rejects or misses its patch and builds when asked. -/
  | patchPoint (id : Nat) (now : Nat) (build : BuildIn)
  /-- SOLVE_SLOT (R202). A solve record is taken at its slot and the solve starts. -/
  | solveSlot (seq : Nat) (now : Nat)
  /-- SOLVE_SCHEDULED_START (R218). A periodic scheduled start arrives and starts the solve, or takes effect when the previous one ends. -/
  | solveScheduledStart (id : Nat) (now : Nat)
  /-- SOLVE_STOP (R214). After an iteration's last reduction the solve stops on count, tolerance, breakdown, non-finite or deadline and runs the return tail. -/
  | solveStop (id : Nat) (e : SolveEnd)
  /-- HALO_TIMEOUT (R219). A halo tally still short at the deadline raises a contained data error. -/
  | haloTimeout (h : HaloLate)
  /-- ROOT_SLOT (R173). A root-set record is taken and its root-service work proceeds in its slots. -/
  | rootSlot (seq : Nat)
  /-- ROOT_CHECK (R180). After a refresh computes a block, its residual check makes the buffer READY or FREE and counts a rejection. `lost`:
  a word of root scratch that the block's work has met and that could not be corrected (R189). -/
  | rootCheck (set : Nat) (blk : Nat) (lost : Option Nat)
  /-- REFRESH_ABANDON (R188). A refresh still running at step s_r + 2K is abandoned at its next iteration or pivot boundary. -/
  | refreshAbandon (set : Nat)
  /-- PUBLICATION_POINT (R185). READY roots are published into the off-tack descriptors and others copied. -/
  | publicationPoint (seq : Nat)
  /-- FLAG_FOLD (R72). Plan-visible flag words are ORed into SRAM and cleared in one cycle. -/
  | flagFold (seq : Nat)
  /-- STEP_END (R224). The step-end mark of the plan issues. -/
  | stepEnd (seq : Nat)
  /-- VERDICT_POINT (R310). The verdict point is reached and firmware evaluates limits and closes the digest. -/
  | verdictPoint (now : Nat)
  /-- VOTE_CAST (R310). Once ready, the chip sends its vote to every other rank. -/
  | voteCast (now : Nat)
  /-- VOTES_GATHERED (R318). With every vote present the chip forms D and sends its seal. -/
  | votesGathered (now : Nat)
  /-- VOTE_DEADLINE (R318). At STEP_TO plus VOTE_GRACE the chip forms D from the votes it holds and seals. -/
  | voteDeadline (now : Nat)
  /-- SEALS_GATHERED (R318). With every seal present the step is final; the outcome block is written and the tack flips or is discarded. -/
  | sealsGathered (now : Nat)
  /-- SEAL_TIMEOUT (R323). Lacking a seal at SEAL_TO, the chip enters reconcile. -/
  | sealTimeout (now : Nat)
  /-- RECONCILE_GATHERED (R324). With every survivor's record naming one suspect, the step commits or skips and DEGRADED is reported. -/
  | reconcileGathered (now : Nat)
  /-- RECONCILE_TIMEOUT (R324). A missing reconcile record at SEAL_TO falls back to re-planning from the last snapshot. -/
  | reconcileTimeout (now : Nat)
  /-- SNAPSHOT_COMPLETE (R345). The drain finishes every target, releases HELD copies and sends its cost report. -/
  | snapshotComplete (c : SnapCost)
  /-- INTERVAL_COMPUTE (R348). Rank 0, holding the reports, computes the interval by Young's rule and sends schedules. -/
  | intervalCompute (m : IntervalIn)
  /-- INVENTORY_COMPLETE (R355). With every survivor's inventory present the common step s is computed. -/
  | inventoryComplete (hostSlots : List (Nat × Nat))
  /-- INVENTORY_TIMEOUT (R355). A missing inventory at SEAL_TO stops the plan for re-planning. -/
  | inventoryTimeout
  /-- PERMUTATION_COMPLETE (R356). The permuting collective completes; selectors, ledger status and step index are reset to s. -/
  | permutationComplete
  /-- SWEEP_COMPLETE (R264). Every piece's writes of a sweep are acknowledged and it awaits its flip. -/
  | sweepComplete (shard : Nat)
  /-- PSEUDO_CHANNEL_FAILURE (R253). A failed HBM pseudo-channel is remapped into other stacks' reserve, or its stack leaves service. -/
  | pseudoChannelFailure (stack : Nat) (pc : Nat)
  /-- GONDOLA_DEVICE_PRESENCE (R258). A device appearing on port G takes the lowest EMPTY bay into TRAINING. -/
  | gondolaDevicePresence (d : CxlDev)
  /-- BAY_TRAINING_COMPLETE (R258). Training and enumeration end with the bay ONLINE or back to EMPTY. -/
  | bayTrainingComplete (b : Nat) (ok : Bool)
  /-- BAY_DRAIN_COMPLETE (R259). Requests in flight on a DRAINING bay complete and the removal sequence leaves it EMPTY. -/
  | bayDrainComplete (b : Nat)
  /-- GONDOLA_READ_TIMEOUT (R260). A port G read without completion in 20 us ends as an uncorrectable error. -/
  | gondolaReadTimeout (e : GonErr)
  /-- GONDOLA_BAD_COMPLETION (R260). A poisoned or failed port G completion ends as an uncorrectable error. -/
  | gondolaBadCompletion (e : GonErr) (wrote : Option (Nat × Nat))
  /-- PORT_G_LINK_DOWN (R260). A port G link down puts the bay into GONE with DEGRADED. -/
  | portGLinkDown (b : Nat)
  /-- SCRUB_LINE (R388). The scrubber reads and corrects the next line at its set rate. -/
  | scrubLine (line : Nat) (find : EccFind)
  /-- CORRECTIVE_WRITE_BACK (R383). A queued corrective write-back takes a free write slot unless the line was rewritten. -/
  | correctiveWriteBack (line : Nat)
  /-- BUCKET_LEAK_TICK (R385). Every LEAK period each nonzero bucket level of the class falls by 1. -/
  | bucketLeakTick (n : Nat)
  /-- BANK_MIGRATION_COMPLETE (R398). A bank copy to a spare bank finishes and writes are held 1 us for the switch. -/
  | bankMigrationComplete (b : Nat)
  /-- BANK_FAILURE (R398). A dead SRAM bank is replaced by a spare within 4 us with its lines marked lost. -/
  | bankFailure (b : Nat)
  /-- CORE_HEARTBEAT_MISS (R399). A control core missing two heartbeats is replaced by the spare core, or lost. -/
  | coreHeartbeatMiss (c : CoreIn)
  /-- BIST_COMPLETE (R392). An in-service test ends with PASS or FAIL. -/
  | bistComplete (pass : Bool) (sig : W64)
  /-- BIST_BUDGET_EXPIRY (R392). A test exceeding its budget ends with TIMEOUT and is treated as FAIL. -/
  | bistBudgetExpiry
  /-- WEIGHT_FETCH_RESPONSE (R368). A gateway response is delivered to the shroud. -/
  | weightFetchResponse (session : Nat) (ch : ChunkIn)
  /-- WEIGHT_FETCH_TIMEOUT (R369). A fetch unanswered in 100 us is reissued up to three times. -/
  | weightFetchTimeout (session : Nat)
  /-- DIGEST_SCRUB (R371). Each digest period the SHA-512 of every loaded shard is recomputed and mismatches marked BAD. -/
  | digestScrub (bad : List (Nat × Nat))
  /-- REEF_CLOCK_STEP (R452). After a fall in the clock ceiling, the arithmetic clock moves down one step every 2 us until it is under the new ceiling, and VID follows after the last step. -/
  | reefClockStep
  /-- CXL_LINK_RETRY (R410). A CXL link-layer retry on port H or port G counts in CXL_H_RETRY or CXL_G_RETRY and against bucket class 7. -/
  | cxlLinkRetry (portG : Bool)
  /-- IDE_INTEGRITY_FAILURE (R404). An IDE integrity check failure on port H follows the CXL and PCIe rules, counts in CXL_H_IDEFAIL and counts against bucket class 7. -/
  | ideIntegrityFailure
  /-- DOE_REQUEST (R403). A DOE mailbox request (CMA/SPDM, IDE_KM or CDAT) on port H is taken and answered: measurements are signed with the identity key, or IDE keys are programmed into the key store. -/
  | doeRequest (d : DoeIn)
  /-- L0P_CHANGE (R428). Port H changes to or from reduced width under L0p, which updates CXL_H_STAT.L0P and sets IRQ_CAUSE.LINK. -/
  | l0pChange (reduced : Bool)
  /-- GONDOLA_VIRAL (R403). A device on port G that signals viral puts its bay into GONE under R260. -/
  | gondolaViral (b : Nat)
  /-- LINK_CONTROL_BALLAST_NOTICE (R296). A link-control notice from the partner that a ballast lane is bad makes this end hold the wired pair unusable, clear its CRW_BAL_LEFT.LANES bit and report DEGRADED. -/
  | linkControlBallastNotice (dir : Nat)
  /-- ZEROING_COMPLETE (R377). The zeroing of a weight slot or of the traced copies finishes on the transfer queue, so the slot becomes EMPTY or the stop completes, and a waiting or latched admission proceeds. -/
  | zeroingComplete
deriving DecidableEq, Repr

end Sys2Proof
end

