-- ==== Sys2Proof/Decode.lean ====
section
/-! DEFINITION. The commands that a word of spec/opcode_table.json spells. Every row of that table has no fields: its commands are
register accesses, messages, pins and events of the block, and none of them is a word. -/

namespace Sys2Proof

/-- The table gives none of its rows a bit, so no word spells a command. -/
def decodeTableWord (_nbits _w : Nat) : Option Instr := none

end Sys2Proof
end

