-- ==== Sys2Proof/Machine/Mem.lean ====
section
/-! DEFINITION. Byte memories as lists of cells in one canonical form: addresses strictly rising, no entry equal to what
an unlisted address reads as. Device memory, host memory and slot images all take this form. -/

namespace Sys2Proof.Machine

/-- A byte memory: (address, byte) cells, strictly rising, none equal to zero (08 R243; log entry 1). -/
abbrev Mem := List Host.Cell

/-- What an address that is not listed reads as: zero. DESIGN CHOICE, unsafe (log entry 1). -/
def Mem.blank : Byte := 0

/-- The byte at `a`. -/
def Mem.get : Mem → Nat → Byte
  | [], _ => Mem.blank
  | (b, v) :: t, a => if b = a then v else if a < b then Mem.blank else Mem.get t a

/-- Writes one byte, keeping the canonical form. -/
def Mem.set : Mem → Nat → Byte → Mem
  | [], a, v => if v = Mem.blank then [] else [(a, v)]
  | (b, w) :: t, a, v =>
    if b < a then (b, w) :: Mem.set t a v
    else if b = a then (if v = Mem.blank then t else (a, v) :: t)
    else (if v = Mem.blank then (b, w) :: t else (a, v) :: (b, w) :: t)

/-- Every address of the list is above `a` and they rise strictly; no byte is blank. -/
def Mem.above (a : Nat) : Mem → Bool
  | [] => true
  | (b, v) :: t => a < b && v != Mem.blank && Mem.above b t

/-- The canonical form. -/
def Mem.wf : Mem → Bool
  | [] => true
  | (b, v) :: t => v != Mem.blank && Mem.above b t

/-- `n` bytes from `a` upward. -/
def Mem.read (m : Mem) (a : Nat) : Nat → List Byte
  | 0 => []
  | n + 1 => m.get a :: Mem.read m (a + 1) n

/-- Writes the bytes `bs` from `a` upward. -/
def Mem.write (m : Mem) (a : Nat) : List Byte → Mem
  | [] => m
  | b :: bs => Mem.write (m.set a b) (a + 1) bs

/-- The little-endian value of a list of bytes (00 R8). -/
def leNat : List Byte → Nat
  | [] => 0
  | b :: bs => b.toNat + 256 * leNat bs

/-- `n` little-endian bytes of a value (00 R8). -/
def leBytes : Nat → Nat → List Byte
  | 0, _ => []
  | n + 1, v => BitVec.ofNat 8 v :: leBytes n (v / 256)

/-- The little-endian value of `n` bytes at `a`. -/
def Mem.readLE (m : Mem) (a n : Nat) : Nat := leNat (m.read a n)

/-- Writes `v` as `n` little-endian bytes at `a`. -/
def Mem.writeLE (m : Mem) (a n v : Nat) : Mem := m.write a (leBytes n v)

/-- Writes `n` zero bytes from `a`: the cells of the range go. -/
def Mem.zero (m : Mem) (a n : Nat) : Mem := m.filter fun c => c.1 < a || a + n ≤ c.1

/-- Bits [hi:lo] of a value (00 R7). -/
def bits (v hi lo : Nat) : Nat := v / 2 ^ lo % 2 ^ (hi + 1 - lo)

/-- One bit of a value. -/
def bit (v i : Nat) : Bool := v / 2 ^ i % 2 = 1

/-- A Bool as a bit. -/
def ofBool (b : Bool) : Nat := if b then 1 else 0

/-- Whether [a, a+n) and [b, b+m) share an address. -/
def overlaps (a n b m : Nat) : Bool := decide (0 < n ∧ 0 < m ∧ a < b + m ∧ b < a + n)

/-- Whether [a, a+n) lies wholly in [b, b+m). -/
def inside (a n b m : Nat) : Bool := decide (b ≤ a ∧ a + n ≤ b + m)

/-- A value cut to [lo, hi]. -/
def clampNat (lo hi v : Nat) : Nat := if v < lo then lo else if hi < v then hi else v

/-- Counts one more event, saturating (05 R190 and every counter of the crow's nest). -/
def satAdd (c n : Nat) : Nat := if ctrMax < c + n then ctrMax else c + n

/-- The ceiling of a quotient. -/
def ceilDiv (a b : Nat) : Nat := (a + b - 1) / b

/-- Replaces element `i` of a list by its image. -/
def modAt {α : Type} (f : α → α) : Nat → List α → List α
  | _, [] => []
  | 0, x :: xs => f x :: xs
  | i + 1, x :: xs => x :: modAt f i xs

/-- Sparse words of width `w`, keyed by a number, in canonical form: keys strictly rising, no word zero. -/
abbrev Sparse (w : Nat) := List (Nat × BitVec w)

/-- The word under key `k`; zero when none is listed. -/
def Sparse.get {w : Nat} : Sparse w → Nat → BitVec w
  | [], _ => 0
  | (b, v) :: t, a => if b = a then v else if a < b then 0 else Sparse.get t a

/-- Stores a word, keeping the canonical form. -/
def Sparse.set {w : Nat} : Sparse w → Nat → BitVec w → Sparse w
  | [], a, v => if v = 0 then [] else [(a, v)]
  | (b, x) :: t, a, v =>
    if b < a then (b, x) :: Sparse.set t a v
    else if b = a then (if v = 0 then t else (a, v) :: t)
    else (if v = 0 then (b, x) :: t else (a, v) :: (b, x) :: t)

/-- Keeps the words whose key satisfies `p`. -/
def Sparse.keep {w : Nat} (m : Sparse w) (p : Nat → Bool) : Sparse w := m.filter fun c => p c.1

/-- The words `f 0` to `f (n - 1)`. -/
def Sparse.tabulate {w : Nat} (n : Nat) (f : Nat → BitVec w) : Sparse w :=
  (List.range n).filterMap fun k => if f k = 0 then none else some (k, f k)

end Sys2Proof.Machine
end

