-- ==== Sys2Proof/Machine/Crc.lean ====
section
/-! DEFINITION. The checks the manual names: CRC-64 of 06 R193 and CRC-32C. -/

namespace Sys2Proof.Machine

/-- One bit of CRC-32C in its reflected form (PRESUMED: the Castagnoli polynomial and the usual conditioning; log entry 10). -/
def crc32cBit (c : Nat) : Nat := if c % 2 = 1 then (c / 2) ^^^ 0x82F63B78 else c / 2

/-- One byte of CRC-32C. -/
def crc32cByte (c : Nat) (b : Byte) : Nat :=
  crc32cBit (crc32cBit (crc32cBit (crc32cBit (crc32cBit (crc32cBit (crc32cBit (crc32cBit (c ^^^ b.toNat))))))))

/-- CRC-32C of a list of bytes (log entry 10). -/
def crc32c (bs : List Byte) : Nat := bs.foldl crc32cByte 0xFFFFFFFF ^^^ 0xFFFFFFFF

/-- One bit of CRC-64: polynomial 0x42F0_E1EB_A9EA_3693, no reflection (06 R193). -/
def crc64Bit (c : Nat) : Nat :=
  if c / 2 ^ 63 % 2 = 1 then (c * 2 % 2 ^ 64) ^^^ 0x42F0E1EBA9EA3693 else c * 2 % 2 ^ 64

/-- One byte of CRC-64. -/
def crc64Byte (c : Nat) (b : Byte) : Nat :=
  crc64Bit (crc64Bit (crc64Bit (crc64Bit (crc64Bit (crc64Bit (crc64Bit (crc64Bit (c ^^^ (b.toNat * 2 ^ 56)))))))))

/-- CRC-64 of a list of bytes: initial value 0, no final inversion (06 R193). -/
def crc64 (bs : List Byte) : Nat := bs.foldl crc64Byte 0

end Sys2Proof.Machine
end

