-- ==== Sys2Proof/Machine/State.lean ====
section
/-! DEFINITION. The state of the block as plain data, its reasons to stop, and the state right after reset.
In square brackets each field gives its width, the rule that names it, and its reset value (DC n, PR n: a value that log
entry n chooses or presumes). -/

namespace Sys2Proof.Machine

/-- Where a run would stop. The manual gives every command an effect, so the model's meanings raise none. -/
inductive Fault where
  /-- Raised by nobody: the manual lets no command end in a fault of the block itself (it reports under an error class
  and goes on, 00 R22). Safe: it is never answered. -/
  | unused
deriving DecidableEq, Repr

/-- Why a command has no meaning. -/
inductive Refusal where
  /-- The command's row has no meaning yet: raised by its arm of exec only. Safe: the run stops. -/
  | notModelled (mnemonic : String)
deriving DecidableEq, Repr

/-! ## Board signals, identity, fuses and flash -/

/-- The device's start-up signals (15 R434). -/
structure Pins where
  /-- RESET_N [1; 15 R434; low: false] -/
  resetN : Bool
  /-- VDDAO and VDDAO_IO within range [1; 16 R469; true] -/
  vddao : Bool
  /-- PWR_EN [1; 15 R434; 0] -/
  pwrEn : Bool
  /-- PWROK [1; 15 R434; low: false, DC 2] -/
  pwrok : Bool
  /-- THERMTRIP_N asserted (driven low) [1; 15 R434, R455; not asserted: false] -/
  thermtrip : Bool
  /-- FAULT_N asserted (driven low) [1; 15 R434; not asserted: false] -/
  faultN : Bool
  /-- every clock but the watch clock stopped [1; 15 R441; true, DC 2] -/
  clocksOff : Bool
  /-- PERST_N high [1; 15 R434; false, DC 2] -/
  perstN : Bool
  /-- GPIO[7:0] [8; 15 R434; inputs reading 0, DC 2] -/
  gpio : Byte
deriving DecidableEq, Repr

/-- The watch time base and the DBG_ registers (14 R411). -/
structure Dbg where
  /-- watch cycles since power-on reset, DBG_WTIME_LO and _HI [64; 14 R411; 0] -/
  now : Nat
  /-- DBG_WTIME_HI's latched value [32; 14 R411; 0] -/
  wtimeHi : W32
  /-- DBG_SCRATCH [32; 14 R411; 0] -/
  scratch : W32
  /-- DBG_STAT.TAP_KEY [1; 14 R411; 0] -/
  tapKey : Bool
  /-- DBG_STAT.TAP_ANY [1; 14 R411; 0] -/
  tapAny : Bool
  /-- DBG_STAT.TAP_NOW [1; 14 R411; 0] -/
  tapNow : Bool
deriving DecidableEq, Repr

/-- The factory fuses (00 R17, 15 R444). -/
structure Fuses where
  /-- silicon stepping [8; 14 R409; 0xA0 for A0] -/
  step : Byte
  /-- device serial number [64; 14 R409; 1, DC 3] -/
  serial : W64
  /-- fused security version [8; 15 R444; 0, DC 3] -/
  svn : Nat
  /-- firmware key hashes of slots 0 to 3 and whether each is revoked [4 x 513; 15 R444; hash 0, not revoked, DC 3] -/
  keys : List (BitVec 512 × Bool)
  /-- spare main arrays, one bit per ballast array 0 to 7 that is usable [8; 13 R395, R396; all, DC 3] -/
  balArrays : List Bool
  /-- usable spare Gram arrays 0 and 1 [2; 13 R395, R396; all, DC 3] -/
  balGrams : List Bool
  /-- usable ballast lanes 64 to 67 [4; 13 R395; all, DC 3] -/
  balLanes : List Bool
  /-- spare SRAM banks [0 to 2; 13 R395, R396; 2, DC 3] -/
  balBanks : Nat
  /-- spare control core present [1; 13 R395, R396; true, DC 3] -/
  balCore : Bool
deriving DecidableEq, Repr

/-- The board tether record (09 R275). -/
structure TetherRec where
  /-- BOARD [12; 09 R275; 0, DC 3] -/
  board : Nat
  /-- X [6; 09 R275; 0, DC 3] -/
  x : Nat
  /-- Y [6; 09 R275; 0, DC 3] -/
  y : Nat
  /-- XMAX [6; 09 R275; 0, DC 3] -/
  xmax : Nat
  /-- YMAX [6; 09 R275; 0, DC 3] -/
  ymax : Nat
  /-- RATE code of each port [16 x 2; 09 R275; 0, DC 3] -/
  rates : List Nat
  /-- DIR code of each port [16 x 3; 09 R275; unused 0b110, DC 3] -/
  dirs : List Nat
deriving DecidableEq, Repr

/-- The boot flash (15 R442). -/
structure Flash where
  /-- the boot record names image B [1; 15 R442; A, DC 3] -/
  prefB : Bool
  /-- the boot record's CRC is good [1; 15 R442; true, DC 3] -/
  bootRecOk : Bool
  /-- board tether record as last written [128; 09 R275; every port unused, DC 3] -/
  tether : TetherRec
  /-- user calibration copy 0 [256; 15 R446; 0 (invalid), DC 3] -/
  cal0 : BitVec 256
  /-- user calibration copy 1 [256; 15 R446; 0 (invalid), DC 3] -/
  cal1 : BitVec 256
  /-- the factory calibration record verifies [1; 15 R445; true, DC 3] -/
  factoryOk : Bool
  /-- minimum VDDC over the units in service at each clock step 400, 450, ..., 1200 MHz, in units of 0.1 mV [15 R445, R448; 7900 each, DC 3] -/
  vmin : List Nat
  /-- image A [8 MiB; 15 R442; none, DC 3] -/
  imgA : Option FwImage
  /-- image B [8 MiB; 15 R442; none, DC 3] -/
  imgB : Option FwImage
deriving DecidableEq, Repr

/-- The firmware that runs (14 R409, 15 R444, R457). -/
structure Fw where
  /-- ID_FW.LINE [8; 14 R409; 0x00] -/
  line : Nat
  /-- ID_FW.MINOR [8; 14 R409; 0x00] -/
  minor : Nat
  /-- ID_FW.BUILD [16; 14 R409; 0x0000] -/
  build : Nat
  /-- SVN of the running image [8; 15 R457; 0] -/
  svn : Nat
  /-- image B runs [1; 15 R457; false] -/
  isB : Bool
  /-- hash of the running image [512; 15 R457; 0] -/
  hash : BitVec 512
  /-- HLY_STAT.FW_READY [1; 14 R412; 0] -/
  ready : Bool
deriving DecidableEq, Repr

/-! ## Power, clocks and thermal -/

/-- Power and clock state (15 R451 to R455, R459). -/
structure Pwr where
  /-- CRW_PWR_STATE.HOST [2; 15 R459; 0] -/
  host : Nat
  /-- CRW_PWR_STATE.PINS [2; 15 R459; 0] -/
  pins : Nat
  /-- CRW_PWR_STATE.THERM [2; 15 R459; 0] -/
  therm : Nat
  /-- CRW_PWR_STATE.REEF, the effective level [2; 15 R459; 0] -/
  reef : Nat
  /-- arithmetic clock setting in units of 10 MHz, 40 to 120 [8; 15 R435; 120, DC 4] -/
  clk : Nat
  /-- CRW_PWR_STATE.VID [6; 15 R459; 0x14] -/
  vid : Nat
  /-- the setting that a rise of the clock leads to, one step at each settling of VID; 0: no rise under way [8; 15 R448; 0] -/
  rising : Nat
  /-- cycles in sixteen for which issue is held at the floor [4; 15 R453; 0] -/
  hold : Nat
  /-- a fast clamp holds issue on alternate cycles [1; 15 R453; false] -/
  clamped : Bool
  /-- CRW_PWR_STATE.CEIL_LOW [1; 15 R459; 0] -/
  ceilLow : Bool
  /-- CRW_PWR_STATE.SAFE_CAUSE [8; 15 R459; 0x00] -/
  cause : Nat
  /-- CRW_PWR_WATTS.POWER [16; 15 R459; 0] -/
  watts : Nat
  /-- CRW_PWR_WATTS.PEAK [16; 15 R459; 0] -/
  peak : Nat
  /-- CRW_PWR_TEMP.TJ [16; 15 R459; 0] -/
  tj : BitVec 16
  /-- CRW_PWR_TEMP.SENSOR [8; 15 R459; 0] -/
  sensor : Nat
  /-- CRW_SG_LATE [32; 15 R459; 0] -/
  sgLate : Nat
  /-- CRW_PWR_CLAMP [32; 15 R459; 0] -/
  clamps : Nat
  /-- CRW_PWR_REEFCH [32; 15 R459; 0] -/
  reefch : Nat
  /-- the applied user calibration record [256; 15 R446, R447; 0: factory values alone] -/
  cal : BitVec 256
  /-- VDDC_OFS in force, in units of 2.5 mV (changes at a VID change) [8; 15 R447; 0] -/
  vddcOfs : Int
  /-- EQ_OFS in force, one per port (changes at a bring-up after reset) [72; 15 R447; 0] -/
  eqOfs : W64
deriving DecidableEq, Repr

/-- Power state of a spar group (15 R436). -/
inductive GPower where
  | off | idle | run
deriving DecidableEq, Repr

/-- State of a control core (15 R439). -/
inductive CorePower where
  | running | clockGated | powerGated | lost
deriving DecidableEq, Repr

/-! ## Halyard, events, interrupts and port H -/

/-- A command ring (14 R413). -/
structure Ring where
  /-- HLY_CTRL.RING_EN bit n [1; 14 R412; 0] -/
  en : Bool
  /-- the ring fetches [1; 14 R415; false] -/
  running : Bool
  /-- HLY_SQB [64; 14 R413; 0] -/
  sqb : W64
  /-- HLY_CQB [64; 14 R413; 0] -/
  cqb : W64
  /-- HLY_SIZE.SQ_LOG2 [5; 14 R413; 4] -/
  sqLog2 : Nat
  /-- HLY_SIZE.CQ_LOG2 [5; 14 R413; 4] -/
  cqLog2 : Nat
  /-- HLY_SQ_TAIL [16; 14 R413; 0] -/
  tail : Nat
  /-- HLY_SQ_HEAD [16; 14 R413; 0] -/
  head : Nat
  /-- HLY_CQ_HEAD [16; 14 R413; 0] -/
  cqHead : Nat
  /-- index at which the device writes its next completion [16; 14 R416; 0] -/
  cqTail : Nat
  /-- completion entries written and not yet consumed [17; 14 R417; 0] -/
  used : Nat
  /-- phase bit of the current pass [1; 14 R416; 1] -/
  phase : Bool
  /-- HLY_COAL.COUNT [8; 14 R413; 1] -/
  coalCount : Nat
  /-- HLY_COAL.TIME [16; 14 R413; 0] -/
  coalTime : Nat
  /-- completions written since the cause bit was last cleared [14 R430; 0] -/
  sinceClear : Nat
  /-- HLY_RSTAT.QUIESCED [1; 14 R413; 1] -/
  quiesced : Bool
  /-- HLY_RSTAT.RESTART_PEND [1; 14 R413; 0] -/
  restPend : Bool
  /-- HLY_RSTAT.ERR [4; 14 R413; 0] -/
  err : Nat
  /-- commands in progress in the order they started, at most 16: place in the order over all rings, descriptor [14 R420; none] -/
  inProg : List (Nat × BitVec 512)
  /-- completions held until a completion entry frees: words [255:1] of each, and IRQ_NOW [14 R417; none] -/
  held : List (BitVec 256 × Bool)
  /-- doorbells whose descriptors are not all fetched: TAIL and order of arrival over all rings [14 R420; none] -/
  bells : List (Nat × Nat)
deriving DecidableEq, Repr

/-- The halyard's own registers (14 R412). -/
structure Hly where
  /-- HLY_CTRL.EN [1; 14 R412; 0] -/
  en : Bool
  /-- the halyard runs: its event ring takes records [1; 14 R415; false] -/
  running : Bool
  /-- HLY_STAT.QUIESCED [1; 14 R412; 1] -/
  quiesced : Bool
  /-- HLY_STAT.RESTART_PEND [1; 14 R412; 0] -/
  restPend : Bool
  /-- HLY_EVT_DROP [32; 14 R412; 0] -/
  evtDrop : Nat
  /-- command rings 0 to 3 [14 R413; each at reset] -/
  rings : List Ring
  /-- commands started so far over all rings [14 R420; 0] -/
  order : Nat
deriving DecidableEq, Repr

/-- The event ring and report delivery (14 R413, R426, R427; 00 R24, R26). -/
structure Evt where
  /-- event ring base, HLY_CQB of block 0x1200 [64; 14 R413; 0] -/
  base : W64
  /-- event ring CQ_LOG2 [5; 14 R413; 4] -/
  log2 : Nat
  /-- event ring HLY_CQ_HEAD [16; 14 R413; 0] -/
  head : Nat
  /-- index of the next event entry to write [16; 14 R416; 0] -/
  tail : Nat
  /-- event entries written and not yet consumed [17; 14 R427; 0] -/
  used : Nat
  /-- phase bit of the current pass [1; 14 R416; 1] -/
  phase : Bool
  /-- event ring HLY_RSTAT.ERR [4; 14 R413; 0] -/
  err : Nat
  /-- records of the reports of this watch cycle, which are delivered in the order of R25 when the cycle ends [00 R25; none] -/
  wait : List (BitVec 256)
  /-- CONTAINED, DEGRADED and FATAL records held until entries free [14 R427; none] -/
  held : List (BitVec 256)
  /-- fault sequence number of the last fault [64; 00 R24; 0, DC 5] -/
  fseq : Nat
  /-- a FATAL report has been delivered since reset [1; 00 R26; false] -/
  fatal : Bool
deriving DecidableEq, Repr

/-- Interrupts (14 R428, R429). -/
structure Irq where
  /-- IRQ_CAUSE [10; 14 R428; 0] -/
  cause : BitVec 10
  /-- IRQ_MASK [10; 14 R428; 0x000] -/
  mask : BitVec 10
  /-- IRQ_CLASS.MIN [3; 14 R428; 0b010] -/
  cls : Nat
  /-- MSI-X table: four words per entry, 16 entries [64 x 32; 14 R406; address and data 0, vector masked, PR 7] -/
  table : Sparse 32
  /-- MSI-X pending-bit array [16; 14 R406, R429; 0] -/
  pba : BitVec 16
  /-- MSI-X messages sent, oldest first [14 R429; none] -/
  sent : List Nat
  /-- AER: uncorrectable internal errors of non-fatal severity sent [14 R428; 0] -/
  aer : Nat
deriving DecidableEq, Repr

/-- Port H and port G link state and the host-visible range (14 R402, R410, R431). -/
structure Cxl where
  /-- CXL_H_STAT.MODE [3; 14 R410; 0b000] -/
  hMode : Nat
  /-- CXL_H_STAT.WIDTH [5; 14 R410; 0] -/
  hWidth : Nat
  /-- CXL_H_STAT.FLIT256 [1; 14 R410; 0] -/
  hFlit256 : Bool
  /-- CXL_H_STAT.LOPT [1; 14 R410; 0] -/
  hLopt : Bool
  /-- CXL_H_STAT.CACHE [1; 14 R410; 0] -/
  hCache : Bool
  /-- CXL_H_STAT.MEM [1; 14 R410; 0] -/
  hMem : Bool
  /-- IDE streams active on port H; CXL_H_STAT.IDE reads whether there is one [14 R404, R410; none] -/
  hIde : List Nat
  /-- CXL_H_STAT.L0P [1; 14 R410; 0] -/
  hL0p : Bool
  /-- a surprise link-down is waiting for the link to return [1; 14 R405; false] -/
  hWasDown : Bool
  /-- CXL_H_RETRY [32; 14 R410; 0] -/
  hRetry : Nat
  /-- CXL_H_IDEFAIL [32; 14 R410; 0] -/
  hIdeFail : Nat
  /-- CXL_G_STAT.IDE [1; 14 R410; 0] -/
  gIde : Bool
  /-- CXL_G_RETRY [32; 14 R410; 0] -/
  gRetry : Nat
  /-- CXL_HDM: device base [48; 14 R410, R431; 0] -/
  hdmBase : Nat
  /-- CXL_HDM_HI.LEN in units of 256 MiB [9; 14 R410, R431; 0] -/
  hdmLen : Nat
  /-- parts of the mapped range unmapped because they left the allowed ranges: (base, bytes) [14 R431; none] -/
  hdmGone : List (Nat × Nat)
  /-- lines of the range that the host's caches may hold [14 R431; none] -/
  hdmCached : List Nat
  /-- answers to host CXL.mem reads, oldest first: the bytes, and whether they are poisoned [14 R431; none] -/
  hdmOut : List (List Byte × Bool)
  /-- answers to DOE requests, oldest first [14 R403; none] -/
  doeOut : List (List Byte)
  /-- a viral signal has been sent to the host [1; 14 R403; false] -/
  viral : Bool
deriving DecidableEq, Repr

/-! ## Device-wide counters and integrity -/

/-- Counters of 0x0100 to 0x039C (14 R408). -/
structure Gen where
  /-- CRW_RSVD_WR [32; 14 R408; 0] -/
  rsvdWr : Nat
  /-- CRW_SPAR_STALL0 to 39 [40 x 32; 14 R408; 0] -/
  stall : List Nat
  /-- stall remainders below 64, one per group [40 x 6; 14 R408; 0] -/
  stallRem : List Nat
  /-- CRW_PIV_TOT0 to 39 [40 x 32; 14 R408; 0] -/
  pivTot : List Nat
deriving DecidableEq, Repr

/-- Lines that a failure left marked lost, and those rewritten since (08 R253, 13 R398). -/
structure Lost where
  /-- first byte of the region [48; 08 R253] -/
  base : Nat
  /-- bytes of the region [48; 08 R253] -/
  len : Nat
  /-- pseudo-channel: only lines whose index within the stack is this modulo 32; none: every line [08 R251] -/
  pc : Option Nat
  /-- lines rewritten since, by address [08 R253] -/
  fresh : List Nat
deriving DecidableEq, Repr

/-- Error-correcting-code state of SRAM and HBM (13 R380 to R388). -/
structure Ecc where
  /-- words that cannot be corrected, by address [13 R380; none] -/
  ue : List Nat
  /-- words that hold a single-bit error, by address [13 R383; none] -/
  ce : List Nat
  /-- regions marked lost [08 R253; none] -/
  lost : List Lost
  /-- queued corrective write-backs, by line, at most 16 per bank or pseudo-channel [13 R383; none] -/
  wbq : List Nat
  /-- lines taken on the fall-back path and not rewritten since [13 R383; none] -/
  defer : List Nat
  /-- scrubber's priority list of SRAM lines, at most 256 [13 R383; none] -/
  prioS : List Nat
  /-- scrubber's priority list of HBM lines, at most 256 [13 R383; none] -/
  prioH : List Nat
  /-- rows that had a correction before the last rewrite of the failing line: (row, rewritten since) [13 R386; none] -/
  rows : List (Nat × Bool)
  /-- rows already retired to spares [13 R386; none] -/
  retired : List Nat
  /-- spare rows used in each SRAM bank, of 128 [48 x 8; 13 R396; 0] -/
  bankRows : List Nat
  /-- next line the scrubber reads in SRAM [13 R388; 0] -/
  scrubS : Nat
  /-- next line the scrubber reads in HBM [13 R388; first HBM line] -/
  scrubH : Nat
  /-- port G ranges whose write failed, lost until written again: (base, bytes) [08 R260; none] -/
  gonLost : List (Nat × Nat)
deriving DecidableEq, Repr

/-- One leaky bucket class (13 R385). -/
structure Bucket where
  /-- CRW_BKT_CFG.THRESH [8; 13 R385; as the class table] -/
  thresh : Nat
  /-- CRW_BKT_CFG.LEAK in units of 100 us [16; 13 R385; as the class table] -/
  leak : Nat
  /-- the class's leak timer runs [1; 13 R385; true] -/
  timer : Bool
  /-- number of regions [13 R385; as the class table] -/
  regions : Nat
  /-- levels that are not zero, by region [regions x 8; 13 R385; 0] -/
  level : Sparse 16
deriving DecidableEq, Repr

/-- A repair report (13 R394). -/
structure Repair where
  /-- KIND [8; 13 R394] -/
  kind : Nat
  /-- SERVICE [16; 13 R394] -/
  service : Nat
  /-- SITE [16; 13 R394] -/
  site : Nat
  /-- SOURCE [4; 13 R394] -/
  source : Nat
  /-- ACTION [4; 13 R394] -/
  action : Nat
  /-- ADDRESS [48; 13 R394] -/
  addr : Nat
  /-- BIT [8; 13 R394] -/
  bit : Nat
  /-- SPARES_LEFT [16; 13 R394] -/
  left : Nat
  /-- SIGNATURE [64; 13 R394] -/
  sig : W64
  /-- FAULT_SEQ [64; 13 R394] -/
  fseq : Nat
deriving DecidableEq, Repr

/-- Integrity, self-test and ballast (13 R385 to R400). -/
structure Integ where
  /-- CRW_ECC_CORR [32; 13 R395; 0] -/
  corr : Nat
  /-- CRW_ECC_DEFER [32; 13 R395; 0] -/
  deferred : Nat
  /-- CRW_ECC_UE [32; 13 R395; 0] -/
  ue : Nat
  /-- CRW_PAR_REPLAY [32; 13 R395; 0] -/
  parReplay : Nat
  /-- CRW_BKT_OVF [32; 13 R395; 0] -/
  bktOvf : Nat
  /-- CRW_ROW_RETIRE [32; 13 R395; 0] -/
  rowRetire : Nat
  /-- CRW_SCRUB_PASS_S [32; 13 R395; 0] -/
  passS : Nat
  /-- CRW_SCRUB_PASS_H [32; 13 R395; 0] -/
  passH : Nat
  /-- CRW_SCRUB_CTRL.EN [1; 13 R395; 1] -/
  scrubEn : Bool
  /-- CRW_SCRUB_CTRL.HBM_RATE [12; 13 R395; 0x010] -/
  rateH : Nat
  /-- CRW_SCRUB_CTRL.SRAM_RATE [12; 13 R395; 0x010] -/
  rateS : Nat
  /-- CRW_SCRUB_STAT.RESTART_PEND [1; 13 R395; 0] -/
  scrubPend : Bool
  /-- a stop of the scrubber is completing [1; 13 R389; false] -/
  scrubStopping : Bool
  /-- CRW_SCRUB_STAT.BEHIND [1; 13 R395; 0] -/
  behind : Bool
  /-- bucket classes 0 to 7 [13 R385; as the class table] -/
  buckets : List Bucket
  /-- spare main arrays usable, by ballast array [8; 13 R395; fused] -/
  balArrays : List Bool
  /-- spare Gram arrays usable [2; 13 R395; fused] -/
  balGrams : List Bool
  /-- CRW_BAL_LEFT.LANES: ballast lanes free, north to west [4; 13 R395; fused] -/
  balLanes : List Bool
  /-- CRW_BAL_LEFT.BANKS [2; 13 R395; fused] -/
  balBanks : Nat
  /-- CRW_BAL_LEFT.CORE [1; 13 R395; fused] -/
  balCore : Bool
  /-- healthy units rotated into ballast: (KIND, physical site, scope) [13 R392; none] -/
  rotated : List (Nat × Nat × Nat)
  /-- requested rotations: (KIND, service number, step index) [13 R392; none] -/
  rotReq : List (Nat × Nat × Nat)
  /-- CRW_BIST_STATE.STATE: a test runs [2; 13 R395; 0b00] -/
  bistRun : Bool
  /-- CRW_BIST_STATE.RESULT [3; 13 R395; 0b000] -/
  bistResult : Nat
  /-- CRW_BIST_STATE.SITE [16; 13 R395; 0x0000] -/
  bistSite : Nat
  /-- the slice under test and the BIST_RUN command that waits: (slice, ring, TAG) [13 R392; none] -/
  bistCmd : Option (Nat × Nat × Nat)
  /-- the last 256 repair reports, oldest first [256 x 512; 13 R394; none] -/
  repairs : List Repair
  /-- the control cores in service: power state of each of cores 0 to 3 [13 R399, 15 R439; clock-gated, DC 4] -/
  cores : List CorePower
  /-- physical site of each unit that ballast has replaced: (KIND of R394, service number, site) [-; 00 R20, 13 R394; none] -/
  sites : List (Nat × Nat × Nat)
  /-- SRAM banks that are absent [48; 13 R398; none] -/
  bankAbsent : List Nat
  /-- SRAM banks being migrated to a spare, each with the fault sequence number of its cause [-; 13 R398, 00 R24; none] -/
  migrating : List (Nat × Nat)
  /-- HBM stacks out of service [8; 08 R253; none] -/
  stackAbsent : List Nat
  /-- failed pseudo-channels, remapped: (stack, pseudo-channel) [08 R253; none] -/
  pcFailed : List (Nat × Nat)
  /-- reserve lines used in each pseudo-channel, 32 to a stack [256 x 17; 08 R252; 0] -/
  reserveUsed : List Nat
  /-- control cores whose bucket overflowed: (core, watch time of its last overflow) [13 R386; none] -/
  coreOvf : List (Nat × Nat)
deriving DecidableEq, Repr

/-! ## Memory tiers -/

/-- State of a bay (08 R257). -/
inductive BayState where
  | empty | training | online | draining | gone
deriving DecidableEq, Repr

/-- One gondola bay (08 R255 to R260, R269). -/
structure Bay where
  /-- CRW_GON_BAY.STATE [3; 08 R269; EMPTY] -/
  state : BayState
  /-- CRW_GON_BAY.REST_PEND: the device latched behind a removal [1; 08 R269; 0] -/
  restPend : Option CxlDev
  /-- REST_PEND still shown while the latched device trains [1; 08 R259; 0] -/
  restShow : Bool
  /-- CRW_GON_BAY.SWITCHED [1; 08 R269; 0] -/
  switched : Bool
  /-- CRW_GON_BAY.LINK_W [5; 08 R269; 0] -/
  linkW : Nat
  /-- CRW_GON_BAY.GEN [3; 08 R269; 0] -/
  gen : Nat
  /-- the device's capacity in units of 256 MiB, before the window's limit [08 R255; 0] -/
  devCap : Nat
  /-- CRW_GON_BAY.CAP [14; 08 R269; 0] -/
  cap : Nat
  /-- consecutive read timeouts [08 R260; 0] -/
  tmo : Nat
  /-- the GON_REMOVE command that waits for EMPTY: (ring, TAG) [14 R421; none] -/
  rmCmd : Option (Nat × Nat)
deriving DecidableEq, Repr

/-- The gondola tier and the memory counters (08 R269). -/
structure Gon where
  /-- bays 0 to 3 [08 R255; EMPTY] -/
  bays : List Bay
  /-- the interleave set: its member bays in ascending order and C in bytes [08 R256; none] -/
  il : Option (List Nat × Nat)
  /-- CRW_GON_TMO [32; 08 R269; 0] -/
  tmo : Nat
  /-- CRW_GON_BADRSP [32; 08 R269; 0] -/
  badRsp : Nat
  /-- CRW_GON_HOTPLUG [32; 08 R269; 0] -/
  hotplug : Nat
  /-- CRW_LEDGER_HOLD [32; 08 R269; 0] -/
  ledgerHold : Nat
  /-- CRW_LEDGER_RESTART [32; 08 R269; 0] -/
  ledgerRestart : Nat
  /-- CRW_HBM_REMAP [32; 08 R269; 0] -/
  hbmRemap : Nat
deriving DecidableEq, Repr

/-! ## Weights and keys -/

/-- State of a weight slot (12 R361). -/
inductive SlotState where
  | empty | loading | ready | current | retiring
deriving DecidableEq, Repr

/-- One weight slot (12 R361, R379). -/
structure WSlot where
  /-- STATE [3; 12 R379; EMPTY] -/
  state : SlotState
  /-- PRIV of the loaded manifest [1; 12 R379; 0] -/
  priv : Bool
  /-- RESULT of the last session [4; 12 R379; 0] -/
  result : Nat
  /-- BAD: the shards marked BAD [12; 12 R379; none] -/
  bad : List Nat
  /-- MODEL_ID of the loaded manifest [64; 12 R362; 0] -/
  modelId : W64
  /-- BASE_REF of the loaded manifest [64; 12 R362; 0] -/
  baseRef : W64
  /-- VERSION of the loaded manifest [32; 12 R362; 0] -/
  version : W32
  /-- PLAN_BIND [64; 12 R365; 0] -/
  planBind : W64
  /-- CRC_BIND [64; 12 R365; 0] -/
  crcBind : W64
  /-- shard table of the loaded manifest [12 R362; none] -/
  shards : List Shard
  /-- its lines are being overwritten with zeros before it becomes EMPTY [1; 12 R377; false] -/
  zeroing : Bool
deriving DecidableEq, Repr

/-- A weight session (12 R364 to R370). -/
structure Session where
  /-- it is open [1; 12 R364; false] -/
  isOpen : Bool
  /-- adapter view [1; 14 R421 WGT_OPEN; 0] -/
  adapter : Bool
  /-- slot [2; 14 R421 WGT_OPEN; 0] -/
  slot : Nat
  /-- REPAIR flag [1; 12 R373; 0] -/
  repair : Bool
  /-- host route [1; 12 R368; 0] -/
  hostRoute : Bool
  /-- the session's X25519 public key while its private key exists [256; 12 R364; none] -/
  pub : Option (BitVec 256)
  /-- the key store holds its CEK [1; 12 R367; false] -/
  cek : Bool
  /-- the manifest in force [12 R362; none] -/
  man : Option ManifestIn
  /-- key record in force [12 R364; none] -/
  key : Option KeyIn
  /-- the WGT_KEY command that streams: (ring, TAG) [14 R421; none] -/
  cmd : Option (Nat × Nat)
  /-- chunks still wanted: (shard, chunk) in order [12 R366; none] -/
  want : List (Nat × Nat)
  /-- tag failures of the chunk at the front of `want` [12 R369; 0] -/
  tagTries : Nat
  /-- fetch attempts reissued for the chunk at the front [12 R369; 0] -/
  fetchTries : Nat
  /-- shards refetched once after a digest failure [12 R369; none] -/
  digTries : List Nat
  /-- chunk tag failures on the host route: (shard, chunk, failures) [12 R370; none] -/
  hostFails : List (Nat × Nat × Nat)
  /-- a write into its window while it was not open on the host route has been reported [1; 14 R424; false] -/
  noted : Bool
  /-- bytes written into its shroud window [128 MiB; 14 R424; none] -/
  win : Mem
  /-- gateway node, object handle and preferred far port of WGT_KEY [24 + 32 + 1; 14 R421; 0] -/
  gateway : Nat × Nat × Nat
deriving DecidableEq, Repr

/-- Weights, epochs and the key store (12 R361 to R379). -/
structure Wgt where
  /-- base slots 0 to 3 [12 R379; EMPTY] -/
  base : List WSlot
  /-- adapter slots 0 to 3 [12 R379; EMPTY] -/
  adapter : List WSlot
  /-- CRW_WGT_EPOCH.EPOCH [16; 12 R379; 0] -/
  epoch : Nat
  /-- CRW_WGT_EPOCH.B_CUR, A_CUR; none: NONE reads 1 [12 R379; none] -/
  cur : Option (Nat × Nat)
  /-- the pending switch: base slot, adapter slot, S [12 R374; none] -/
  pend : Option (Nat × Nat × Nat)
  /-- sessions 0 to 3 [12 R367; closed] -/
  sessions : List Session
  /-- CRW_WGT_CHUNKS [32; 12 R379; 0] -/
  chunks : Nat
  /-- CRW_WGT_TAGFAIL [32; 12 R379; 0] -/
  tagFail : Nat
  /-- CRW_WGT_DIGFAIL [32; 12 R379; 0] -/
  digFail : Nat
  /-- CRW_WGT_SCRUBFAIL [32; 12 R379; 0] -/
  scrubFail : Nat
  /-- CRW_WGT_REFETCH [32; 12 R379; 0] -/
  refetch : Nat
  /-- CRW_WGT_SWITCH [32; 12 R379; 0] -/
  switches : Nat
  /-- CRW_WGT_SEALRD [32; 12 R379; 0] -/
  sealRd : Nat
  /-- digest period in seconds [17; 12 R371; 3600] -/
  period : Nat
  /-- geometry of the weight views of the last plan in force: B_SLOT0, B_LEN, B_NSLOT, A_SLOT0, A_LEN, A_NSLOT [12 R377; none] -/
  geom : Option (Nat × Nat × Nat × Nat × Nat × Nat)
  /-- traced copies of the admitted plan: (base, bytes) [12 R360; none] -/
  traced : List (Nat × Nat)
  /-- ranges of non-empty slots that the watch domain records [12 R377; none] -/
  recorded : List (Nat × Nat)
  /-- ranges the boot chain has yet to overwrite with zeros [12 R377; none] -/
  bootZero : List (Nat × Nat)
  /-- slots bound to carried slots of an earlier step: (adapter, slot, SEQ) [12 R375; none] -/
  bound : List (Bool × Nat × Nat)
  /-- publisher keys of slots 0 to 7 [8 x 256; 12 R363; none enrolled, DC 3] -/
  pubKeys : List (Option (BitVec 256))
deriving DecidableEq, Repr

/-! ## Plans -/

/-- A slot record (07 R224). -/
structure Slot where
  /-- SEQ [30; 07 R224] -/
  seq : Nat
  /-- STREAM [9; 07 R224] -/
  stream : Nat
  /-- KIND [4; 07 R224] -/
  kind : Nat
  /-- CTX [3; 07 R224] -/
  ctx : Nat
  /-- CARRY [1; 07 R224] -/
  carry : Bool
  /-- WAIT_A [32; 07 R224, R225] -/
  waitA : Nat
  /-- WAIT_B [32; 07 R224, R225] -/
  waitB : Nat
  /-- PAYLOAD, offset in the image [48; 07 R224] -/
  payload : Nat
  /-- ARG [32; 07 R224] -/
  arg : Nat
  /-- ARB [16; 07 R224] -/
  arb : Nat
deriving DecidableEq, Repr

/-- A placement entry (08 R246). -/
structure Place where
  /-- TIER [4; 08 R246] -/
  tier : Nat
  /-- USE [4; 08 R246] -/
  use : Nat
  /-- BASE [48; 08 R246] -/
  base : Nat
  /-- LENGTH [48; 08 R246] -/
  len : Nat
deriving DecidableEq, Repr

/-- A bridle entry (09 R280). -/
structure Hop where
  /-- KIND [2; 09 R280] -/
  kind : Nat
  /-- NODE [24; 09 R280] -/
  node : Nat
  /-- FAR_SEL [1; 09 R280] -/
  farSel : Nat
deriving DecidableEq, Repr

/-- An arbitration entry (07 R228): its resource and its requesters as STREAM and CTX pairs. -/
structure Arb where
  /-- RES_KIND [4; 07 R228] -/
  kind : Nat
  /-- RES [16; 07 R228] -/
  res : Nat
  /-- ORDERED [1; 07 R228] -/
  ordered : Bool
  /-- requester list [n x 16; 07 R228] -/
  reqs : List (Nat × Nat)
deriving DecidableEq, Repr

/-- A contingency entry (07 R238). -/
structure Cont where
  /-- EVENT [4; 07 R238] -/
  event : Nat
  /-- TARGET [16; 07 R238] -/
  target : Nat
  /-- VARIANT [16; 07 R238] -/
  variant : Nat
  /-- PERM [48; 07 R238] -/
  perm : Nat
  /-- PERM_N [32; 07 R238] -/
  permN : Nat
deriving DecidableEq, Repr

/-- A tack table entry (11 R335). -/
structure TackEnt where
  /-- SHARD_ID [16; 11 R335] -/
  shard : Nat
  /-- CLASS [2; 11 R335] -/
  cls : Nat
  /-- KIND [3; 11 R335] -/
  kind : Nat
  /-- WRITER [16; 11 R335] -/
  writer : Nat
  /-- BASE_A [48; 11 R335] -/
  baseA : Nat
  /-- BASE_B [48; 11 R335] -/
  baseB : Nat
  /-- LENGTH [48; 11 R335] -/
  len : Nat
deriving DecidableEq, Repr

/-- A ledger record (08 R261). -/
structure Ledger where
  /-- LEDGER [48; 08 R261] -/
  ledger : Nat
  /-- GON_A [48; 08 R261] -/
  gonA : Nat
  /-- GON_B [48; 08 R261] -/
  gonB : Nat
  /-- W_A [48; 08 R261] -/
  wA : Nat
  /-- W_B [48; 08 R261] -/
  wB : Nat
  /-- STATUS [48; 08 R261] -/
  status : Nat
  /-- SLOT_BYTES [40; 08 R261] -/
  slotBytes : Nat
  /-- PIECE_BYTES [32; 08 R261] -/
  pieceBytes : Nat
  /-- N_PIECE_M1 plus 1 [20; 08 R261] -/
  nPiece : Nat
  /-- SHARD_ID [16; 08 R261] -/
  shard : Nat
  /-- L, LAG_M1 plus 1 [3; 08 R261] -/
  lag : Nat
  /-- G_FMT [4; 08 R261] -/
  gFmt : Nat
deriving DecidableEq, Repr

/-- A limit entry (10 R311). -/
structure Limit where
  /-- TENSOR_ID [16; 10 R311] -/
  tensor : Nat
  /-- AMAX_ADDR [48; 10 R311] -/
  amaxAddr : Nat
  /-- FLAG_ADDR [48; 10 R311] -/
  flagAddr : Nat
  /-- AMAX_LIM [32; 10 R311] -/
  lim : W32
  /-- FMASK [10; 10 R311] -/
  fmask : Nat
deriving DecidableEq, Repr

/-- A digest entry (10 R325). -/
structure DigestEnt where
  /-- BASE_A [48; 10 R325] -/
  baseA : Nat
  /-- BASE_B [48; 10 R325] -/
  baseB : Nat
  /-- LENGTH [48; 10 R325] -/
  len : Nat
deriving DecidableEq, Repr

/-- The header of a plan set (07 R221). -/
structure PlanHdr where
  /-- CRC [64; 07 R221] -/
  crc : Nat
  /-- PLAN_ID [64; 07 R221] -/
  planId : Nat
  /-- JOB_SEED [64; 07 R221] -/
  seed : Nat
  /-- MAGIC [32; 07 R221] -/
  magic : Nat
  /-- CONTRACT [8; 07 R221] -/
  contract : Nat
  /-- FORMAT [8; 07 R221] -/
  format : Nat
  /-- N_VAR [16; 07 R221] -/
  nVar : Nat
  /-- N_ARR [16; 07 R221] -/
  nArr : Nat
  /-- N_SG [8; 07 R221] -/
  nSg : Nat
  /-- N_GRAM [8; 07 R221] -/
  nGram : Nat
  /-- N_VU [8; 07 R221] -/
  nVu : Nat
  /-- N_CTX [8; 07 R221] -/
  nCtx : Nat
  /-- N_BANK [8; 07 R221] -/
  nBank : Nat
  /-- N_TP [8; 07 R221] -/
  nTp : Nat
  /-- HBM_BYTES [48; 07 R221] -/
  hbm : Nat
  /-- GON_BYTES [48; 07 R221] -/
  gon : Nat
  /-- SRAM_BYTES [32; 07 R221] -/
  sram : Nat
  /-- STEP_PERIOD [32; 07 R221] -/
  period : Nat
  /-- SLIP_LIM [32; 07 R221] -/
  slipLim : Nat
  /-- STEP_TO [32; 07 R221] -/
  stepTo : Nat
  /-- N_RANK [32; 07 R221] -/
  nRank : Nat
  /-- whether the reserved bits are zero [07 R221] -/
  resvZero : Bool
deriving DecidableEq, Repr

/-- The verdict record (10 R315). -/
structure VerdictRec where
  /-- AREA [48; 10 R315] -/
  area : Nat
  /-- VOTE_TALLY [12; 10 R315] -/
  voteT : Nat
  /-- SEAL_TALLY [12; 10 R315] -/
  sealT : Nat
  /-- REC_TALLY [12; 10 R315] -/
  recT : Nat
  /-- VOTE_GRACE [32; 10 R315] -/
  grace : Nat
  /-- SEAL_TO [32; 10 R315] -/
  sealTo : Nat
  /-- DGROUP [16; 10 R315] -/
  dgroup : Nat
deriving DecidableEq, Repr

/-- The tack record (11 R334). -/
structure TackRec where
  /-- TGT [3; 11 R334] -/
  tgt : Nat
  /-- BUDDY [16; 11 R334] -/
  buddy : Nat
  /-- MIN_RANKS [16; 11 R334] -/
  minRanks : Nat
  /-- I_MIN [16; 11 R334] -/
  iMin : Nat
  /-- I_MAX [16; 11 R334] -/
  iMax : Nat
  /-- I_INIT [16; 11 R334] -/
  iInit : Nat
  /-- M0 [32; 11 R334] -/
  m0 : Nat
  /-- K0 [8; 11 R334] -/
  k0 : Nat
  /-- GON_BASE [48; 11 R334] -/
  gonBase : Nat
  /-- BUDDY_BASE [48; 11 R334] -/
  buddyBase : Nat
  /-- IN_BASE [48; 11 R334] -/
  inBase : Nat
  /-- SLOT_BYTES [48; 11 R334] -/
  slotBytes : Nat
  /-- SNAP_AREA [48; 11 R334] -/
  area : Nat
  /-- WARD [16; 11 R334] -/
  ward : Nat
  /-- STAGE [48; 11 R334] -/
  stage : Nat
  /-- RVAR [16; 11 R334] -/
  rvar : Nat
deriving DecidableEq, Repr

/-- The weight-view record (12 R359). -/
structure ViewRec where
  /-- B_SLOT0 [48; 12 R359] -/
  bSlot0 : Nat
  /-- B_LEN [48; 12 R359] -/
  bLen : Nat
  /-- base slots that B_NSLOT gives: 0, 2, 3 or 4 [2; 12 R359] -/
  bN : Nat
  /-- A_SLOT0 [48; 12 R359] -/
  aSlot0 : Nat
  /-- A_LEN [48; 12 R359] -/
  aLen : Nat
  /-- adapter slots that A_NSLOT gives [2; 12 R359] -/
  aN : Nat
deriving DecidableEq, Repr

/-- A plan or variant as firmware reads it from its image (07 R221 to R240). -/
structure PlanBody where
  /-- 0 the primary, else the variant's number [16; 07 R240] -/
  variant : Nat
  /-- slot records in ascending SEQ [07 R224] -/
  slots : List Slot
  /-- context entries as (EN, KIND) [8 x 64; 07 R223] -/
  ctxs : List (Bool × Nat)
  /-- placement map [07 R222, 08 R246] -/
  places : List Place
  /-- arbitration table [07 R228] -/
  arbs : List Arb
  /-- bridle N_RANK [16; 09 R280] -/
  nRank : Nat
  /-- bridle SELF [16; 09 R280] -/
  self : Nat
  /-- bridle LEPOCH [16; 09 R280] -/
  lepoch : Nat
  /-- bridle JOB_TAG [32; 09 R280] -/
  job : Nat
  /-- bridle SELF_NODE [24; 09 R280] -/
  selfNode : Nat
  /-- bridle entries by rank [09 R280] -/
  hops : List Hop
  /-- contingency table [07 R238] -/
  conts : List Cont
  /-- verdict record [512; 10 R315] -/
  verdict : VerdictRec
  /-- limit table [10 R311] -/
  limits : List Limit
  /-- digest table [10 R325] -/
  digests : List DigestEnt
  /-- tack record [512; 11 R334] -/
  tack : TackRec
  /-- tack table [11 R335] -/
  tacks : List TackEnt
  /-- ledger records [08 R261] -/
  ledgers : List Ledger
  /-- weight-view record [512; 12 R359] -/
  view : ViewRec
deriving DecidableEq, Repr

/-- Where a step stands (07 R231, 10 R318). -/
inductive StepPhase where
  /-- no step has started, or the last one's flip or skip is complete -/
  | between
  /-- the step is committed and its flip complete; slots after its verdict point may still run -/
  | committed
  /-- slots issue -/
  | running
  /-- the verdict point is reached -/
  | atVerdict
  /-- the vote is cast -/
  | voted
  /-- D is formed and the seal sent -/
  | sealed
  /-- in reconcile -/
  | reconcile
  /-- a chip-loss variant runs and its permuting collective is not complete -/
  | permuting
deriving DecidableEq, Repr

/-- A CARRY slot of an earlier step start that has not completed (07 R234). -/
structure Carried where
  /-- step-start count of its step [07 R232, R234] -/
  start : Nat
  /-- image address of its plan set, which a replacement may have changed since [48; 07 R237] -/
  addr : Nat
  /-- watch time of its step's anchor, from which its watch-time waits count [64; 07 R225] -/
  anchor : Nat
  /-- it has issued [07 R226] -/
  issued : Bool
  /-- its record; a wait that was met when its step ended is none [256; 07 R224, R225] -/
  slot : Slot
deriving DecidableEq, Repr

/-- The admitted plan set and its run (07 R231 to R241). -/
structure Run where
  /-- image address in HBM [48; 14 R421 PLAN_ADMIT] -/
  addr : Nat
  /-- header of the plan set [1024; 07 R221] -/
  hdr : PlanHdr
  /-- the running plan or variant [07 R240] -/
  body : PlanBody
  /-- T0 [64; 07 R231] -/
  t0 : Nat
  /-- step starts since admission or replacement: the next anchor's j [07 R231] -/
  j : Nat
  /-- step-start count of the current or last step start [07 R232] -/
  start : Nat
  /-- a step start has happened since admission [07 R232] -/
  begun : Bool
  /-- the admission barrier is complete [07 R232] -/
  barrier : Bool
  /-- the barrier's NOTE has been reported [07 R232] -/
  barrierNote : Bool
  /-- step index [64; 02 R63, 07 R231] -/
  step : Nat
  /-- skipped attempts of this step index [32; 10 R320] -/
  attempt : Nat
  /-- watch time of the current step start [64; 07 R231] -/
  startTime : Nat
  /-- where the step stands [07 R231] -/
  phase : StepPhase
  /-- SEQs issued in this step start [07 R226] -/
  issued : List Nat
  /-- SEQs that have waited on a group start in this step start [15 R437] -/
  waited : List Nat
  /-- SEQs completed in this step start [07 R225] -/
  done : List Nat
  /-- carried slots of earlier starts not yet complete, oldest first [07 R234] -/
  carried : List Carried
  /-- contained data errors of this attempt, as cause codes [10 R313] -/
  cde : List Nat
  /-- fault sequence number of each of them, in the same order [00 R24] -/
  cdeSeq : List Nat
  /-- contained data errors met after the vote, with their fault sequence numbers: the next start raises them [07 R234, R241; 10 R313] -/
  cdeNext : List (Nat × Nat)
  /-- SEQs of the sweep slots of the running plan or variant [08 R264, R267] -/
  sweepSlots : List Nat
  /-- the SLIP_LIM NOTE is armed [07 R233] -/
  slipArmed : Bool
  /-- pending contingency variant, none: the plan stops [07 R241, 10 R328] -/
  pendVar : Option Nat
  /-- the contingency entry that the pending or running variant answers [07 R241; none] -/
  ent : Option Cont
  /-- selectors of the layout that a chip-loss or permuting variant replaced [1 each; 09 R294, 11 R338; none] -/
  prevSel : List Bool
  /-- SIGNALs that the permuting collective owes once its PUTs have completed: (destination rank, INC) [09 R294; none] -/
  permSig : List (Nat × Nat)
  /-- an event after the vote belongs to the next start: (EVENT, TARGET, fault sequence number) [07 R241; 00 R24] -/
  lateEvent : Option (Nat × Nat × Nat)
  /-- variant applied whose first commit has not come [11 R357] -/
  fresh : Bool
  /-- rank lost to the chip loss being recovered [16; 10 R324] -/
  lost : Option Nat
  /-- the weight epoch that this attempt reads: base slot, adapter slot [12 R375] -/
  wgt : Option (Nat × Nat)
  /-- a CURRENT or SOURCE tack copy is lost, with the fault's sequence number: the plan stops after the skip [-; 11 R341, 00 R24; none] -/
  tackLost : Option Nat
  /-- the job's start in watch time, for RUN_S [64; 11 R347] -/
  jobStart : Nat
  /-- the plan or variant whose layout a chip-loss variant replaced [11 R355; none] -/
  prev : Option PlanBody
  /-- s of R355: the step index the permuting collective rewinds to [64; 11 R355, R356; none] -/
  rewind : Option Nat
  /-- the variant RVAR of a restore runs until its first commit [11 R334, R351; false] -/
  rvar : Bool
deriving DecidableEq, Repr

/-- A requested replacement, stop or admission (07 R237). -/
inductive PlanReq where
  /-- replace by the image at `addr` from step S -/
  | replace (addr : Nat) (step : Nat)
  /-- stop at step S -/
  | stop (step : Nat)
deriving DecidableEq, Repr

/-- Plan registers and requests (07 R242). -/
structure Plan where
  /-- the admitted plan; none: VARIANT 0xFFFF, ADMITTED 0 [07 R242; none] -/
  run : Option Run
  /-- pending replacement or stop [07 R237; none] -/
  req : Option PlanReq
  /-- admission latched behind a completing stop: ring, TAG, image address [07 R237; none] -/
  latched : Option (Nat × Nat × Nat)
  /-- a stop waits for the zeroing of the traced copies [12 R377; false] -/
  stopping : Bool
  /-- CRW_PLAN_SLIP [32; 07 R242; 0] -/
  slip : Nat
  /-- CRW_PLAN_MAXSLIP [32; 07 R242; 0] -/
  maxSlip : Nat
  /-- CRW_PLAN_LATE [32; 07 R242; 0] -/
  late : Nat
  /-- CRW_PLAN_DROP [32; 07 R242; 0] -/
  drop : Nat
  /-- CRW_PLAN_CONT [32; 07 R242; 0] -/
  cont : Nat
  /-- CRW_PLAN_REPL [32; 07 R242; 0] -/
  repl : Nat
  /-- host-written permutation entries reported [32; 14 R421 PERM_HOST_DONE; 0] -/
  permHost : Nat
deriving DecidableEq, Repr

/-! ## Tethers and tallies -/

/-- State of a tether port (09 R304). -/
inductive PortState where
  | off | training | up | swapping | down
deriving DecidableEq, Repr

/-- One tether port (09 R304). -/
structure Port where
  /-- DIR in force [3; 09 R304; 0b110] -/
  dir : Nat
  /-- STATE [3; 09 R304; OFF] -/
  state : PortState
  /-- RATE trained [2; 09 R304; 0] -/
  rate : Nat
  /-- BALLAST [1; 09 R304; 0] -/
  ballast : Bool
  /-- LANES [4; 09 R304; 0] -/
  lanes : BitVec 4
  /-- PVALID, PX and PY [1 + 12; 09 R304; 0] -/
  partner : Option (Nat × Nat)
deriving DecidableEq, Repr

/-- A message the device has put on a port: header and payload (09 R285). -/
structure Msg where
  /-- the port it leaves by [4; 09 R281] -/
  port : Nat
  /-- its header [512; 09 R285] -/
  hdr : WireHdr
  /-- its payload [09 R285] -/
  data : List Byte
deriving DecidableEq, Repr

/-- A request of this chip that has not completed (09 R290). -/
structure Pend where
  /-- TAG [16; 09 R285] -/
  tag : Nat
  /-- egress stream 240 to 255, or 265 for the masthead's own [9; 09 R281, R290] -/
  stream : Nat
  /-- the slot it belongs to, with its step start [09 R290] -/
  slot : Option (Nat × Nat)
  /-- its header [512; 09 R285] -/
  hdr : WireHdr
  /-- LOCAL [48; 09 R283] -/
  loc : Nat
  /-- CTALLY when CT_EN is 1, with the step start in which its slot issued [12; 09 R283, R287] -/
  ct : Option (Nat × Nat)
  /-- a drain PUT of the snapshot [1; 11 R344] -/
  drain : Bool
deriving DecidableEq, Repr

/-- Tethers and tallies (09 R287, R290, R304). -/
structure Tth where
  /-- CRW_TTH_SELF [24; 09 R304; 0] -/
  self : Nat
  /-- ports TP0 to TP15 [16 x 32; 09 R304; OFF] -/
  ports : List Port
  /-- CRW_TTH_RETRY [32; 09 R304; 0] -/
  retry : Nat
  /-- CRW_TTH_LSWAP [32; 09 R304; 0] -/
  lswap : Nat
  /-- CRW_TTH_ESCAPE [32; 09 R304; 0] -/
  escape : Nat
  /-- CRW_TTH_REJ_EPOCH [32; 09 R304; 0] -/
  rejEpoch : Nat
  /-- CRW_TTH_REJ_WINDOW [32; 09 R304; 0] -/
  rejWindow : Nat
  /-- CRW_TTH_REJ_OTHER [32; 09 R304; 0] -/
  rejOther : Nat
  /-- CRW_TTH_TMO [32; 09 R304; 0] -/
  tmo : Nat
  /-- CRW_TTH_TSAT [32; 09 R304; 0] -/
  tsat : Nat
  /-- CRW_TTH_ACCFLAG [8; 09 R304; 0] -/
  accFlag : BitVec 8
  /-- tallies' current window [4096 x 18; 09 R287; 0] -/
  cur : Sparse 18
  /-- tallies' next window [4096 x 18; 09 R287; 0] -/
  nxt : Sparse 18
  /-- pending-epoch increments of the current window [4096 x 18; 10 R476; 0] -/
  curP : Sparse 18
  /-- pending-epoch increments of the next window [4096 x 18; 10 R476; 0] -/
  nxtP : Sparse 18
  /-- requests not completed, oldest first [09 R290; none] -/
  pend : List Pend
  /-- TAG of the next request [16; 09 R285; 0, DC 5] -/
  tag : Nat
  /-- messages put on the ports, oldest first [09 R285; none] -/
  out : List Msg
  /-- the port at which the rotating token of inbound requests stands [4; 07 R229; 0, DC 5] -/
  token : Nat
  /-- directions whose partner has been told over link control that the ballast lane is bad [4; 09 R296; none] -/
  notices : List Nat
deriving DecidableEq, Repr

/-! ## Verdict, tacks and snapshots -/

/-- The verdict's registers and working state (10 R318 to R327, R333). -/
structure Vrd where
  /-- CRW_VRD_LAST.DECISION [2; 10 R333; 0b00] -/
  lastDec : Nat
  /-- CRW_VRD_LAST.CAUSE [4; 10 R333; 0x0] -/
  lastCause : Nat
  /-- CRW_VRD_LAST.CAUSE_RANK [16; 10 R333; 0xFFFF] -/
  lastRank : Nat
  /-- CRW_VRD_EPOCH.CURRENT [16; 10 R333; 0x0000] -/
  epoch : Nat
  /-- CRW_VRD_EPOCH.PENDING [16; 10 R333; 0xFFFF] -/
  pending : Nat
  /-- CRW_VRD_COMMIT [32; 10 R333; 0] -/
  commits : Nat
  /-- CRW_VRD_SKIP [32; 10 R333; 0] -/
  skips : Nat
  /-- CRW_VRD_MISSING [32; 10 R333; 0] -/
  missing : Nat
  /-- CRW_VRD_RECON [32; 10 R333; 0] -/
  recon : Nat
  /-- CRW_VRD_DIGEST [32; 10 R333; 0] -/
  digest : Nat
  /-- CRW_VRD_BADREC [32; 10 R333; 0] -/
  badRec : Nat
  /-- CRW_VRD_TIME [32; 10 R333; 0] -/
  time : Nat
  /-- watch time of the last verdict point [64; 10 R333; 0] -/
  vpTime : Nat
  /-- this chip's own vote record of the attempt [1024; 10 R316; none] -/
  vote : Option (List Byte)
  /-- D: COMMIT or SKIP, cause and cause rank [10 R318; none] -/
  d : Option (Bool × Nat × Nat)
  /-- watch time at which the seal or the reconcile record was sent [64; 10 R318, R323; 0] -/
  sentTime : Nat
  /-- the step's DCRC so far [64; 10 R325; 0] -/
  dcrc : W64
  /-- SHA_SEQ and SHA of the last snapshot [64 + 512; 10 R326; none] -/
  sha : Option (Nat × BitVec 512)
  /-- step index whose last attempt was a DIGEST skip [10 R327; none] -/
  digestStep : Option Nat
  /-- consecutive attempts skipped with cause STEP [10 R322; 0] -/
  stepRuns : Nat
  /-- consecutive attempts in which this chip's votes were rejected with WINDOW [07 R232; 0] -/
  winRuns : Nat
  /-- a vote of this attempt was rejected with WINDOW [07 R232; false] -/
  winNow : Bool
  /-- SUSPECT of the reconcile in progress [16; 10 R323; none] -/
  suspect : Option Nat
  /-- the attempt the reconcile concerns, by step-start count, and whether this chip found it final: 0b11 or 0b100 [10 R323; none] -/
  recAttempt : Option (Nat × Option Bool)
  /-- last final decision, for a reconcile record of the previous step: step-start count, COMMIT [10 R323; none] -/
  final : Option (Nat × Bool)
  /-- records that peers have put into the verdict area: (0 vote, 1 seal or 2 reconcile record; rank; START of the PUT) [10 R316, R317; none] -/
  got : List (Nat × Nat × Nat)
deriving DecidableEq, Repr

/-- State of one copy of a tacked range (11 R339). -/
inductive CopyState where
  | off | written | current | source | held
deriving DecidableEq, Repr

/-- The tack unit (11 R338, R339). -/
structure Tack where
  /-- selector of each tack entry: true, tack B is current; for a LAGGED entry the current copy of its ledger status [1 each; 11 R338, 08 R266; none] -/
  sel : List Bool
  /-- states of the two copies of each entry [11 R339; none] -/
  copies : List (CopyState × CopyState)
  /-- SEQs of slots that wait on a HELD copy [11 R340; none] -/
  waits : List Nat
  /-- chip commits since admission, the c of R262 [08 R262; 0] -/
  commits : Nat
  /-- sweeps not flipped: (SHARD_ID, gradient step, state): 0 running, 1 complete, 2 complete at the vote of this attempt [08 R264, R266; none] -/
  sweeps : List (Nat × Nat × Nat)
  /-- shards whose sweep data met an uncorrectable error since the last skip [08 R268; none] -/
  bad : List Nat
  /-- what the unflipped sweep of a shard has written so far: (SHARD_ID, its ranges by tack A address) [08 R262, R264; none] -/
  swept : List (Nat × List (Nat × Nat))
deriving DecidableEq, Repr

/-- A snapshot being copied (11 R342 to R345). -/
structure Drain where
  /-- DATA_STEP [64; 11 R342] -/
  step : Nat
  /-- the target slot it is written into, k mod 2 [1; 11 R343] -/
  slot : Nat
  /-- targets complete, bit i for target i of TGT [3; 11 R358] -/
  ok : Nat
  /-- targets abandoned [3; 11 R345] -/
  aborted : Nat
  /-- its items: TYPE, ID, INDEX, device address and length [11 R342, R343] -/
  items : List (Nat × Nat × Nat × Nat × Nat)
  /-- bytes of the slot up to the end of the last item [48; 11 R343] -/
  used : Nat
  /-- the slot's bytes by offset, as the copies hold them from the flip on [11 R339, R343] -/
  image : Mem
  /-- bytes that drain slots have copied to the gondola target [48; 11 R344; 0] -/
  sentG : Nat
  /-- bytes that drain slots have sent to the buddy [48; 11 R344; 0] -/
  sentB : Nat
  /-- T_ref in watch cycles [11 R347] -/
  tref : Nat
  /-- cost so far in watch cycles [11 R347] -/
  cost : Nat
deriving DecidableEq, Repr

/-- Snapshots (11 R346 to R349, R358). -/
structure Snap where
  /-- the snapshot that is copying; CRW_SNAP_STATE.DRAINING reads whether there is one [11 R358; none] -/
  drain : Option Drain
  /-- CRW_SNAP_STATE.RESTART_PEND [1; 11 R358; 0] -/
  restPend : Bool
  /-- CRW_SNAP_STATE.DISABLED [1; 11 R358; 0] -/
  disabled : Bool
  /-- CRW_SNAP_STATE.INTERVAL [16; 11 R358; 0x0000] -/
  interval : Nat
  /-- CRW_SNAP_LAST; none: all ones [64; 11 R358; all ones] -/
  last : Option Nat
  /-- CRW_SNAP_NEXT; none: all ones [64; 11 R358; all ones] -/
  next : Option Nat
  /-- forced snapshot points, by step index [11 R349; none] -/
  forced : List Nat
  /-- CRW_SNAP_COST [32; 11 R358; 0] -/
  cost : Nat
  /-- the cost C has been measured [11 R347; false] -/
  costKnown : Bool
  /-- CRW_SNAP_MTBF [32; 11 R358; 0] -/
  mtbf : Nat
  /-- CRW_SNAP_DONE [32; 11 R358; 0] -/
  done : Nat
  /-- CRW_SNAP_SKIP [32; 11 R358; 0] -/
  skip : Nat
  /-- CRW_SNAP_ABORT [32; 11 R358; 0] -/
  abort : Nat
  /-- CRW_SNAP_HOLD [32; 11 R358; 0] -/
  hold : Nat
  /-- CRW_SNAP_GENFIX [32; 11 R358; 0] -/
  genFix : Nat
  /-- CRW_SNAP_RESTORE [32; 11 R358; 0] -/
  restore : Nat
  /-- CRW_SNAP_TACKLOSS [32; 11 R358; 0] -/
  tackLoss : Nat
  /-- I_MIN in force [16; 11 R349; 1, DC 5] -/
  iMin : Nat
  /-- I_MAX in force [16; 11 R349; 65,535, DC 5] -/
  iMax : Nat
  /-- K0 in force [8; 11 R349; 0, DC 5] -/
  k0 : Nat
  /-- M0 in force, seconds [32; 11 R349; 0, DC 5] -/
  m0 : Nat
  /-- host snapshot window: host address, length, write rate in GB/s [14 R423; none] -/
  host : Option (Nat × Nat × Nat)
  /-- snapshots taken since admission, the k of R343 [11 R343; 0] -/
  k : Nat
  /-- host slots known complete, by slot: DATA_STEP [11 R355; none] -/
  hostDone : List (Nat × Nat)
  /-- RUN_S before this admission, in seconds [32; 11 R343, R347; 0] -/
  runBase : Nat
  /-- FAILS [16; 11 R347; 0] -/
  fails : Nat
  /-- lengths of the last steps started with no drain active, newest first, at most 8, in watch cycles [11 R347; none] -/
  quietLens : List Nat
  /-- lengths of committed steps since admission or rewind, newest first, at most 64 [11 R347; none] -/
  lens : List Nat
  /-- the current step started while a drain was active [11 R347; false] -/
  drainAtStart : Bool
  /-- REPORT of an abandoned snapshot that waits for the next step boundary: DATA_STEP and cost in watch cycles [11 R347; none] -/
  owed : Option (Nat × Nat)
  /-- records that PUTs have left in the snapshot area: 64-byte slot and START of the PUT [11 R346; none] -/
  got : List (Nat × Nat)
deriving DecidableEq, Repr

/-! ## Main arrays, tile queues and vector units -/

/-- A tap record (05 R156). -/
structure TapRec where
  /-- EN [1; 05 R156] -/
  en : Bool
  /-- D, DIV_M1 plus 1 [7; 05 R156] -/
  div : Nat
  /-- PHASE [6; 05 R156] -/
  phase : Nat
  /-- SUB [4; 05 R156] -/
  sub : Nat
  /-- KIND [2; 05 R156] -/
  kind : Nat
  /-- COL_OFF [13; 05 R156] -/
  colOff : Nat
  /-- ROW_BASE [32; 05 R156] -/
  rowBase : Nat
  /-- PITCH [12; 05 R156] -/
  pitch : Nat
  /-- RING_M1 [12; 05 R156] -/
  ringM1 : Nat
  /-- BASE [40; 05 R156] -/
  base : Nat
deriving DecidableEq, Repr

/-- An array record: operation word, threshold and the addresses whose layout the manual leaves out (03 R91, R98; log
entry 21). -/
structure ArrRec where
  /-- OP [4; 03 R91] -/
  op : Nat
  /-- MODE [2; 03 R91] -/
  mode : Nat
  /-- A_FMT [4; 03 R91] -/
  aFmt : Nat
  /-- W_FMT [4; 03 R91] -/
  wFmt : Nat
  /-- XLOAD [1; 03 R91] -/
  xload : Bool
  /-- PRELOAD [2; 03 R91] -/
  preload : Nat
  /-- DEST [1; 03 R91] -/
  dest : Bool
  /-- K_IMG_M1 plus 1 [8; 03 R91] -/
  kImg : Nat
  /-- N_IMG_M1 plus 1 [8; 03 R91] -/
  nImg : Nat
  /-- PANE_EN [16; 03 R91] -/
  paneEn : Nat
  /-- NCW [16; 03 R91] -/
  ncw : Nat
  /-- threshold word [32; 03 R98] -/
  thresh : W32
  /-- rows of the M-block [9; 03 R88] -/
  rows : Nat
  /-- weight image [48; 03 R91] -/
  wAddr : Nat
  /-- bytes from one weight image row to the next [32; 03 R91] -/
  wPitch : Nat
  /-- BX8 image of the weights [48; 03 R46] -/
  wbxAddr : Nat
  /-- activation rows [48; 03 R91] -/
  aAddr : Nat
  /-- bytes from one activation row to the next [32; 03 R91] -/
  aPitch : Nat
  /-- BX8 image of the activations [48; 03 R46] -/
  abxAddr : Nat
  /-- tile of a carry fill; 0: none [48; 03 R90] -/
  cfill : Nat
  /-- tensor scale of the activations [32; 02 R52] -/
  aScale : W32
  /-- tensor scale of the weights [32; 02 R52] -/
  wScale : W32
  /-- global element index of the first result [48; 02 R62] -/
  gidx : Nat
  /-- elements from one result row to the next [32; 02 R62] -/
  gpitch : Nat
  /-- stochastic-rounding stream number [13; 02 R58] -/
  stream : Nat
  /-- the tensor that the drain produces, for its amax history [27; 02 R49] -/
  amax : AmaxIn
  /-- tap record of the pass [128; 05 R156] -/
  tap : TapRec
deriving DecidableEq, Repr

/-- A weight set in an array, from its issue until its last tile is sealed (03 R79 to R90, R104, R105). -/
structure Pass where
  /-- SEQ of its slot [30; 03 R103] -/
  seq : Nat
  /-- context [3; 03 R103] -/
  ctx : Nat
  /-- its record [03 R91] -/
  record : ArrRec
  /-- it uses weight register 1 [1; 03 R80] -/
  reg1 : Bool
  /-- the spar had streamed rows of an earlier weight set of its group in the same step start [1; 03 R84] -/
  after : Bool
  /-- its load is complete [1; 03 R80] -/
  loaded : Bool
  /-- accumulator words that left the south edge for tiles not yet sealed, by tile, slot row and slot column [64 each; 03 R101] -/
  out : Sparse 64
  /-- tiles sealed [2; 03 R105] -/
  tile : Nat
  /-- the tile under way has its tile-queue entries [1; 03 R104] -/
  claimed : Bool
deriving DecidableEq, Repr

/-- A main array (03 R76, R88). -/
structure MArr where
  /-- weight register 0 of every cell that is not zero [16,384 x 64; 03 R76; 0, DC 4] -/
  w0 : Sparse 64
  /-- weight register 1 [16,384 x 64; 03 R76; 0, DC 4] -/
  w1 : Sparse 64
  /-- weight block exponents of register 0, by segment and column [8 x 128 x 8; 03 R99; 0, DC 4] -/
  bx0 : Sparse 8
  /-- weight block exponents of register 1 [8 x 128 x 8; 03 R99; 0, DC 4] -/
  bx1 : Sparse 8
  /-- register that the next weight set uses [1; 03 R80; 0, DC 4] -/
  next1 : Bool
  /-- carry-store half 0, by row and column [256 x 128 x 64; 03 R88; 0, DC 4] -/
  half0 : Sparse 64
  /-- carry-store half 1 [256 x 128 x 64; 03 R88; 0, DC 4] -/
  half1 : Sparse 64
  /-- the half that was written last is half 1 [1; 03 R88; 0, DC 4] -/
  last1 : Bool
  /-- activation register of every cell that is not zero: the slot of the last row that passed [16,384 x 64; 03 R76, R79; 0, DC 4] -/
  act : Sparse 64
  /-- partial-sum register of every cell that is not zero: the accumulator word of the last row that passed [16,384 x 64; 03 R76, R79; 0, DC 4] -/
  psum : Sparse 64
  /-- weight sets in the array, oldest first [03 R80; none] -/
  passes : List Pass
  /-- lost with no ballast left [1; 03 R111; false] -/
  absent : Bool
  /-- spare carry-store rows used, of 8 [4; 13 R386, R396; 0] -/
  carryRows : Nat
  /-- carry-store rows that had a correction [512; 13 R386; none] -/
  carryHits : List Nat
deriving DecidableEq, Repr

/-- A tile-queue entry with its tag (03 R102, R103). -/
structure QEnt where
  /-- SEQ of the weight set [30, tag bits 16; 03 R103] -/
  seq : Nat
  /-- ARRAY [8; 03 R103] -/
  arr : Nat
  /-- CTX [3; 03 R103] -/
  ctx : Nat
  /-- MODE [2; 03 R103] -/
  mode : Nat
  /-- DST_FMT [4; 03 R103] -/
  fmt : Nat
  /-- WIDE [1; 03 R103] -/
  wide : Bool
  /-- HALF [1; 03 R103] -/
  half : Bool
  /-- ROWS_M1 plus 1 [8; 03 R103] -/
  rows : Nat
  /-- PANE_EN [16; 03 R103] -/
  paneEn : Nat
  /-- tile number within its M-block [1; 03 R105] -/
  tile : Nat
  /-- sealed [1; 03 R105] -/
  isSealed : Bool
  /-- slots by 128 * row + column [16,384 x 32; 03 R102] -/
  data : Sparse 32
deriving DecidableEq, Repr

/-- What a context of a vector unit holds (04 R117, R150). -/
structure VCtx where
  /-- VL, the present vector length [8; 04 R117, R119; 128 after an admission, DC 4] -/
  vl : Nat
  /-- scalar words S0 to S31 [32 x 64; 04 R117, R119; 0] -/
  scal : Sparse 64
  /-- VL and the scalar words as the current vector block found them, for its repetition [8 + 32 x 64; 04 R151; VL 128, zeros; DC 4] -/
  start : Nat × Sparse 64
  /-- the VBLOCK slots issued and not complete: (SEQ, first word, words), oldest first [04 R150, 07 R224; none] -/
  blocks : List (Nat × Nat × Nat)
  /-- instruction position in the current vector block [32; 04 R117; 0] -/
  pos : Nat
  /-- entries that the current block's POPs release at its end [04 R115; 0] -/
  pops : Nat
  /-- pivot substitutions of the current block [04 R141; 0] -/
  pivs : Nat
deriving DecidableEq, Repr

/-- A spar group's tile queue, vector unit and Gram array (04 R112, R117; 05 R161). -/
structure Group where
  /-- held tile-queue entries in claim order, at most 8 [8 x (64 + 524,288); 04 R112; none] -/
  queue : List QEnt
  /-- arrays whose claim waits for a free entry: (SEQ, CTX, array); while there is one the spar stalls [03 R104; none] -/
  waiting : List (Nat × Nat × Nat)
  /-- tile buffers T0 to T5 by 128 * row + column [6 x 16,384 x 32; 04 R117, R119; 0] -/
  bufs : List (Sparse 32)
  /-- contexts 0 to 7 [04 R117] -/
  ctxs : List VCtx
  /-- spare tile-buffer rows used, of 16 [5; 04 R153; 0] -/
  rowsVu : Nat
  /-- spare tile-queue rows used, of 16 [5; 04 R153; 0] -/
  rowsTq : Nat
  /-- Gram accumulator planes 0 and 1, by 64 * row + column [2 x 4,096 x 32; 05 R163; 0, DC 4] -/
  planes : List (Sparse 32)
  /-- the plane that the last Gram record used is plane 1 [1; 05 R163; 0, DC 4] -/
  plane1 : Bool
  /-- the Gram array is lost with no ballast left [1; 05 R166; false] -/
  gramAbsent : Bool
  /-- the spar has streamed rows in this step start [1; 03 R84; false] -/
  streamed : Bool
  /-- rows that passed their test and are being rebuilt: context, KIND of R394 and row [04 R153; none] -/
  mending : List (Nat × Nat × Nat)
deriving DecidableEq, Repr

/-- The numeric flags (02 R70 to R74). -/
structure NFlags where
  /-- plan-visible words that are not zero, by 8 * engine + context [240 x 8 x 16; 02 R71; 0] -/
  plan : Sparse 16
  /-- host-visible words that are not zero, by 8 * engine + context [240 x 8 x 16; 02 R71; 0] -/
  host : Sparse 16
  /-- CRW_NFLAG_CTXn.FIRST_ENG of contexts 0 to 7 [8 x 8; 02 R73; 0xFF] -/
  first : List Nat
  /-- watch cycle in which FIRST_ENG was set, for contexts 0 to 7 [8 x 64; 02 R73; 0] -/
  firstAt : List Nat
deriving DecidableEq, Repr

/-- What the conversion points keep of one tensor in a narrow format: its amax of this attempt, its amax history and its scale (02
R49; log entry 53). -/
structure Narrow where
  /-- the tensor's number [16; 02 R49] -/
  tensor : Nat
  /-- FP8, FP4 or INT8 code of its last conversion [4; 02 R49] -/
  fmt : Nat
  /-- H, entries of the ring [7; 02 R49] -/
  depth : Nat
  /-- margin [3; 02 R49] -/
  margin : Nat
  /-- the plan asks for delayed scaling [1; 02 R49] -/
  delayed : Bool
  /-- largest finite magnitude converted in this attempt, as m * 2^e; none: no finite value was converted [02 R49; none] -/
  now : Option (Nat × Int)
  /-- the amax history, newest first, at most H entries [02 R49; empty] -/
  ring : List (Nat × Int)
  /-- the tensor scale that the next step's conversions apply [32; 02 R49; 1.0 at first use] -/
  scale : W32
deriving DecidableEq, Repr

/-! ## Curvature -/

/-- A root-set record (05 R173). -/
structure RootRec where
  /-- p: 1, 2 or 4 [2; 05 R173] -/
  pow : Nat
  /-- METHOD: Cholesky [1; 05 R173] -/
  chol : Bool
  /-- block size B [3; 05 R173] -/
  blk : Nat
  /-- ITER_M1 plus 1 [6; 05 R173] -/
  iter : Nat
  /-- DIM [15; 05 R173] -/
  dim : Nat
  /-- K [13; 05 R173] -/
  k : Nat
  /-- PHASE [12; 05 R173] -/
  phase : Nat
  /-- W [13; 05 R173] -/
  win : Nat
  /-- LAMBDA_ABS [32; 05 R173] -/
  lamAbs : W32
  /-- LAMBDA_REL [32; 05 R173] -/
  lamRel : W32
  /-- THETA [32; 05 R173] -/
  theta : W32
  /-- STALE_LIM [16; 05 R173] -/
  staleLim : Nat
  /-- SET_ID [16; 05 R173] -/
  id : Nat
  /-- DESC [48; 05 R173] -/
  desc : Nat
deriving DecidableEq, Repr

/-- State of a root buffer (05 R176). -/
inductive RootState where
  | free | writing | ready | current | held
deriving DecidableEq, Repr

/-- A tapped row that has been counted: its group, KIND and ring, its global row, and the slices taken of it so far: feature offset,
sub-stream and source address (05 R157, R159). -/
structure Tapped where
  group : Nat
  kind : Nat
  base : Nat
  row : Nat
  seen : List (Nat × Nat × Nat)
deriving DecidableEq, Repr

/-- A root that passed its check and is not yet CURRENT (05 R180, R185). -/
structure RootReady where
  /-- block [05 R180] -/
  blk : Nat
  /-- buffer [2; 05 R176] -/
  buf : Nat
  /-- SRC_STEP [64; 05 R175] -/
  src : Nat
  /-- RESID [32; 05 R175] -/
  resid : W32
  /-- PIVCNT [32; 05 R175] -/
  pivs : Nat
  /-- written into the off-tack descriptor in this attempt [05 R185] -/
  published : Bool
deriving DecidableEq, Repr

/-- A refresh in progress (05 R184, R188). -/
structure Refresh where
  /-- r [05 R184] -/
  num : Nat
  /-- s_r [05 R184] -/
  start : Nat
  /-- step index of its source copy; none: it waits for FREE buffers [05 R176, R177] -/
  src : Option Nat
  /-- the source copy: each block's factor row by row, the upper triangle mirrored [05 R168, R177] -/
  copy : List (List W32)
  /-- block and buffer of every root it still computes [05 R176] -/
  work : List (Nat × Nat)
  /-- it has been counted late [05 R188] -/
  late : Bool
  /-- the step with index s_r + 2K is reached: it ends at its next boundary [05 R188] -/
  ending : Bool
deriving DecidableEq, Repr

/-- A root set of the running plan (05 R173 to R188). -/
structure RootSet where
  /-- its record [256; 05 R173] -/
  record : RootRec
  /-- states of the three buffers of each block [05 R176; FREE at admission] -/
  bufs : List (List RootState)
  /-- addresses of the three buffers of each block, as its descriptor gave them at admission [48 each; 05 R175] -/
  addrs : List (List Nat)
  /-- roots READY or published [05 R185; none] -/
  ready : List RootReady
  /-- the refresh in progress [05 R184; none] -/
  refresh : Option Refresh
  /-- number of refreshes whose start has come [05 R184, R189; 0] -/
  started : Nat
  /-- the STALE_LIM NOTE has been reported [05 R187; false] -/
  staleNoted : Bool
deriving DecidableEq, Repr

/-- The root service and the curvature counters (05 R190). -/
structure Curv where
  /-- root sets of the running plan, as their ROOT slots name them [05 R173; none] -/
  sets : List RootSet
  /-- CRW_ROOT_PUB [32; 05 R190; 0] -/
  pub : Nat
  /-- CRW_ROOT_LATE [32; 05 R190; 0] -/
  late : Nat
  /-- CRW_ROOT_SKIP [32; 05 R190; 0] -/
  skip : Nat
  /-- CRW_ROOT_ABAND [32; 05 R190; 0] -/
  aband : Nat
  /-- CRW_ROOT_REJ [32; 05 R190; 0] -/
  rej : Nat
  /-- CRW_TAP_ROWS [32; 05 R190; 0] -/
  tapRows : Nat
  /-- rows of the tapped runs of this attempt already counted [05 R159; none] -/
  tapped : List Tapped
  /-- a word of scratch was lost in this attempt: refreshes in progress restart at the skip [05 R189; false] -/
  scratchLost : Bool
  /-- CRW_ROOT_STALE.SET_ID [16; 05 R190; 0xFFFF] -/
  staleSet : Nat
  /-- CRW_ROOT_STALE.MAX_STALE [16; 05 R190; 0] -/
  stale : Nat
  /-- CRW_GRAM_REPLAY [32; 05 R190; 0] -/
  gramReplay : Nat
deriving DecidableEq, Repr

/-! ## The sparse solver -/

/-- A solve record (06 R202). -/
structure SolveRec where
  /-- WORK [48; 06 R202] -/
  work : Nat
  /-- VALUES [48; 06 R202] -/
  values : Nat
  /-- SOLVER_ID [16; 06 R202] -/
  id : Nat
  /-- STRUCT [48; 06 R202] -/
  struct : Nat
  /-- LMIN [32; 06 R202] -/
  lmin : W32
  /-- LMAX [32; 06 R202] -/
  lmax : W32
  /-- PIV_T [64; 06 R202] -/
  pivT : W64
  /-- PERIOD [32; 06 R202] -/
  period : Nat
  /-- TOL [32; 06 R202] -/
  tol : W32
  /-- DEADLINE [32; 06 R202] -/
  deadline : Nat
  /-- BUILD_DL [32; 06 R202] -/
  buildDl : Nat
  /-- METHOD [4; 06 R202] -/
  method : Nat
  /-- PRECOND [3; 06 R202] -/
  precond : Nat
  /-- PREBUILD [2; 06 R202] -/
  prebuild : Nat
  /-- GM_M1 plus 1 [7; 06 R202] -/
  gm : Nat
  /-- N_ITER [12; 06 R202] -/
  nIter : Nat
  /-- MIN_IT [12; 06 R202] -/
  minIt : Nat
  /-- PATCH_SZ plus 1, in units of 64 KiB [17; 06 R202] -/
  patch : Nat
deriving DecidableEq, Repr

/-- The header of a structure image (06 R193). -/
structure StructHdr where
  /-- CRC [64; 06 R193] -/
  crc : Nat
  /-- NLEV [32; 06 R193] -/
  nlev : Nat
  /-- NNB [32; 06 R193] -/
  nnb : Nat
  /-- NGS [32; 06 R193] -/
  ngs : Nat
  /-- NBLK [32; 06 R193] -/
  nblk : Nat
  /-- NHALO [32; 06 R193] -/
  nhalo : Nat
  /-- NLOC [32; 06 R193] -/
  nloc : Nat
  /-- NBRL [32; 06 R193] -/
  nbrl : Nat
  /-- NSRL [32; 06 R193] -/
  nsrl : Nat
  /-- NSEND [32; 06 R193] -/
  nsend : Nat
  /-- SYM [1; 06 R193] -/
  sym : Bool
  /-- bytes of a value: 4 or 8, from WPREC [3; 06 R193] -/
  w : Nat
deriving DecidableEq, Repr

/-- A halo message of a solve: a PUT of the listed unknowns into the neighbour's receive area, a FENCE, and one SIGNAL (06 R207). -/
structure HaloMsg where
  /-- neighbour's rank [16; 06 R194] -/
  rank : Nat
  /-- address in the neighbour's memory [48; 06 R194, R207] -/
  addr : Nat
  /-- the unknowns' bytes [06 R207] -/
  data : List Byte
  /-- TALLY_OUT, signalled once [12; 06 R194, R207] -/
  tally : Nat
  /-- the job's layout epoch [8; 06 R207] -/
  lepoch : Nat
deriving DecidableEq, Repr

/-- A solve that has begun at its patch point (06 R200 to R214). -/
structure Solve where
  /-- solve index k [32; 06 R197] -/
  k : Nat
  /-- scheduled start in watch time; none: it has not been scheduled or reached yet [06 R218] -/
  sched : Option Nat
  /-- watch time at which it started; none: not started [06 R218] -/
  start : Option Nat
  /-- STATUS bits set so far [16; 06 R217] -/
  status : Nat
  /-- substitutions of this solve's build [32; 06 R212] -/
  pivs : Nat
  /-- the step start in which it runs [06 R216] -/
  attempt : Nat
deriving DecidableEq, Repr

/-- A solver of the running plan (06 R191 to R218). -/
structure Solver where
  /-- its record [512; 06 R202] -/
  record : SolveRec
  /-- header of its structure image [512; 06 R193] -/
  hdr : StructHdr
  /-- index of the next solve [32; 06 R197; 0] -/
  k : Nat
  /-- s [64; 06 R196; 1] -/
  s : W64
  /-- d [64; 06 R196; 0] -/
  d : W64
  /-- the values changed since the last completed build [1; 06 R200, R203, log entry 60; true] -/
  changed : Bool
  /-- SEQ of the last patch applied, VAL_GEN [32; 06 R217; 0] -/
  valGen : Nat
  /-- buffers posted and not consumed [2; 06 R197; false] -/
  posted : List Bool
  /-- buffers that a peer's PUT has reached, with its rank, before its SIGNAL [06 R197; none] -/
  touched : List (Nat × Nat)
  /-- current preconditioner slot [06 R213; none] -/
  slot : Option Nat
  /-- PRE_GEN [32; 06 R213; 0] -/
  preGen : Nat
  /-- the solve in progress [06 R200; none] -/
  run : Option Solve
  /-- a scheduled start that waits for the solve in progress [06 R218; none] -/
  waiting : Option Nat
  /-- T0: watch time of the first scheduled start [64; 06 R218, log entry 60; none] -/
  t0 : Option Nat
  /-- an off-tack solution and record wait for the flip [06 R216; false] -/
  offTack : Bool
  /-- current tack copy of solution and record is B [1; 06 R216; false] -/
  tackB : Bool
  /-- a solution has been committed since admission [06 R201; false] -/
  solved : Bool
  /-- the patch of solve k has been applied or judged already: its STATUS bits [16; 06 R200, R216; none] -/
  patched : Option Nat
  /-- the starting iterate that the patch of solve k gave, as bytes; empty: it gave none [06 R201; empty] -/
  x0 : List Byte
  /-- the diagonal inverse is that of the effective values [06 R211; false] -/
  diagOk : Bool
  /-- halo messages of the last solve that ended, in order [06 R207; none] -/
  sent : List HaloMsg
  /-- the values are marked lost [06 R219; false] -/
  valLost : Bool
  /-- the structure is marked lost [06 R219; false] -/
  strLost : Bool
deriving DecidableEq, Repr

/-- The solvers and their counters (06 R220). -/
structure Solv where
  /-- solvers of the running plan [06 R191; none] -/
  solvers : List Solver
  /-- CRW_SOLV_DONE [32; 06 R220; 0] -/
  done : Nat
  /-- CRW_SOLV_DLSTOP [32; 06 R220; 0] -/
  dlStop : Nat
  /-- CRW_SOLV_OVERRUN [32; 06 R220; 0] -/
  overrun : Nat
  /-- CRW_SOLV_BRK [32; 06 R220; 0] -/
  brk : Nat
  /-- CRW_SOLV_ABAND [32; 06 R220; 0] -/
  aband : Nat
  /-- CRW_SOLV_PIV [32; 06 R220; 0] -/
  piv : Nat
  /-- CRW_SOLV_PATCH [32; 06 R220; 0] -/
  patch : Nat
  /-- CRW_SOLV_PREJ [32; 06 R220; 0] -/
  prej : Nat
  /-- CRW_SOLV_ITLOST [32; 06 R220; 0] -/
  itLost : Nat
deriving DecidableEq, Repr


/-! ## The whole block -/

/-- The power side of a spar group (15 R436 to R438, 04 R154). -/
structure GroupPwr where
  /-- power state [2; 15 R436, R459 CRW_SG_OFF; OFF] -/
  state : GPower
  /-- going from IDLE to OFF [1; 15 R438; false] -/
  falling : Bool
  /-- CRW_SG_PEND: a start is latched [1; 15 R459; 0] -/
  pend : Bool
  /-- a start from IDLE or OFF is under way [1; 15 R436; false] -/
  starting : Bool
  /-- out of service [1; 04 R154; false] -/
  absent : Bool
deriving DecidableEq, Repr

/-- Everything but device memory and the queue of waiting commands. -/
structure Dev where
  /-- board signals [15 R434] -/
  pins : Pins
  /-- watch time and debug registers [14 R411] -/
  dbg : Dbg
  /-- factory fuses [15 R444] -/
  fuses : Fuses
  /-- boot flash [15 R442] -/
  flash : Flash
  /-- firmware identity [14 R409] -/
  fw : Fw
  /-- power, clocks, thermal [15 R459] -/
  pwr : Pwr
  /-- spar groups 0 to 39, power side [15 R436] -/
  gpwr : List GroupPwr
  /-- halyard [14 R412] -/
  hly : Hly
  /-- event ring and reports [14 R426] -/
  evt : Evt
  /-- interrupts [14 R428] -/
  irq : Irq
  /-- port H, port G links, HDM [14 R410] -/
  cxl : Cxl
  /-- device-wide counters [14 R408] -/
  gen : Gen
  /-- ECC state [13 R380] -/
  ecc : Ecc
  /-- integrity, ballast, cores [13 R395] -/
  integ : Integ
  /-- gondola tier and memory counters [08 R269] -/
  gon : Gon
  /-- weights [12 R379] -/
  wgt : Wgt
  /-- plan [07 R242] -/
  plan : Plan
  /-- tethers and tallies [09 R304] -/
  tth : Tth
  /-- verdict [10 R333] -/
  vrd : Vrd
  /-- tack unit [11 R338] -/
  tack : Tack
  /-- snapshots [11 R358] -/
  snap : Snap
  /-- main arrays 0 to 159 [03 R76] -/
  arrays : List MArr
  /-- tile queues, vector units and Gram arrays of spar groups 0 to 39 [04 R112, R117; 05 R161] -/
  groups : List Group
  /-- numeric flags [02 R71] -/
  nflag : NFlags
  /-- narrow-format tensors that conversion points have met since admission [02 R49; none] -/
  narrow : List Narrow
  /-- root service and curvature counters [05 R190] -/
  curv : Curv
  /-- solvers [06 R220] -/
  solv : Solv
  /-- bytes the device has written into host memory: completions, events, buffers [14 R416; none] -/
  host : Mem
  /-- THE MODEL'S OWN, not the manual's: numbers the draws of free values [log entry 6; 0, DC 6] -/
  freeCtr : Nat
deriving DecidableEq, Repr

/-- The state of the block. -/
structure State where
  /-- device memory: SRAM, HBM and gondola in one 48-bit space [08 R243; nothing listed, DC 1] -/
  mem : Mem
  /-- everything else [reset as each field says] -/
  dev : Dev
  /-- commands that wait, first in, first out [the model's queue; empty] -/
  pending : List Instr
deriving DecidableEq, Repr

/-! ## Reset -/

/-- A command ring at reset (14 R413). -/
def Ring.reset : Ring :=
  ⟨false, false, 0, 0, 4, 4, 0, 0, 0, 0, 0, true, 1, 0, 0, true, false, 0, [], [], []⟩

/-- The halyard at reset (14 R412). -/
def Hly.reset : Hly := ⟨false, false, true, false, 0, List.replicate 4 Ring.reset, 0⟩

/-- The event ring at reset (14 R413, R405). Fault sequence numbers and the FATAL mark are those of power-on reset. -/
def Evt.reset : Evt := ⟨0, 4, 0, 0, 0, true, 0, [], [], 0, false⟩

/-- MSI-X vector control words at reset: every vector masked (PR 7). -/
def msixReset : Sparse 32 := (List.range 16).map fun v => (4 * v + 3, 1)

/-- Interrupt registers at reset (14 R428). -/
def Irq.reset : Irq := ⟨0, 0, 2, msixReset, 0, [], 0⟩

/-- Link registers while the links are down (14 R410). -/
def Cxl.reset : Cxl :=
  ⟨0, 0, false, false, false, false, [], false, false, 0, 0, false, 0, 0, 0, [], [], [], [], false⟩

/-- Board signals while RESET_N is low (15 R434). -/
def Pins.reset : Pins := ⟨false, true, false, false, false, false, true, false, 0⟩

/-- Watch time and debug registers after power-on reset (14 R411). -/
def Dbg.reset : Dbg := ⟨0, 0, 0, false, false, false⟩

/-- The fuses of a new device (13 R396; DC 3). -/
def Fuses.new : Fuses :=
  ⟨0xA0, 1, 0, List.replicate 4 (0, false), List.replicate 8 true, List.replicate 2 true, List.replicate 4 true, 2, true⟩

/-- The boot flash of a board whose ports are all unused (DC 3). -/
def Flash.new : Flash :=
  ⟨false, true, ⟨0, 0, 0, 0, 0, List.replicate 16 0, List.replicate 16 6⟩, 0, 0, true, List.replicate 17 7900, none, none⟩

/-- No firmware runs (14 R409). -/
def Fw.reset : Fw := ⟨0, 0, 0, 0, false, 0, false⟩

/-- Power registers after power-on reset (15 R459). -/
def Pwr.reset : Pwr :=
  ⟨0, 0, 0, 0, 120, 0x14, 0, 0, false, false, 0, 0, 0, 0, 0, 0, 0, 0, 0, 0, 0⟩

/-- A spar group after power-on reset: OFF (15 R440, R459). -/
def GroupPwr.reset : GroupPwr := ⟨.off, false, false, false, false⟩

/-- Device-wide counters after power-on reset (14 R408). -/
def Gen.reset : Gen := ⟨0, List.replicate 40 0, List.replicate 40 0, List.replicate 40 0⟩

/-- First byte of HBM stack `s` (08 R243). -/
def hbmBase (s : Nat) : Nat := 0x1000000000 + s * 0x1800000000

/-- ECC state after power-on reset. -/
def Ecc.reset : Ecc := ⟨[], [], [], [], [], [], [], [], [], List.replicate 48 0, 0, hbmBase 0, []⟩

/-- The bucket classes after power-on reset (13 R385). -/
def bucketsReset : List Bucket :=
  [⟨64, 100, true, 48, []⟩, ⟨64, 100, true, 256, []⟩, ⟨16, 1000, true, 200, []⟩, ⟨8, 1000, true, 200, []⟩,
   ⟨8, 1000, true, 40, []⟩, ⟨255, 10, true, 16, []⟩, ⟨4, 10000, true, 5, []⟩, ⟨255, 10, true, 2, []⟩]

/-- Integrity state after power-on reset, with the ballast the fuses name (13 R395). -/
def Integ.reset (f : Fuses) : Integ :=
  ⟨0, 0, 0, 0, 0, 0, 0, 0, true, 0x10, 0x10, false, false, false, bucketsReset, f.balArrays, f.balGrams, f.balLanes,
   f.balBanks, f.balCore, [], [], false, 0, 0, none, [], List.replicate 4 .clockGated, [], [], [], [], [],
   List.replicate 256 0, []⟩

/-- An EMPTY bay (08 R269). -/
def Bay.reset : Bay := ⟨.empty, none, false, false, 0, 0, 0, 0, 0, none⟩

/-- The gondola tier after power-on reset (08 R269). -/
def Gon.reset : Gon := ⟨List.replicate 4 Bay.reset, none, 0, 0, 0, 0, 0, 0⟩

/-- An EMPTY weight slot (12 R379). -/
def WSlot.reset : WSlot := ⟨.empty, false, 0, [], 0, 0, 0, 0, 0, [], false⟩

/-- A closed weight session (12 R367). -/
def Session.reset : Session :=
  ⟨false, false, 0, false, false, none, false, none, none, none, [], 0, 0, [], [], false, [], (0, 0, 0)⟩

/-- Weights after power-on reset (12 R379). -/
def Wgt.reset : Wgt :=
  ⟨List.replicate 4 WSlot.reset, List.replicate 4 WSlot.reset, 0, none, none, List.replicate 4 Session.reset,
   0, 0, 0, 0, 0, 0, 0, 3600, none, [], [], [], [], List.replicate 8 none⟩

/-- Plan registers after power-on reset (07 R242). -/
def Plan.reset : Plan := ⟨none, none, none, false, 0, 0, 0, 0, 0, 0, 0⟩

/-- A tether port that is OFF (09 R304). -/
def Port.reset : Port := ⟨6, .off, 0, false, 0, none⟩

/-- Tethers after power-on reset (09 R304). -/
def Tth.reset : Tth :=
  ⟨0, List.replicate 16 Port.reset, 0, 0, 0, 0, 0, 0, 0, 0, 0, [], [], [], [], [], 0, [], 0, []⟩

/-- The verdict after power-on reset (10 R333). -/
def Vrd.reset : Vrd :=
  ⟨0, 0, 0xFFFF, 0, 0xFFFF, 0, 0, 0, 0, 0, 0, 0, 0, none, none, 0, 0, none, none, 0, 0, false, none, none, none, []⟩

/-- The tack unit with no plan admitted (11 R338). -/
def Tack.reset : Tack := ⟨[], [], [], 0, [], [], []⟩

/-- Snapshots after power-on reset (11 R358). -/
def Snap.reset : Snap :=
  ⟨none, false, false, 0, none, none, [], 0, false, 0, 0, 0, 0, 0, 0, 0, 0, 1, 65535, 0, 0, none, 0, [], 0, 0, [], [], false,
   none, []⟩

/-- A main array after power-on reset: its registers and carry store hold zeros (DC 4). -/
def MArr.reset : MArr := ⟨[], [], [], [], false, [], [], false, [], [], [], false, 0, []⟩

/-- A vector-unit context after power-on reset, and as an admission leaves it (04 R119; DC 4). -/
def VCtx.reset : VCtx := ⟨128, [], (128, []), [], 0, 0, 0⟩

/-- A spar group's engines after power-on reset (DC 4). -/
def Group.reset : Group := ⟨[], [], List.replicate 6 [], List.replicate 8 VCtx.reset, 0, 0, [[], []], false, false, false, []⟩

/-- Numeric flags after power-on reset (02 R73, R74). -/
def NFlags.reset : NFlags := ⟨[], [], List.replicate 8 0xFF, List.replicate 8 0⟩

/-- Curvature after power-on reset (05 R190). -/
def Curv.reset : Curv := ⟨[], 0, 0, 0, 0, 0, 0, [], false, 0xFFFF, 0, 0⟩

/-- Solvers after power-on reset (06 R220). -/
def Solv.reset : Solv := ⟨[], 0, 0, 0, 0, 0, 0, 0, 0, 0⟩


/-- Everything but memory and the queue after power-on reset, with the fuses and flash the board carries. -/
def Dev.reset (f : Fuses) (fl : Flash) : Dev where
  pins := Pins.reset
  dbg := Dbg.reset
  fuses := f
  flash := fl
  fw := Fw.reset
  pwr := Pwr.reset
  gpwr := List.replicate 40 GroupPwr.reset
  hly := Hly.reset
  evt := Evt.reset
  irq := Irq.reset
  cxl := Cxl.reset
  gen := Gen.reset
  ecc := Ecc.reset
  integ := Integ.reset f
  gon := Gon.reset
  wgt := Wgt.reset
  plan := Plan.reset
  tth := Tth.reset
  vrd := Vrd.reset
  tack := Tack.reset
  snap := Snap.reset
  arrays := List.replicate 160 MArr.reset
  groups := List.replicate 40 Group.reset
  nflag := NFlags.reset
  narrow := []
  curv := Curv.reset
  solv := Solv.reset
  host := []
  freeCtr := 0

/-- The machine right after power-on reset, RESET_N still low (15 R434, R440; log entry 2). -/
def State.reset : State := ⟨[], Dev.reset Fuses.new Flash.new, []⟩

end Sys2Proof.Machine
end

