-- ==== Sys2Proof/Machine/Ops.lean ====
section
/-! DEFINITION. The named operations that meanings share: lifting a change of the device to an outcome, interrupts,
reports and their event records, repair reports, buckets, and reaching memory through its error-correcting code. -/

namespace Sys2Proof.Machine

/-- What a meaning answers. -/
abbrev Out := Host.Outcome State Fault Refusal

/-- A command that changes the device and neither reads nor writes device memory. -/
def onDev (f : Dev → Dev) (s : State) : Out := .next { s with dev := f s.dev }

/-- A command that reads device memory and changes the device only. -/
def onRead (f : Mem → Dev → Dev) (s : State) : Out := .next { s with dev := f s.mem s.dev }

/-- A command that changes memory and the device. -/
def onBoth (f : Mem → Dev → Mem × Dev) (s : State) : Out :=
  .next { s with mem := (f s.mem s.dev).1, dev := (f s.mem s.dev).2 }

/-! ## Interrupts -/

/-- Bit of IRQ_CAUSE for an event record (14 R428). -/
def irqEvt : BitVec 10 := 0x10
/-- Bit of IRQ_CAUSE for a dropped event record (14 R428). -/
def irqEvtOvf : BitVec 10 := 0x20
/-- Bit of IRQ_CAUSE for a bucket overflow (14 R428). -/
def irqBucket : BitVec 10 := 0x40
/-- Bit of IRQ_CAUSE for the safe state (14 R428). -/
def irqFatal : BitVec 10 := 0x80
/-- Bit of IRQ_CAUSE for port H changes (14 R428). -/
def irqLink : BitVec 10 := 0x100
/-- Bit of IRQ_CAUSE for thermal and power events (14 R428). -/
def irqTherm : BitVec 10 := 0x200
/-- Bit of IRQ_CAUSE for ring `n` (14 R428). -/
def irqCq (n : Nat) : BitVec 10 := BitVec.ofNat 10 (2 ^ n)

/-- Vector `v` is masked in the MSI-X table (14 R429). -/
def vecMasked (q : Irq) (v : Nat) : Bool := (q.table.get (4 * v + 3)).getLsbD 0

/-- Vector `v`'s message is due: it is sent, or its pending bit is set while the vector is masked (14 R429). -/
def msixDue (q : Irq) (v : Nat) : Irq :=
  if vecMasked q v then { q with pba := q.pba ||| BitVec.ofNat 16 (2 ^ v) } else { q with sent := q.sent ++ [v] }

/-- Takes IRQ_CAUSE and IRQ_MASK to new values; every bit of their conjunction that goes from 0 to 1 makes a message due,
in ascending vector order (14 R429). -/
def irqSet (cause mask : BitVec 10) (q : Irq) : Irq :=
  (List.range 10).foldl
    (fun r v => if (cause &&& mask).getLsbD v && !(q.cause &&& q.mask).getLsbD v then msixDue r v else r)
    { q with cause := cause, mask := mask }

/-- Sets cause bits (14 R428: set whether or not they are masked). -/
def raise (b : BitVec 10) (d : Dev) : Dev := { d with irq := irqSet (d.irq.cause ||| b) d.irq.mask d.irq }

/-! ## Reports and event records -/

/-- A report of 00 R22 with the fields its event record carries (14 R426). -/
structure Rep where
  cls : Nat
  block : Nat
  event : Nat := 0xFFFF
  source : Nat := 0xFFFF
  arg : Nat := 0
  stopped : Bool := false
deriving DecidableEq, Repr

/-- Error classes of 00 R22. -/
def clsNote : Nat := 0
/-- Error class CORRECTED (00 R22). -/
def clsCorrected : Nat := 1
/-- Error class CONTAINED (00 R22). -/
def clsContained : Nat := 2
/-- Error class DEGRADED (00 R22). -/
def clsDegraded : Nat := 3
/-- Error class FATAL (00 R22). -/
def clsFatal : Nat := 4

/-- The event record of a report without its phase bit (14 R426). -/
def evtRecord (now fseq : Nat) (r : Rep) : BitVec 256 :=
  BitVec.ofNat 256 (now % 2 ^ 64 * 2 ^ 192 + fseq % 2 ^ 64 * 2 ^ 128 + r.arg % 2 ^ 32 * 2 ^ 96
    + r.source % 2 ^ 16 * 2 ^ 80 + r.event % 2 ^ 16 * 2 ^ 64 + r.block % 2 ^ 8 * 2 ^ 56
    + ofBool r.stopped * 2 ^ 8 + r.cls % 8 * 2 ^ 5)

/-- The class a record carries (14 R426). -/
def recClass (r : BitVec 256) : Nat := (r.extractLsb' 5 3).toNat

/-- The device's bytes of a record or completion with its phase bit (14 R416). -/
def entryBytes (r : BitVec 256) (phase : Bool) : List Byte := leBytes 32 (r.toNat / 2 * 2 + ofBool phase)

/-- Port H's link is up (14 R402, R410). -/
def hLinkUp (d : Dev) : Bool := d.cxl.hMode != 0

/-- The event ring can take a record of class `cls`: one entry is kept for FATAL (14 R427; log entry 8). -/
def evtFree (d : Dev) (cls : Nat) : Bool :=
  d.hly.running && hLinkUp d && d.evt.err = 0 && decide (d.evt.used + (if cls < clsFatal then 1 else 0) < 2 ^ d.evt.log2)

/-- Writes one record into the event ring and sets EVT when its class reaches IRQ_CLASS.MIN (14 R416, R428). -/
def evtWrite (r : BitVec 256) (d : Dev) : Dev :=
  let e := d.evt
  let size := 2 ^ e.log2
  let d := { d with
    host := d.host.write (e.base.toNat + 32 * e.tail) (entryBytes r e.phase)
    evt := { e with
      tail := (e.tail + 1) % size
      used := e.used + 1
      phase := if e.tail + 1 = size then !e.phase else e.phase } }
  if min d.irq.cls 4 ≤ recClass r then raise irqEvt d else d

/-- Drops a record: counted, and EVT_OVF raised (14 R427). -/
def evtDropped (d : Dev) : Dev :=
  raise irqEvtOvf { d with hly := { d.hly with evtDrop := satAdd d.hly.evtDrop 1 } }

/-- Delivers one record (00 R26, 14 R426, R427): a FATAL one ends the delivery of lower classes, the held ones among them. While port H
is down every record but FATAL is lost (14 R405). -/
def deliver (d : Dev) (w : BitVec 256) : Dev :=
  let cls := recClass w
  if d.evt.fatal && cls < clsFatal then d
  else if !hLinkUp d && cls < clsFatal then d
  else
    let d := if cls = clsFatal then
        { d with evt := { d.evt with fatal := true, held := d.evt.held.filter fun h => recClass h = clsFatal } } else d
    if d.evt.held.isEmpty && evtFree d cls then evtWrite w d
    else if cls = clsFatal then { d with evt := { d.evt with held := d.evt.held ++ [w] } }
    else if clsContained ≤ cls && decide ((d.evt.held.filter fun h => recClass h < clsFatal).length < 64) then
      { d with evt := { d.evt with held := d.evt.held ++ [w] } }
    else evtDropped d

/-- A report of the fault with sequence number `n` arises: its record waits for the end of the watch cycle (00 R24, R25). -/
def ariseOf (n : Nat) (d : Dev) (r : Rep) : Dev :=
  { d with evt := { d.evt with wait := d.evt.wait ++ [evtRecord d.dbg.now n r] } }

/-- A report of the last fault arises (00 R24). -/
def arise (d : Dev) (r : Rep) : Dev := ariseOf d.evt.fseq d r

/-- The service number of the reporting block in a record (14 R426). -/
def recSource (r : BitVec 256) : Nat := (r.extractLsb' 80 16).toNat

/-- The fault sequence number of a record (14 R426). -/
def recSeq (r : BitVec 256) : Nat := (r.extractLsb' 128 64).toNat

/-- The reports of one fault, in the order in which its consequences took effect, join a list of faults (00 R24). -/
def faultJoin (w : BitVec 256) : List (List (BitVec 256)) → List (List (BitVec 256))
  | [] => [[w]]
  | f :: t => if (f.head?.map recSeq) = some (recSeq w) then (f ++ [w]) :: t else f :: faultJoin w t

/-- The highest class among a fault's reports. -/
def faultClass (f : List (BitVec 256)) : Nat := f.foldl (fun c w => max c (recClass w)) 0

/-- The service number that goes with a fault's highest class. -/
def faultSource (f : List (BitVec 256)) : Nat := ((f.find? fun w => recClass w = faultClass f).map recSource).getD 0

/-- Fault `f` is delivered before fault `g`: higher class, then lower service number (00 R25; log entry 54). -/
def faultBefore (f g : List (BitVec 256)) : Bool :=
  decide (faultClass g < faultClass f) || (faultClass f = faultClass g && decide (faultSource f < faultSource g))

/-- Enters a fault behind those that do not come after it. -/
def faultInsert (f : List (BitVec 256)) : List (List (BitVec 256)) → List (List (BitVec 256))
  | [] => [f]
  | g :: t => if faultBefore f g then f :: g :: t else g :: faultInsert f t

/-- The records of one watch cycle in the order of R25; the reports of one fault keep the order of R24 (log entry 54). -/
def cycleOrder (ws : List (BitVec 256)) : List (BitVec 256) :=
  ((ws.foldl (fun fs w => faultJoin w fs) []).foldl (fun fs f => faultInsert f fs) []).flatten

/-- The watch cycle ends: its reports are delivered (00 R25). -/
def deliverAll (d : Dev) : Dev := (cycleOrder d.evt.wait).foldl deliver { d with evt := { d.evt with wait := [] } }

/-- Writes held records while entries are free: a held FATAL first, then the others in order (14 R427). -/
def evtDrain : Nat → Dev → Dev
  | 0, d => d
  | n + 1, d =>
    match d.evt.held.find? (fun h => recClass h = clsFatal) with
    | some w =>
      if evtFree d clsFatal then
        evtDrain n (evtWrite w { d with evt := { d.evt with held := d.evt.held.erase w } })
      else d
    | none =>
      match d.evt.held with
      | [] => d
      | w :: t =>
        if evtFree d (recClass w) then evtDrain n (evtWrite w { d with evt := { d.evt with held := t } }) else d

/-- A fault takes the next fault sequence number (00 R24). -/
def newFault (d : Dev) : Dev := { d with evt := { d.evt with fseq := d.evt.fseq + 1 } }

/-- Consequences of the last fault, in the order in which they take effect (00 R24). -/
def also (rs : List Rep) (d : Dev) : Dev := rs.foldl arise d

/-- One fault with its reports; all carry the same new fault sequence number (00 R24). -/
def fault (rs : List Rep) (d : Dev) : Dev := if rs.isEmpty then d else also rs (newFault d)

/-- A NOTE of block `b` (00 R22). -/
def note (b : Nat) (event : Nat := 0xFFFF) (source : Nat := 0xFFFF) (arg : Nat := 0) (d : Dev) : Dev :=
  fault [⟨clsNote, b, event, source, arg, false⟩] d

/-! ## Tether headers on the wire (09 R285; 00 R8) -/

/-- The 512 bits of a header (09 R285). -/
def hdrBits (h : WireHdr) : Nat :=
  h.opc % 16 * 2 ^ 508 + h.accOp % 4 * 2 ^ 506 + h.fmt % 16 * 2 ^ 502 + ofBool h.sig * 2 ^ 501 + h.vc % 4 * 2 ^ 499
    + h.tally % 2 ^ 12 * 2 ^ 485 + h.lenM1 % 2 ^ 13 * 2 ^ 472 + h.srcNode % 2 ^ 24 * 2 ^ 448 + h.dstNode % 2 ^ 24 * 2 ^ 424
    + h.srcRank % 2 ^ 16 * 2 ^ 408 + h.dstRank % 2 ^ 16 * 2 ^ 392 + h.lepoch % 2 ^ 16 * 2 ^ 376 + h.tag % 2 ^ 16 * 2 ^ 360
    + h.remote % 2 ^ 48 * 2 ^ 312 + h.step % 2 ^ 64 * 2 ^ 248 + h.job % 2 ^ 32 * 2 ^ 216 + h.inc % 2 ^ 16 * 2 ^ 200
    + h.status % 2 ^ 8 * 2 ^ 192 + h.start % 2 ^ 16 * 2 ^ 176 + h.hcrc % 2 ^ 32

/-- The 64 bytes of a header, least significant first (09 R285; 00 R8). -/
def hdrBytes (h : WireHdr) : List Byte := leBytes 64 (hdrBits h)

/-- HCRC of a header: CRC-32C of its bytes with the field read as zero (09 R285). -/
def hcrcOf (h : WireHdr) : Nat := crc32c (hdrBytes { h with hcrc := 0 })

/-- A header as its sender puts it on the wire (09 R285). -/
def sealHdr (h : WireHdr) : WireHdr := { h with hcrc := hcrcOf h }

/-- HCRC of a received header is good (09 R285). -/
def hcrcOk (h : WireHdr) : Bool := h.hcrc = hcrcOf h

/-! ## Free values -/

/-- Draws the next free value (log entry 6). -/
def draw (w : Nat) (d : Dev) : BitVec w × Dev := (Config.freeValue w d.freeCtr, { d with freeCtr := d.freeCtr + 1 })

/-! ## The memory map -/

/-- Bytes backed on each stack (08 R243). -/
def hbmBytes : Nat := 79200000000

/-- Local SRAM in service at `a` (08 R243; 13 R398: an absent bank is a hole). -/
def inSram (d : Dev) (a : Nat) : Bool := decide (a < 0x60000000) && !d.integ.bankAbsent.contains (a / 0x2000000)

/-- The stack whose backed bytes hold `a` (08 R243). -/
def stackOf (a : Nat) : Option Nat :=
  if hbmBase 0 ≤ a then
    let s := (a - hbmBase 0) / 0x1800000000
    if s < 8 ∧ (a - hbmBase 0) % 0x1800000000 < hbmBytes then some s else none
  else none

/-- HBM in service at `a` (08 R243, R253). -/
def inHbm (d : Dev) (a : Nat) : Bool :=
  match stackOf a with
  | some s => !d.integ.stackAbsent.contains s
  | none => false

/-- First byte of bay `b`'s linear view (08 R243). -/
def gonBase (b : Nat) : Nat := 0x20000000000 * (b + 1)

/-- First byte of the interleaved view (08 R243). -/
def ilBase : Nat := 0xA0000000000

/-- 256 MiB, the unit of gondola capacity (08 R255). -/
def unit256 : Nat := 0x10000000

/-- The bay and the offset in it that a gondola address reaches, whatever the bay's state (08 R243, R256). -/
def gonTarget (d : Dev) (a : Nat) : Option (Nat × Nat) :=
  if gonBase 0 ≤ a ∧ a < ilBase then
    let b := a / 0x20000000000 - 1
    let o := a % 0x20000000000
    match d.gon.bays[b]? with
    | some bay =>
      let taken := match d.gon.il with
        | some (ms, c) => ms.contains b && decide (o < c)
        | none => false
      if o < bay.cap * unit256 && !taken then some (b, o) else none
    | none => none
  else if ilBase ≤ a ∧ a < 0x120000000000 then
    match d.gon.il with
    | some (ms, c) =>
      let o := a - ilBase
      let g := o / 4096
      if o < ms.length * c then (ms[g % ms.length]?).map fun b => (b, g / ms.length * 4096 + o % 4096) else none
    | none => none
  else none

/-- The bay's requests are served (08 R257). -/
def bayOnline (d : Dev) (b : Nat) : Bool :=
  match d.gon.bays[b]? with
  | some bay => bay.state = .online
  | none => false

/-- Every member of the interleave set is there (08 R260: a lost member makes the whole view a hole). -/
def ilWhole (d : Dev) : Bool :=
  match d.gon.il with
  | some (ms, _) => ms.all (bayOnline d)
  | none => false

/-- The gondola address `a` is backed and its bay is ONLINE (08 R243, R257, R260). -/
def inGon (d : Dev) (a : Nat) : Bool :=
  match gonTarget d a with
  | some (b, _) => bayOnline d b && (decide (a < ilBase) || ilWhole d)
  | none => false

/-- The address `a` is backed (08 R243). -/
def backed (d : Dev) (a : Nat) : Bool := inSram d a || inHbm d a || inGon d a

/-- Every byte of [a, a+n) is backed. Ranges are judged at the granularity at which the map changes: 4,096 bytes. -/
def rangeBacked (d : Dev) (a n : Nat) : Bool :=
  decide (0 < n) && backed d a && backed d (a + n - 1) &&
    (List.range (n / 4096)).all fun k => backed d (a / 4096 * 4096 + 4096 * (k + 1)) || decide (a + n ≤ a / 4096 * 4096 + 4096 * (k + 1))

/-! ## Words, lines and their error-correcting code -/

/-- The 256-byte line of an address (13 R381). -/
def lineOf (a : Nat) : Nat := a / 256 * 256

/-- Bytes of a code word at `a`: 8 in SRAM, 32 in HBM (13 R380). -/
def wordLen (a : Nat) : Nat := if a < 0x60000000 then 8 else 32

/-- The code word that holds `a`. -/
def wordOf (a : Nat) : Nat := a / wordLen a * wordLen a

/-- The line belongs to a region marked lost and has not been rewritten since (08 R253). -/
def lineLost (e : Ecc) (line : Nat) : Bool :=
  e.lost.any fun l => decide (l.base ≤ line ∧ line < l.base + l.len) &&
    (match l.pc with
     | some p => decide ((line - l.base) / 256 % 32 = p)
     | none => true) && !l.fresh.contains line

/-- The word that holds `a` cannot be corrected (13 R387, 08 R253, R260). -/
def wordBad (e : Ecc) (a : Nat) : Bool :=
  if a < 0x20000000000 then e.ue.contains (wordOf a) || lineLost e (lineOf a)
  else e.gonLost.any fun r => inside a 1 r.1 r.2

/-- First bad word that a read of [a, a+n) covers (13 R473). -/
def firstBad (e : Ecc) (a : Nat) : Nat → Option Nat
  | 0 => none
  | n + 1 => if wordBad e a then some a else firstBad e (a + 1) n

/-- Marks a line as written whole: its words are good again, and it leaves the deferred and lost marks (13 R381, R383). -/
def lineFresh (line : Nat) (e : Ecc) : Ecc :=
  { e with
    ue := e.ue.filter fun w => lineOf w ≠ line
    ce := e.ce.filter fun w => lineOf w ≠ line
    wbq := e.wbq.filter (· ≠ line)
    defer := e.defer.filter (· ≠ line)
    prioS := e.prioS.filter (· ≠ line)
    prioH := e.prioH.filter (· ≠ line)
    lost := e.lost.map fun l =>
      if decide (l.base ≤ line ∧ line < l.base + l.len) && !l.fresh.contains line then { l with fresh := l.fresh ++ [line] } else l }

/-- The read half of a partial write of [a, a+n) within its line finds a bad word that the write does not wholly
replace (13 R382, R473). -/
def rmwBad (e : Ecc) (a n : Nat) : Bool :=
  (List.range 256).any fun k =>
    let b := lineOf a + k
    wordBad e b && !(decide (a ≤ wordOf b ∧ wordOf b + wordLen b ≤ a + n))

/-- Takes [b, b+m) out of [a, a+n). -/
def cutRange (a n b m : Nat) : List (Nat × Nat) :=
  if !overlaps a n b m then (if n = 0 then [] else [(a, n)])
  else (if a < b then [(a, b - a)] else []) ++ (if b + m < a + n then [(b + m, a + n - (b + m))] else [])

/-- Takes the ranges `cs` out of the ranges `rs`. -/
def cutRanges (rs cs : List (Nat × Nat)) : List (Nat × Nat) :=
  cs.foldl (fun rs c => rs.flatMap fun r => cutRange r.1 r.2 c.1 c.2) rs

/-- The parts of `rs` that lie in some range of `cs`. -/
def meetRanges (rs cs : List (Nat × Nat)) : List (Nat × Nat) := cutRanges rs (cutRanges rs cs)

/-- Splits [a, a + data) at line boundaries: (address, bytes) pieces, `fuel` of them at most. -/
def linePieces : Nat → Nat → List Byte → List (Nat × List Byte)
  | 0, _, _ => []
  | _, _, [] => []
  | fuel + 1, a, bs =>
    let n := 256 - a % 256
    (a, bs.take n) :: linePieces fuel (a + n) (bs.drop n)

/-- Writes one piece of a line to SRAM, HBM or the gondola tier; the write is not performed when the read half of its
read-modify-write meets a bad word (13 R381, R382). Answers the memory, the code state, and the line if it failed. -/
def writePiece (m : Mem) (e : Ecc) (a : Nat) (bs : List Byte) : Mem × Ecc × Option Nat :=
  if a < 0x20000000000 then
    if bs.length < 256 && rmwBad e a bs.length then (m, e, some (lineOf a))
    else (m.write a bs, lineFresh (lineOf a) e, none)
  else (m.write a bs, { e with gonLost := cutRanges e.gonLost [(a, bs.length)] }, none)

/-- Writes bytes line by line (13 R381, R382). Answers the lines that were not written. -/
def writeLines (m : Mem) (e : Ecc) : List (Nat × List Byte) → Mem × Ecc × List Nat
  | [] => (m, e, [])
  | (a, bs) :: t =>
    let r := writePiece m e a bs
    let q := writeLines r.1 r.2.1 t
    (q.1, q.2.1, r.2.2.toList ++ q.2.2)

/-- Writes `bs` from `a` upward through the code. -/
def writeMem (m : Mem) (e : Ecc) (a : Nat) (bs : List Byte) : Mem × Ecc × List Nat :=
  writeLines m e (linePieces (bs.length / 256 + 2) a bs)

/-- Reads [a, a+n) as an engine does: bytes of bad words read as zero (13 R387). -/
def readEngine (m : Mem) (e : Ecc) (a : Nat) : Nat → List Byte
  | 0 => []
  | n + 1 => (if wordBad e a then 0 else m.get a) :: readEngine m e (a + 1) n

/-- Counts uncorrectable errors (13 R387, R395). -/
def countUe (n : Nat) (d : Dev) : Dev := { d with integ := { d.integ with ue := satAdd d.integ.ue n } }

/-- The attempt has not cast its vote (10 R313). -/
def voteOpen (r : Run) : Bool := r.phase = .running || r.phase = .atVerdict || r.phase = .permuting

/-- A contained data error with cause `c`, a consequence of the last fault: of the running attempt, where it is never cleared; after the
vote, and between steps, of the next start (10 R313; 00 R24; log entry 57). -/
def cde (c : Nat) (d : Dev) : Dev :=
  match d.plan.run with
  | some r =>
    let r := if voteOpen r then { r with cde := r.cde ++ [c], cdeSeq := r.cdeSeq ++ [d.evt.fseq] }
      else { r with cdeNext := r.cdeNext ++ [(c, d.evt.fseq)] }
    { d with plan := { d.plan with run := some r } }
  | none => d

/-- A contained data error that is a fault of its own (10 R313; 00 R24). -/
def cdeNew (c : Nat) (d : Dev) : Dev := cde c (newFault d)

/-! ## Physical sites (00 R20; 13 R394) -/

/-- The physical site at which service number `n` of a kind stands (00 R20; 13 R394). -/
def siteOf (d : Dev) (kind n : Nat) : Nat :=
  ((d.integ.sites.find? fun s => s.1 = kind && s.2.1 = n).map fun s => s.2.2).getD n

/-- The service number that the unit at a physical site holds (00 R20). -/
def serviceAt (d : Dev) (kind site : Nat) : Option Nat :=
  (d.integ.sites.find? fun s => s.1 = kind && s.2.2 = site).map fun s => s.2.1

/-- Service number `n` of a kind moves to another physical site (00 R20). -/
def moveSite (kind n site : Nat) (d : Dev) : Dev :=
  { d with integ := { d.integ with sites := d.integ.sites.filter (fun s => !(s.1 = kind && s.2.1 = n)) ++ [(kind, n, site)] } }

/-! ## Repair reports and buckets -/

/-- Adds a repair report of the fault with sequence number `n`, keeping the last 256 (13 R394). -/
def repairOf (n : Nat) (r : Repair) (d : Dev) : Dev :=
  let rs := d.integ.repairs ++ [{ r with fseq := n }]
  { d with integ := { d.integ with repairs := rs.drop (rs.length - 256) } }

/-- Adds a repair report of the last fault (13 R394). -/
def repair (r : Repair) (d : Dev) : Dev := repairOf d.evt.fseq r d

/-- As `repair`, under the sequence number of the fault that is about to be reported (13 R394; 00 R24). -/
def repairNext (r : Repair) (d : Dev) : Dev := repairOf (d.evt.fseq + 1) r d

/-- Counts one event against region `r` of bucket class `n`. At THRESH firmware delivers one CORRECTED report by `say`, sets
the level to 0, counts the overflow and raises BUCKET (13 R385). -/
def bucketWith (say : Rep → Dev → Dev) (n r : Nat) (d : Dev) : Dev :=
  match d.integ.buckets[n]? with
  | none => d
  | some b =>
    if b.regions ≤ r then d
    else
      let lvl := (b.level.get r).toNat + 1
      let put (v : Nat) (d : Dev) : Dev :=
        { d with integ := { d.integ with buckets := modAt (fun b => { b with level := b.level.set r (BitVec.ofNat 16 v) }) n d.integ.buckets } }
      if lvl < b.thresh then put lvl d
      else
        let d := put 0 d
        let d := { d with integ := { d.integ with bktOvf := satAdd d.integ.bktOvf 1 } }
        raise irqBucket (say ⟨clsCorrected, 0x09, 0x0D14, r, n * 2 ^ 16 + r, false⟩ d)

/-- One more event makes region `r` of bucket class `n` overflow (13 R385). -/
def bucketFull (n r : Nat) (d : Dev) : Bool :=
  match d.integ.buckets[n]? with
  | some b => decide (r < b.regions) && decide (b.thresh ≤ (b.level.get r).toNat + 1)
  | none => false

/-- An event that no report has announced is counted: an overflow is a fault of its own (13 R385; 00 R24). -/
def bucketHit (n r : Nat) (d : Dev) : Dev := bucketWith (fun x => fault [x]) n r d

/-- The event of the last fault is counted: an overflow is one more consequence of it, under its sequence number (13 R385; 00
R24). -/
def bucketJoin (n r : Nat) (d : Dev) : Dev := bucketWith (fun x d => arise d x) n r d

/-- The bucket class and region of an SRAM or HBM line (13 R385). -/
def lineRegion (line : Nat) : Nat × Nat :=
  if line < 0x60000000 then (0, line / 0x2000000)
  else match stackOf line with
    | some s => (1, 32 * s + (line - hbmBase s) / 256 % 32)
    | none => (1, 256)

/-- The row that holds a line: 16 lines of one SRAM bank, or 16 lines of one HBM pseudo-channel, named by its first line (13
R386; 08 R251, R252; log entry 25). -/
def rowOf (line : Nat) : Nat :=
  if line < 0x60000000 then line / 4096 * 4096
  else match stackOf line with
    | some s =>
      let i := (line - hbmBase s) / 256
      hbmBase s + 256 * (i / 512 * 512 + i % 32)
    | none => line

/-- Reserve lines of pseudo-channel `p` mod 32 of a stack (08 R252). -/
def pcReserve (p : Nat) : Nat := if p % 32 < 24 then 97656 else 97657

/-- Free reserve lines of a pseudo-channel, numbered 32 for each stack (08 R252). -/
def reserveFree (d : Dev) (p : Nat) : Nat := pcReserve p - (d.integ.reserveUsed[p]?).getD 0

/-- Spares left for a row at `line`: rows of its bank, or reserve lines of its pseudo-channel as far as the field reaches (13 R394,
R396; 08 R252). -/
def rowSparesLeft (d : Dev) (line : Nat) : Nat :=
  if line < 0x60000000 then 128 - (d.ecc.bankRows[line / 0x2000000]?).getD 0
  else match stackOf line with
    | some _ => min 0xFFFF (reserveFree d (lineRegion line).2)
    | none => 0

/-- A repair report about a row of SRAM or HBM (13 R394); the gondola tier has none. -/
def rowReport (source action a : Nat) (d : Dev) : Dev :=
  if a < 0x60000000 then
    let b := a / 0x2000000
    repair ⟨0x05, b, b, source, action, a, 0xFF, rowSparesLeft d (lineOf a), 0, 0⟩ d
  else match stackOf a with
    | some s => repair ⟨0x07, s, s, source, action, a, 0xFF, rowSparesLeft d (lineOf a), 0, 0⟩ d
    | none => d

/-- An uncorrectable error at `a`, found by `source` of R394: a fault, counted, with a repair report (13 R387, R394; 00 R24). -/
def ueAt (source a : Nat) (d : Dev) : Dev := rowReport source 0 a (countUe 1 (newFault d))

end Sys2Proof.Machine
end

