-- ==== Sys2Proof/Machine/Flags.lean ====
section
/-! DEFINITION. Numeric flags: the bits of a flag word, setting them in an engine, and the folds and clears that read
them (02 R70 to R74). -/

namespace Sys2Proof.Machine

/-- INV: an invalid operation (02 R70). -/
def fINV : Nat := 0x001
/-- DZ: a finite nonzero value divided by zero (02 R70). -/
def fDZ : Nat := 0x002
/-- OVF: an overflow or an INT32 saturation (02 R70). -/
def fOVF : Nat := 0x004
/-- UNF: an underflow (02 R69, R70). -/
def fUNF : Nat := 0x008
/-- FLS: a nonzero subnormal was flushed (02 R68, R70). -/
def fFLS : Nat := 0x010
/-- SCL: an overflow, underflow or clamp in scaled data (02 R70). -/
def fSCL : Nat := 0x020
/-- NAN: a NaN was written to an output (02 R70). -/
def fNAN : Nat := 0x040
/-- INF: an infinity was written to an output (02 R70). -/
def fINF : Nat := 0x080
/-- RNG: an index beyond its range (02 R70, 04 R135). -/
def fRNG : Nat := 0x100
/-- PIV: a pivot was substituted (02 R70, 04 R141). -/
def fPIV : Nat := 0x200

/-- FIRST_ENG number of main array `a` (02 R73). -/
def engArray (a : Nat) : Nat := a
/-- FIRST_ENG number of Gram array `g` (02 R73). -/
def engGram (g : Nat) : Nat := 160 + g
/-- FIRST_ENG number of vector unit `g` (02 R73). -/
def engVu (g : Nat) : Nat := 200 + g

/-- The OR of the words of context `c` of those engines that satisfy `p` (02 R72, R73). -/
def flagOr (p : Nat → Bool) (c : Nat) (ws : Sparse 16) : BitVec 16 :=
  ws.foldl (fun acc k => if k.1 % 8 = c && p (k.1 / 8) then acc ||| k.2 else acc) 0

/-- CRW_NFLAG_CTXn bits [9:0]: the OR of every engine's host-visible word (02 R73). -/
def hostFlags (n : NFlags) (c : Nat) : BitVec 16 := flagOr (fun _ => true) c n.host

/-- Sets flags in both words of engine `e` for context `c` in watch cycle `now`; the first since the context's bits were all clear
names its engine, and of several in one watch cycle the lowest number stays (02 R71, R73). -/
def NFlags.record (now e c f : Nat) (n : NFlags) : NFlags :=
  let b := BitVec.ofNat 16 f
  let fresh := hostFlags n c = 0
  if b = 0 then n
  else
    { plan := n.plan.set (8 * e + c) (n.plan.get (8 * e + c) ||| b)
      host := n.host.set (8 * e + c) (n.host.get (8 * e + c) ||| b)
      first := if fresh then modAt (fun _ => e) c n.first
        else if (n.firstAt[c]?).getD 0 = now then modAt (fun x => min x e) c n.first else n.first
      firstAt := if fresh then modAt (fun _ => now) c n.firstAt else n.firstAt }

/-- Sets flags in the device (02 R71). -/
def setFlags (e c f : Nat) (d : Dev) : Dev := { d with nflag := d.nflag.record d.dbg.now e c f }

/-- A fold of context `c` over the engines that satisfy `p`: the 16-bit result, and the words cleared (02 R72). -/
def NFlags.fold (p : Nat → Bool) (c : Nat) (n : NFlags) : BitVec 16 × NFlags :=
  (flagOr p c n.plan, { n with plan := n.plan.keep fun k => !(k % 8 = c && p (k / 8)) })

/-- Host software writes ones to bits of CRW_NFLAG_CTXn: they clear in every engine's host-visible word, but for those
that hardware sets in the same cycle, which it names as (engine, flags); with no bit left FIRST_ENG returns to 0xFF
(02 R73, R74; 00 R14). -/
def NFlags.hostClear (now c : Nat) (w : W32) (hw : List (Nat × W16)) (n : NFlags) : NFlags :=
  let m : BitVec 16 := BitVec.ofNat 16 (w.toNat % 1024)
  let host : Sparse 16 := n.host.filterMap fun k =>
    let v := if k.1 % 8 = c then k.2 &&& ~~~m else k.2
    if v = 0 then none else some (k.1, v)
  let n := { n with host := host }
  let n := { n with first := if hostFlags n c = 0 then modAt (fun _ => 0xFF) c n.first else n.first }
  hw.foldl (fun n x => n.record now x.1 c x.2.toNat) n

/-- NFLAG_CLEAR (02 R73). -/
def execNflagClear (c : Nat) (w : W32) (hw : List (Nat × W16)) (s : State) : Out :=
  onDev (fun d => { d with nflag := d.nflag.hostClear d.dbg.now c w hw }) s

end Sys2Proof.Machine
end

