-- ==== Sys2Proof/Machine/Float.lean ====
section
/-! DEFINITION. The number formats and exact arithmetic on their values: every result is formed exactly as a dyadic
number, with a sticky bit where it is not dyadic, and rounded once (02 R39 to R44, R50, R51, R60 to R69). -/

namespace Sys2Proof.Machine

/-! ## Values -/

/-- A value: NaN, an infinity (or the overflowed state of XF32), or (-1)^neg * m * 2^e. -/
inductive Num where
  | nan
  | inf (neg : Bool)
  | fin (neg : Bool) (m : Nat) (e : Int)
deriving DecidableEq, Repr

/-- Zero of a sign. -/
def Num.zero (neg : Bool) : Num := .fin neg 0 0

/-- An integer as a value. -/
def Num.ofInt (i : Int) : Num := .fin (decide (i < 0)) i.natAbs 0

/-- A floating-point layout (02 R40). -/
structure Fmt where
  /-- exponent bits -/
  eb : Nat
  /-- fraction bits -/
  fb : Nat
  /-- bias -/
  bias : Nat
  /-- the largest finite code without its sign -/
  top : Nat
  /-- it has infinities -/
  hasInf : Bool
  /-- its canonical NaN; 0: it has none -/
  nan : Nat
deriving DecidableEq, Repr

/-- FP32 (02 R40, R41). -/
def fp32 : Fmt := ⟨8, 23, 127, 0x7F7FFFFF, true, 0x7FC00000⟩
/-- FP64 (02 R40, R41). -/
def fp64 : Fmt := ⟨11, 52, 1023, 0x7FEFFFFFFFFFFFFF, true, 0x7FF8000000000000⟩
/-- BF16 (02 R40, R41). -/
def bf16 : Fmt := ⟨8, 7, 127, 0x7F7F, true, 0x7FC0⟩
/-- FP16 (02 R40, R41). -/
def fp16 : Fmt := ⟨5, 10, 15, 0x7BFF, true, 0x7E00⟩
/-- FP8 E4M3 (02 R40, R43). -/
def e4m3 : Fmt := ⟨4, 3, 7, 0x7E, false, 0x7F⟩
/-- FP8 E5M2 (02 R40, R43). -/
def e5m2 : Fmt := ⟨5, 2, 15, 0x7B, true, 0x7E⟩
/-- FP4 E2M1 (02 R40, R42). -/
def fp4 : Fmt := ⟨2, 1, 1, 7, false, 0⟩

/-- The layout that a floating-point code of 02 R39 names. -/
def fmtOf (code : Nat) : Option Fmt :=
  match code with
  | 0 => some fp32
  | 1 => some fp64
  | 2 => some bf16
  | 3 => some fp16
  | 4 => some e4m3
  | 5 => some e5m2
  | 6 => some fp4
  | _ => none

/-- Bits of one element of a format in memory (02 R39). -/
def fmtBits (code : Nat) : Nat :=
  match code with
  | 0 | 8 => 32
  | 1 | 9 => 64
  | 2 | 3 => 16
  | 6 => 4
  | _ => 8

/-- Exponent of the smallest normal value. -/
def Fmt.emin (f : Fmt) : Int := 1 - f.bias

/-- The sign bit of a code. -/
def Fmt.signBit (f : Fmt) : Nat := 2 ^ (f.eb + f.fb)

/-- The value of a code (02 R40 to R43). -/
def Fmt.decode (f : Fmt) (w : Nat) : Num :=
  let neg := bit w (f.eb + f.fb)
  let mag := w % f.signBit
  let ex := mag / 2 ^ f.fb
  let fr := mag % 2 ^ f.fb
  if f.top < mag then (if f.hasInf && fr = 0 then .inf neg else .nan)
  else if ex = 0 then .fin neg fr (f.emin - f.fb)
  else .fin neg (2 ^ f.fb + fr) ((ex : Int) - f.bias - f.fb)

/-- Two's complement of `n` bits (02 R44). -/
def sext (n w : Nat) : Int := if bit w (n - 1) then (w % 2 ^ n : Int) - 2 ^ n else (w % 2 ^ n : Nat)

/-- An integer as an `n`-bit two's complement code. -/
def ofSInt (n : Nat) (i : Int) : Nat := (i % 2 ^ n).toNat

/-- The value of a code of any format but XF32 carry (02 R39). -/
def decodeAs (code w : Nat) : Num :=
  match fmtOf code with
  | some f => f.decode w
  | none => if code = 7 then .ofInt (sext 8 w) else .ofInt (sext 32 w)

/-! ## Rounding (02 R60, R61) -/

/-- A rounding rule; `stoch r` rounds up when the draw `r` is below the first 32 discarded bits (02 R57, R61). -/
inductive Rnd where
  | rne | rtz | stoch (r : Nat)
deriving DecidableEq, Repr

/-- m / 2^sh rounded to an integer, and whether that was inexact (02 R60, R61). -/
def roundShift (rnd : Rnd) (m : Nat) (sh : Int) : Nat × Bool :=
  if sh ≤ 0 then (m * 2 ^ (-sh).toNat, false)
  else
    let n := sh.toNat
    let q := m / 2 ^ n
    let rem := m % 2 ^ n
    let up : Bool := match rnd with
      | .rne => decide (2 ^ n < 2 * rem) || (decide (2 * rem = 2 ^ n) && decide (q % 2 = 1))
      | .rtz => false
      | .stoch r => decide (r < (if n ≤ 32 then rem * 2 ^ (32 - n) else rem / 2 ^ (n - 32)))
    (if up then q + 1 else q, decide (rem ≠ 0))

/-- A magnitude rounded for a layout: units, the exponent of a unit, inexact, and below the smallest normal value before
rounding. The exponent range is unbounded upward (02 R60). -/
structure Rounded where
  units : Nat
  e : Int
  inexact : Bool
  tiny : Bool

/-- Exponent of the leading bit of m * 2^e. -/
def topExp (m : Nat) (e : Int) : Int := (Nat.log2 m : Int) + e

/-- Rounds m * 2^e, m not zero, to the precision of `f` (02 R60, R61). -/
def Fmt.roundMag (f : Fmt) (rnd : Rnd) (m : Nat) (e : Int) : Rounded :=
  let t := topExp m e
  let q := max t f.emin - f.fb
  let r := roundShift rnd m (q - e)
  ⟨r.1, q, r.2, decide (t < f.emin)⟩

/-- The code, without sign, of units * 2^e that the layout can hold but for its exponent; larger than `top` when it
overflows. -/
def Fmt.magCode (f : Fmt) (units : Nat) (e : Int) : Nat :=
  if units = 0 then 0
  else
    let t := topExp units e
    if t < f.emin then units
    else
      let l := Nat.log2 units
      let sig := if l ≤ f.fb then units * 2 ^ (f.fb - l) else units / 2 ^ (l - f.fb)
      (t - f.emin + 1).toNat * 2 ^ f.fb + (sig - 2 ^ f.fb)

/-- A code with its sign. -/
def Fmt.signed (f : Fmt) (neg : Bool) (mag : Nat) : Nat := (if neg then f.signBit else 0) + mag

/-- The infinity of a layout that has one. -/
def Fmt.infCode (f : Fmt) (neg : Bool) : Nat := f.signed neg (f.top + 1)

/-- A result and the flags it sets. -/
structure Res where
  code : Nat
  flags : Nat
deriving DecidableEq, Repr

/-- The flags of several results. -/
def Res.or (r : Res) (fl : Nat) : Res := { r with flags := r.flags ||| fl }

/-- Rounds an exact value as vector-unit arithmetic does: IEEE overflow, subnormal results flushed when asked (02 R67 to
R69; 04 R127). -/
def Fmt.ieee (f : Fmt) (rtz flush : Bool) (x : Num) : Res :=
  match x with
  | .nan => ⟨f.nan, fNAN⟩
  | .inf s => ⟨f.infCode s, fINF⟩
  | .fin s 0 _ => ⟨f.signed s 0, 0⟩
  | .fin s m e =>
    let r := f.roundMag (if rtz then .rtz else .rne) m e
    let c := f.magCode r.units r.e
    if f.top < c then (if rtz then ⟨f.signed s f.top, fOVF⟩ else ⟨f.infCode s, fOVF ||| fINF⟩)
    else if flush && decide (0 < c ∧ c < 2 ^ f.fb) then ⟨f.signed s 0, fFLS⟩
    else ⟨f.signed s c, if r.tiny && r.inexact then fUNF else 0⟩

/-- A subnormal operand read as zero of its sign when the instruction flushes (02 R68). -/
def Fmt.flushIn (f : Fmt) (flush : Bool) (w : Nat) : Num × Nat :=
  let mag := w % f.signBit
  if flush && decide (0 < mag ∧ mag < 2 ^ f.fb) then (.zero (bit w (f.eb + f.fb)), fFLS) else (f.decode w, 0)

/-! ## Exact operations: a value and the flags of the operation itself -/

/-- Negation. -/
def Num.neg : Num → Num
  | .nan => .nan
  | .inf s => .inf (!s)
  | .fin s m e => .fin (!s) m e

/-- (-1)^s * m as an integer. -/
def signedMag (s : Bool) (m : Nat) : Int := if s then -(m : Int) else m

/-- An exact sum. Infinities of opposite signs give NaN with INV; an exact zero of operands that differ is +0 (02 R40,
R51, R70). -/
def Num.add : Num → Num → Num × Nat
  | .nan, _ => (.nan, 0)
  | _, .nan => (.nan, 0)
  | .inf a, .inf b => if a = b then (.inf a, 0) else (.nan, fINV)
  | .inf a, .fin .. => (.inf a, 0)
  | .fin .., .inf b => (.inf b, 0)
  | .fin s m e, .fin s' m' e' =>
    if m = 0 ∧ m' = 0 then (.zero (s && s'), 0)
    else
      let q := min e e'
      let i := signedMag s (m * 2 ^ (e - q).toNat) + signedMag s' (m' * 2 ^ (e' - q).toNat)
      (.fin (decide (i < 0)) i.natAbs q, 0)

/-- An exact product. Zero times an infinity gives NaN with INV (02 R70). -/
def Num.mul : Num → Num → Num × Nat
  | .nan, _ => (.nan, 0)
  | _, .nan => (.nan, 0)
  | .inf a, .inf b => (.inf (a != b), 0)
  | .inf a, .fin b m _ => if m = 0 then (.nan, fINV) else (.inf (a != b), 0)
  | .fin a m _, .inf b => if m = 0 then (.nan, fINV) else (.inf (a != b), 0)
  | .fin s m e, .fin s' m' e' => (.fin (s != s') (m * m') (e + e'), 0)

/-- a * b + c, exact. -/
def Num.fma (a b c : Num) : Num × Nat :=
  let p := a.mul b
  let r := p.1.add c
  (r.1, p.2 ||| r.2)

/-- Whether the values compare as x < y; neither is NaN. -/
def Num.lt : Num → Num → Bool
  | .inf true, y => y != .inf true
  | .inf false, _ => false
  | .fin .., .inf s => !s
  | .fin s m e, .fin s' m' e' =>
    let q := min e e'
    decide (signedMag s (m * 2 ^ (e - q).toNat) < signedMag s' (m' * 2 ^ (e' - q).toNat))
  | _, _ => false

/-- The sign of a value that is not NaN. -/
def Num.isNeg : Num → Bool
  | .nan => false
  | .inf s => s
  | .fin s _ _ => s

/-- Whether a value is zero. -/
def Num.isZero : Num → Bool
  | .fin _ 0 _ => true
  | _ => false

/-- IEEE minimum: NaN propagates, -0 is below +0 (04 R126). -/
def Num.min (a b : Num) : Num :=
  if a = .nan ∨ b = .nan then .nan
  else if a.isZero && b.isZero then (if a.isNeg then a else b)
  else if b.lt a then b else a

/-- IEEE maximum (04 R126). -/
def Num.max (a b : Num) : Num :=
  if a = .nan ∨ b = .nan then .nan
  else if a.isZero && b.isZero then (if a.isNeg then b else a)
  else if a.lt b then b else a

/-- Bits of every quotient and root beyond the widest result and its 32 random bits; the sticky bit stands below them. -/
def guardBits : Nat := 320

/-- The exact quotient of positive dyadics as a dyadic with a sticky bit. -/
def divMag (m m' : Nat) (e e' : Int) : Nat × Int :=
  let k := guardBits + Nat.log2 m'
  let n := m * 2 ^ k
  (2 * (n / m') + (if n % m' = 0 then 0 else 1), e - e' - k - 1)

/-- An exact quotient. 0/0 and infinity over infinity give NaN with INV; a finite nonzero value over zero gives an
infinity with DZ (04 R127). -/
def Num.div : Num → Num → Num × Nat
  | .nan, _ => (.nan, 0)
  | _, .nan => (.nan, 0)
  | .inf _, .inf _ => (.nan, fINV)
  | .inf a, .fin b _ _ => (.inf (a != b), 0)
  | .fin a _ _, .inf b => (.zero (a != b), 0)
  | .fin s m e, .fin s' m' e' =>
    if m' = 0 then (if m = 0 then (.nan, fINV) else (.inf (s != s'), fDZ))
    else if m = 0 then (.zero (s != s'), 0)
    else
      let q := divMag m m' e e'
      (.fin (s != s') q.1 q.2, 0)

/-- The integer square root of `n`, bit by bit from 2^k. -/
def isqrtGo (n : Nat) : Nat → Nat → Nat
  | 0, r => r
  | k + 1, r => isqrtGo n k (if (r + 2 ^ k) * (r + 2 ^ k) ≤ n then r + 2 ^ k else r)

/-- The integer square root. -/
def isqrt (n : Nat) : Nat := isqrtGo n (Nat.log2 n / 2 + 1) 0

/-- The square root of a positive dyadic, with a sticky bit. -/
def sqrtMag (m : Nat) (e : Int) : Nat × Int :=
  let odd := e % 2 ≠ 0
  let m := if odd then 2 * m else m
  let e := if odd then e - 1 else e
  let n := m * 2 ^ (2 * guardBits)
  let r := isqrt n
  (2 * r + (if r * r = n then 0 else 1), e / 2 - guardBits - 1)

/-- A square root (04 R127). -/
def Num.sqrt : Num → Num × Nat
  | .nan => (.nan, 0)
  | .inf true => (.nan, fINV)
  | .inf false => (.inf false, 0)
  | .fin s 0 _ => (.zero s, 0)
  | .fin true _ _ => (.nan, fINV)
  | .fin false m e => let r := sqrtMag m e; (.fin false r.1 r.2, 0)

/-- A reciprocal square root: the square root of the quotient, whose sticky bit is kept (04 R127). -/
def Num.rsqrt : Num → Num × Nat
  | .nan => (.nan, 0)
  | .inf true => (.nan, fINV)
  | .inf false => (.zero false, 0)
  | .fin s 0 _ => (.inf s, fDZ)
  | .fin true _ _ => (.nan, fINV)
  | .fin false m e =>
    let q := divMag 1 m 0 e
    let r := sqrtMag q.1 q.2
    (.fin false r.1 r.2, 0)

/-- A reciprocal (04 R127). -/
def Num.recip (a : Num) : Num × Nat := (Num.fin false 1 0).div a

/-- Fraction bits of the working values of EXP2 and LOG2 (log entry 22). -/
def workBits : Nat := 256

/-- The product of 2^(2^-i) over the bits of a fraction, from its leading bit down: `s` is 2^(2^-i) and `r` the product, in
units of 2^-workBits. -/
def exp2Go : List Bool → Nat → Nat → Nat
  | [], _, r => r
  | b :: bs, s, r =>
    let s := isqrt (s * 2 ^ workBits)
    exp2Go bs s (if b then r * s / 2 ^ workBits else r)

/-- The leading `n` bits of a fraction below 1 in units of 2^-n. -/
def fracBits : Nat → Nat → List Bool
  | 0, _ => []
  | n + 1, f => bit f n :: fracBits n f

/-- 2^a: exact for an integer, else with a sticky bit below `workBits` bits (04 R127; log entry 22). -/
def Num.exp2 : Num → Num × Nat
  | .nan => (.nan, 0)
  | .inf true => (.zero false, 0)
  | .inf false => (.inf false, 0)
  | .fin s m e =>
    if m = 0 then (.fin false 1 0, 0)
    else if topExp m e < -64 then
      (.fin false (if s then 2 ^ (workBits + 1) - 1 else 2 ^ (workBits + 1) + 1) (-(workBits + 1 : Int)), 0)
    else if 16 < topExp m e then (.fin false 1 (if s then -65536 else 65536), 0)
    else
      let n := if e < 0 then (-e).toNat else 0
      let v : Int := signedMag s (m * 2 ^ (if e < 0 then 0 else e.toNat))
      let i := v / 2 ^ n
      let f := (v % 2 ^ n).toNat
      if f = 0 then (.fin false 1 i, 0)
      else (.fin false (2 * exp2Go (fracBits n f) (2 * 2 ^ workBits) (2 ^ workBits) + 1) (i - workBits - 1), 0)

/-- Bits of log2 of x in [1, 2), x in units of 2^-(2*workBits), by repeated squaring. -/
def log2Go : Nat → Nat → Nat → Nat
  | 0, _, acc => acc
  | n + 1, x, acc =>
    let y := x * x / 2 ^ (2 * workBits)
    if 2 * 2 ^ (2 * workBits) ≤ y then log2Go n (y / 2) (2 * acc + 1) else log2Go n y (2 * acc)

/-- Fraction bits of a logarithm (log entry 22). -/
def logBits : Nat := 128

/-- log2 a: exact for a power of two, else with a sticky bit below `logBits` bits (04 R127; log entry 22). -/
def Num.log2 : Num → Num × Nat
  | .nan => (.nan, 0)
  | .inf true => (.nan, fINV)
  | .inf false => (.inf false, 0)
  | .fin _ 0 _ => (.inf true, fDZ)
  | .fin true _ _ => (.nan, fINV)
  | .fin false m e =>
    let l := Nat.log2 m
    let t : Int := topExp m e
    if m = 2 ^ l then (if t = 0 then .zero false else .ofInt t, 0)
    else
      let fr := log2Go logBits (m * 2 ^ (2 * workBits) / 2 ^ l) 0
      let v : Int := t * 2 ^ logBits + fr
      -- the exact value lies strictly between v and v + 1 units
      if 0 ≤ v then (.fin false (2 * v.toNat + 1) (-(logBits + 1 : Int)), 0)
      else (.fin true (2 * (-v - 1).toNat + 1) (-(logBits + 1 : Int)), 0)

/-! ## The XF32 accumulator (02 R50, R51) -/

/-- Rounds an exact value to XF32: `.inf` stands for the overflowed state (02 R50, R51, R53). -/
def xf32 (x : Num) : Num × Nat :=
  match x with
  | .fin s m e =>
    if m = 0 then (.zero s, 0)
    else
      let q := topExp m e - 23
      let r := roundShift .rne m (q - e)
      let t := topExp r.1 q
      if 510 < t then (.inf s, fOVF) else if t < -511 then (.zero s, fUNF) else (.fin s r.1 q, 0)
  | x => (x, 0)

/-- The carry word of an XF32 value (02 R50, R41). -/
def carryWord (x : Num) : BitVec 64 :=
  match x with
  | .nan => 0x3FF0000000000000
  | .inf s => BitVec.ofNat 64 (ofBool s * 2 ^ 63 + 511 * 2 ^ 53)
  | .fin s m e =>
    if m = 0 then BitVec.ofNat 64 (ofBool s * 2 ^ 63 + 512 * 2 ^ 53)
    else
      let l := Nat.log2 m
      let sig := if l ≤ 23 then m * 2 ^ (23 - l) else m / 2 ^ (l - 23)
      BitVec.ofNat 64 (ofBool s * 2 ^ 63 + ofSInt 10 (topExp m e) * 2 ^ 53 + (sig - 2 ^ 23) * 2 ^ 30)

/-- The value of a carry word (02 R50). -/
def carryValue (w : BitVec 64) : Num :=
  let v := w.toNat
  let s := bit v 63
  let ex := sext 10 (bits v 62 53)
  let fr := bits v 52 30
  if ex = 511 then (if fr = 0 then .inf s else .nan)
  else if ex = -512 then .zero s
  else .fin s (2 ^ 23 + fr) (ex - 23)

end Sys2Proof.Machine
end

