-- ==== Sys2Proof/Machine/Convert.lean ====
section
/-! DEFINITION. Conversion points: the numeric control word, the random draws of stochastic rounding, conversion to each
destination format and FP4 blocks (02 R45 to R48, R56 to R69). -/

namespace Sys2Proof.Machine

/-! ## The generator (02 R62; its constants are those of the published Philox-4x32, PRESUMED, log entry 23) -/

/-- One round on counter words (c0, c1, c2, c3) with key words (k0, k1). -/
def philoxRound (c : Nat × Nat × Nat × Nat) (k0 k1 : Nat) : Nat × Nat × Nat × Nat :=
  let p0 := 0xD2511F53 * c.1
  let p1 := 0xCD9E8D57 * c.2.2.1
  (Nat.xor (Nat.xor (p1 / 2 ^ 32) c.2.1) k0, p1 % 2 ^ 32, Nat.xor (Nat.xor (p0 / 2 ^ 32) c.2.2.2) k1, p0 % 2 ^ 32)

/-- `n` rounds; the key words step after each. -/
def philoxGo : Nat → Nat × Nat × Nat × Nat → Nat → Nat → Nat × Nat × Nat × Nat
  | 0, c, _, _ => c
  | n + 1, c, k0, k1 => philoxGo n (philoxRound c k0 k1) ((k0 + 0x9E3779B9) % 2 ^ 32) ((k1 + 0xBB67AE85) % 2 ^ 32)

/-- What fixes the draws of one conversion point but the element: seed, step index, context and stream number. -/
structure DrawKey where
  seed : Nat
  step : Nat
  ctx : Nat
  stream : Nat
deriving DecidableEq, Repr

/-- The draw r of the element with global index `n` (02 R62). -/
def drawFor (k : DrawKey) (n : Nat) : Nat :=
  let n := n % 2 ^ 48
  let i := n / 4
  let c := philoxGo 10
    (i % 2 ^ 32, bits i 45 32 + k.stream % 2 ^ 13 * 2 ^ 14 + k.ctx % 8 * 2 ^ 27, k.step % 2 ^ 32, bits k.step 63 32)
    (k.seed % 2 ^ 32) (bits k.seed 63 32)
  match n % 4 with
  | 0 => c.1
  | 1 => c.2.1
  | 2 => c.2.2.1
  | _ => c.2.2.2

/-! ## The numeric control word (02 R57) -/

/-- DST_FMT. -/
def ncwDst (w : Nat) : Nat := bits w 15 12
/-- RND. -/
def ncwRnd (w : Nat) : Nat := bits w 11 10
/-- OVF_SAT. -/
def ncwSat (w : Nat) : Bool := bit w 9
/-- SUB_FLUSH. -/
def ncwFlush (w : Nat) : Bool := bit w 8
/-- SCALE bit 0: the tensor scale applies. -/
def ncwScaled (w : Nat) : Bool := bit w 6
/-- SCALE bit 1: block exponents are produced. -/
def ncwBlocks (w : Nat) : Bool := bit w 7

/-- A control word that keeps 02 R58. -/
def ncwOk (w : Nat) : Bool :=
  ncwRnd w ≠ 3 && (ncwBlocks w == decide (ncwDst w = 6)) && w % 64 = 0 && decide (ncwDst w ≤ 9)

/-- The rounding rule of a control word for the element with global index `n`. -/
def ncwRule (w : Nat) (k : DrawKey) (n : Nat) : Rnd :=
  if ncwRnd w = 1 then .stoch (drawFor k n) else if ncwRnd w = 2 then .rtz else .rne

/-- Source to destination is a widening conversion: every value of the source is one of the destination (02 R56). -/
def widens (src dst : Nat) : Bool :=
  match src with
  | 0 => dst = 1
  | 2 | 3 => dst = 0 || dst = 1
  | 4 | 5 => dst = 0 || dst = 1 || dst = 2 || dst = 3
  | 7 => dst = 0 || dst = 1 || dst = 2 || dst = 3 || dst = 8
  | 8 => dst = 1
  | _ => false

/-- Destinations whose subnormals SUB_FLUSH governs (02 R68). -/
def flushes (w : Nat) : Bool := ncwFlush w && decide (ncwDst w ≤ 5)

/-! ## One element -/

/-- SCL when it applies to this conversion. -/
def sclIf (scl : Bool) : Nat := if scl then fSCL else 0

/-- The result of an overflow (02 R64, R65). -/
def Fmt.overflow (f : Fmt) (rnd : Rnd) (sat : Bool) (s : Bool) : Res :=
  if rnd = .rtz || sat then ⟨f.signed s f.top, fOVF⟩
  else if f.hasInf then ⟨f.infCode s, fOVF ||| fINF⟩
  else ⟨f.nan, fOVF ||| fNAN⟩

/-- Conversion to a floating-point format other than FP4. `omega`: an infinity is the overflowed state of XF32; `scl`:
overflow and underflow set SCL (02 R51, R60 to R70). -/
def convFloat (f : Fmt) (rnd : Rnd) (sat flush scl omega : Bool) (x : Num) : Res :=
  match x with
  | .nan => ⟨f.nan, fNAN⟩
  | .inf s =>
    if omega then (f.overflow rnd sat s).or fSCL
    else if sat then ⟨f.signed s f.top, fOVF ||| sclIf scl⟩
    else if f.hasInf then ⟨f.infCode s, fINF⟩
    else ⟨f.nan, fINV ||| fNAN⟩
  | .fin s 0 _ => ⟨f.signed s 0, 0⟩
  | .fin s m e =>
    let r := f.roundMag rnd m e
    let c := f.magCode r.units r.e
    if f.top < c then (f.overflow rnd sat s).or (sclIf scl)
    else if flush && decide (0 < c ∧ c < 2 ^ f.fb) then ⟨f.signed s 0, fFLS⟩
    else if r.tiny && r.inexact then ⟨f.signed s c, fUNF ||| sclIf scl⟩
    else ⟨f.signed s c, 0⟩

/-- Conversion to an `n`-bit integer: NaN gives 0, what does not fit saturates (02 R61, R64, R67). -/
def convInt (n : Nat) (rnd : Rnd) (scl : Bool) (x : Num) : Res :=
  let lo : Int := -(2 ^ (n - 1) : Nat)
  let hi : Int := (2 ^ (n - 1) : Nat) - 1
  match x with
  | .nan => ⟨0, fINV⟩
  | .inf s => ⟨ofSInt n (if s then lo else hi), fOVF ||| sclIf scl⟩
  | .fin s m e =>
    let v := signedMag s (roundShift rnd m (-e)).1
    if v < lo then ⟨ofSInt n lo, fOVF ||| sclIf scl⟩
    else if hi < v then ⟨ofSInt n hi, fOVF ||| sclIf scl⟩
    else ⟨ofSInt n v, 0⟩

/-- The largest finite XF32 value (02 R50). -/
def xf32Top (s : Bool) : Num := .fin s (2 ^ 24 - 1) 487

/-- An overflow of XF32: Omega, or the largest finite value under OVF_SAT or round toward zero (02 R51, R64, R65; log entry 43). -/
def carryOverflow (rnd : Rnd) (sat scl s : Bool) : Res :=
  ⟨(carryWord (if rnd = .rtz || sat then xf32Top s else .inf s)).toNat, fOVF ||| sclIf scl⟩

/-- Conversion to XF32 carry: one rounding to 24 bits under RND; above exponent 510 an overflow, below -511 zero with UNF. A partial
sum that no tensor scale touches passes as it is, Omega too (02 R50 to R52, R60, R61, R69, R70; log entry 43). -/
def convCarry (rnd : Rnd) (sat scl : Bool) (x : Num) : Res :=
  match x with
  | .nan => ⟨(carryWord .nan).toNat, fNAN⟩
  | .inf s => if scl then carryOverflow rnd sat true s else ⟨(carryWord x).toNat, fSCL⟩
  | .fin _ 0 _ => ⟨(carryWord x).toNat, 0⟩
  | .fin s m e =>
    let q := topExp m e - 23
    let r := roundShift rnd m (q - e)
    let t := topExp r.1 q
    if 510 < t then carryOverflow rnd sat scl s
    else if t < -511 then ⟨(carryWord (.zero s)).toNat, fUNF ||| sclIf scl⟩
    else ⟨(carryWord (.fin s r.1 q)).toNat, if r.2 && decide (topExp m e < -511) then fUNF ||| sclIf scl else 0⟩

/-- Conversion of one value under a control word to any destination but FP4. -/
def convOne (w : Nat) (rnd : Rnd) (widening scl omega : Bool) (x : Num) : Res :=
  match ncwDst w with
  | 7 => convInt 8 rnd scl x
  | 8 => convInt 32 rnd scl x
  | 9 => convCarry rnd (ncwSat w) scl x
  | dst =>
    match fmtOf dst with
    | some f => convFloat f rnd (ncwSat w && !widening) (flushes w) scl omega x
    | none => ⟨0, 0⟩

/-! ## FP4 blocks (02 R45 to R48) -/

/-- 6 * 2^127, the value that an infinity or an overflow stands for. -/
def blockBig (s : Bool) : Num := .fin s 6 127

/-- Magnitude m * 2^k ≤ c * 2^e. -/
def leScaled (c m : Nat) (k e : Int) : Bool :=
  let q := min k e
  decide (m * 2 ^ (k - q).toNat ≤ c * 2 ^ (e - q).toNat)

/-- Magnitude m * 2^k ≤ 6 * 2^e. -/
def leSix (m : Nat) (k e : Int) : Bool := leScaled 6 m k e

/-- The smallest integer e with m * 2^k / 2^e ≤ 6 (02 R48); m is not zero. -/
def blockExp (m : Nat) (k : Int) : Int :=
  let t := topExp m k
  if leSix m k (t - 2) then t - 2 else t - 1

/-- The larger of two finite magnitudes, as (m, e). -/
def maxMag (a : Nat × Int) (x : Num) : Nat × Int :=
  match x with
  | .fin _ m e => if Num.lt (.fin false a.1 a.2) (.fin false m e) then (m, e) else a
  | _ => a

/-- An FP4 block: element codes, BX8 byte and flags. -/
structure Block where
  codes : List Nat
  bx : Nat
  flags : Nat
deriving DecidableEq, Repr

/-- One element of a block whose exponent is `e`: a value beyond 6 * 2^e, which only a clamped exponent leaves, saturates (02 R48, R64,
R69, R70). -/
def blockElem (e : Int) (rnd : Rnd) (x : Num) : Res :=
  match x with
  | .fin s 0 _ => ⟨fp4.signed s 0, 0⟩
  | .fin s m k =>
    let r := fp4.roundMag rnd m (k - e)
    let c := fp4.magCode r.units r.e
    if !leSix m k e then ⟨fp4.signed s fp4.top, fOVF ||| fSCL⟩
    else ⟨fp4.signed s c, if r.tiny && r.inexact then fUNF ||| fSCL else 0⟩
  | _ => ⟨0, 0⟩

/-- A block of values with the rounding rule of each, under OVF_SAT `sat`; `omega` as in `convFloat` (02 R48). -/
def convBlock (sat omega : Bool) (xs : List (Num × Rnd)) : Block :=
  let isInf (x : Num) : Bool := x = .inf true || x = .inf false
  if xs.any (fun x => x.1 = .nan) then ⟨xs.map fun _ => 0, 0xFF, fNAN⟩
  else if xs.any (fun x => isInf x.1) && !omega && !sat then ⟨xs.map fun _ => 0, 0xFF, fINV ||| fNAN⟩
  else
    let big := if xs.any (fun x => isInf x.1) then fOVF ||| fSCL else 0
    let ys := xs.map fun x => (match x.1 with | .inf s => blockBig s | v => v, x.2)
    let a := ys.foldl (fun a y => maxMag a y.1) (0, 0)
    let e := if a.1 = 0 then -127 else blockExp a.1 a.2
    let c := max (-127) (min 127 e)
    let rs := ys.map fun y => blockElem c y.2 y.1
    ⟨rs.map Res.code, (c + 127).toNat, rs.foldl (fun f r => f ||| r.flags) (big ||| (if c = e then 0 else fSCL))⟩

/-- The value of an FP4 element under its BX8 byte (02 R45). -/
def fp4Value (code bx : Nat) : Num :=
  if bx % 256 = 255 then .nan
  else match fp4.decode (code % 16) with
    | .fin s m e => .fin s m (e + (bx % 256 : Nat) - 127)
    | v => v

/-! ## Amax histories (02 R49; log entry 53) -/

/-- The destination's largest finite value: of an FP4 block maximum, E4M3, E5M2 or INT8 (02 R49). -/
def narrowTop (fmt : Nat) : Nat := if fmt = 6 then 6 else if fmt = 4 then 448 else if fmt = 5 then 57344 else 127

/-- A format whose tensors carry amax histories (02 R49). -/
def isNarrow (fmt : Nat) : Bool := fmt = 4 || fmt = 5 || fmt = 6 || fmt = 7

/-- The larger of an amax and a value's magnitude; a value that is not finite does not count (02 R49). -/
def amaxJoin (a : Option (Nat × Int)) (x : Num) : Option (Nat × Int) :=
  match a, x with
  | some a, x => some (maxMag a x)
  | none, .fin _ m e => some (m, e)
  | none, _ => none

/-- The largest finite magnitude of a list (02 R49). -/
def amaxOf (xs : List Num) : Option (Nat × Int) := xs.foldl amaxJoin none

/-- ceil(log2(m * 2^k / c)) for a magnitude that is not zero. -/
def ceilRatio (c m : Nat) (k : Int) : Int :=
  let t := topExp m k - Nat.log2 c
  if leScaled c m k t then t else t + 1

/-- The delayed scale: 2^(ceil(log2(h / m)) + margin) with its exponent clamped to -126..127 for the largest entry h of the history;
the previous scale where h is 0 or the history empty (02 R49). -/
def delayedScale (fmt margin : Nat) (prev : W32) (ring : List (Nat × Int)) : W32 :=
  match amaxOf (ring.map fun h => .fin false h.1 h.2) with
  | some (m + 1, k) =>
    let e := max (-126) (min 127 (ceilRatio (narrowTop fmt) (m + 1) k + margin))
    BitVec.ofNat 32 ((e + 127).toNat * 2 ^ 23)
  | _ => prev

/-- The state of a tensor that no conversion has met: scale 1.0 (02 R49). -/
def Narrow.new (k : AmaxIn) (fmt : Nat) : Narrow := ⟨k.tensor, fmt, k.depth, k.margin, k.delayed, none, [], 0x3F800000⟩

/-- A conversion point records the largest finite magnitude it converted of a tensor (02 R49). -/
def recordAmax (k : AmaxIn) (fmt : Nat) (xs : List Num) (d : Dev) : Dev :=
  if !isNarrow fmt then d
  else
    let old := (d.narrow.find? fun n => n.tensor = k.tensor).getD (Narrow.new k fmt)
    let a := amaxOf xs
    let new := { old with
      fmt := fmt, depth := k.depth, margin := k.margin, delayed := k.delayed
      now := match a with
        | some h => amaxJoin old.now (.fin false h.1 h.2)
        | none => old.now }
    { d with narrow := (d.narrow.filter fun n => n.tensor ≠ k.tensor) ++ [new] }

/-- A tensor at the end of a committed step: its amax enters the ring, and a delayed scale is formed (02 R49). -/
def Narrow.stepEnd (n : Narrow) : Narrow :=
  match n.now with
  | some h =>
    let ring := (h :: n.ring).take n.depth
    { n with now := none, ring := ring, scale := if n.delayed then delayedScale n.fmt n.margin n.scale ring else n.scale }
  | none => { n with scale := if n.delayed then delayedScale n.fmt n.margin n.scale n.ring else n.scale }

/-- The step ends: amaxes enter their histories (02 R49). -/
def narrowFlip (d : Dev) : Dev := { d with narrow := d.narrow.map Narrow.stepEnd }

/-- The attempt is skipped: its amaxes are forgotten (02 R49; log entry 53). -/
def narrowDrop (d : Dev) : Dev := { d with narrow := d.narrow.map fun n => { n with now := none } }

/-- The tensor scale that a conversion of a tensor applies: the delayed one where the plan asks for it, else the one it is given (02
R49; 04 R130). -/
def narrowScale (d : Dev) (k : AmaxIn) (given : W32) : W32 :=
  if k.delayed then ((d.narrow.find? fun n => n.tensor = k.tensor).map Narrow.scale).getD 0x3F800000 else given

/-! ## Tensor scales (02 R47; 04 R130) -/

/-- A tensor scale that may be applied: positive, finite and normal. -/
def scaleOk (w : W32) : Bool := decide (2 ^ 23 ≤ w.toNat ∧ w.toNat ≤ fp32.top)

/-- Formats that carry tensor scales: values are divided on the way into them (04 R130). -/
def carriesScale (dst : Nat) : Bool := dst = 4 || dst = 5 || dst = 6 || dst = 7

/-- A value with its tensor scale applied, exactly (04 R130); a bad scale makes it NaN (02 R47). -/
def applyScale (w : Nat) (scale : W32) (x : Num) : Num :=
  if !ncwScaled w then x
  else if !scaleOk scale then .nan
  else if carriesScale (ncwDst w) then (x.div (fp32.decode scale.toNat)).1
  else (x.mul (fp32.decode scale.toNat)).1

/-- INV when a bad tensor scale is applied (02 R47). -/
def scaleFlag (w : Nat) (scale : W32) : Nat := if ncwScaled w && !scaleOk scale then fINV else 0

end Sys2Proof.Machine
end

