-- ==== Sys2Proof/Machine/HlyOps.lean ====
section
/-! DEFINITION. What every halyard command shares: the fields of a descriptor, the order commands start in, completions,
starting and shutting down rings (14 R413 to R420). -/

namespace Sys2Proof.Machine

/-! ## Descriptors (14 R418) -/

/-- OPCODE. -/
def dOpcode (d : BitVec 512) : Nat := (d.extractLsb' 500 12).toNat
/-- FENCE. -/
def dFence (d : BitVec 512) : Bool := d.getLsbD 499
/-- IRQ_NOW. -/
def dIrqNow (d : BitVec 512) : Bool := d.getLsbD 498
/-- TAG. -/
def dTag (d : BitVec 512) : Nat := (d.extractLsb' 480 16).toNat
/-- LEN. -/
def dLen (d : BitVec 512) : Nat := (d.extractLsb' 448 32).toNat
/-- HADDR. -/
def dHaddr (d : BitVec 512) : Nat := (d.extractLsb' 384 64).toNat
/-- ARG0. -/
def dArg0 (d : BitVec 512) : Nat := (d.extractLsb' 320 64).toNat
/-- ARG1. -/
def dArg1 (d : BitVec 512) : Nat := (d.extractLsb' 256 64).toNat
/-- ARG2. -/
def dArg2 (d : BitVec 512) : Nat := (d.extractLsb' 192 64).toNat
/-- ARG3. -/
def dArg3 (d : BitVec 512) : Nat := (d.extractLsb' 128 64).toNat

/-! ## Completion status (14 R419) -/

/-- STATUS OK. -/
def stOk : Nat := 0x00
/-- STATUS REJECTED. -/
def stRejected : Nat := 0x01
/-- STATUS REFUSED. -/
def stRefused : Nat := 0x02
/-- STATUS BAD_DESC. -/
def stBadDesc : Nat := 0x03
/-- STATUS BAD_OPCODE. -/
def stBadOpcode : Nat := 0x04
/-- STATUS ADDRESS. -/
def stAddress : Nat := 0x05
/-- STATUS ABORTED. -/
def stAborted : Nat := 0x06
/-- STATUS SAFE. -/
def stSafe : Nat := 0x07
/-- STATUS MEMORY. -/
def stMemory : Nat := 0x08

/-- What a command answers: STATUS, CLASS, DATA and AUX of its completion. -/
structure Ans where
  status : Nat := 0
  cls : Nat := 0
  data : Nat := 0
  aux : Nat := 0
deriving DecidableEq, Repr

/-- The completion of a descriptor without SQ_HEAD and PHASE (14 R419). -/
def compRecord (desc : BitVec 512) (fseq : Nat) (a : Ans) : BitVec 256 :=
  BitVec.ofNat 256 (a.data % 2 ^ 64 * 2 ^ 192 + a.aux % 2 ^ 32 * 2 ^ 160
    + (if clsNote < a.cls then fseq % 2 ^ 32 else 0) * 2 ^ 128 + dTag desc * 2 ^ 112
    + a.status % 2 ^ 8 * 2 ^ 88 + a.cls % 8 * 2 ^ 84 + dOpcode desc * 2 ^ 72)

/-- Ring `n`. -/
def ringAt (d : Dev) (n : Nat) : Option Ring := d.hly.rings[n]?

/-- Changes ring `n`. -/
def modRing (n : Nat) (f : Ring → Ring) (d : Dev) : Dev :=
  { d with hly := { d.hly with rings := modAt f n d.hly.rings } }

/-- COUNT of a ring's coalescing register: 0 is read as 1 (14 R413). -/
def coalCount (r : Ring) : Nat := if r.coalCount = 0 then 1 else r.coalCount

/-- Writes one completion into its ring, which has a free entry, and raises the ring's cause at its coalescing
condition (14 R416, R419, R430). -/
def cqWrite (n : Nat) (rec : BitVec 256) (irqNow : Bool) (d : Dev) : Dev :=
  match ringAt d n with
  | none => d
  | some r =>
    let size := 2 ^ r.cqLog2
    let full := BitVec.ofNat 256 (rec.toNat + r.head % 2 ^ 16 * 2 ^ 96)
    let d := { d with host := d.host.write (r.cqb.toNat + 32 * r.cqTail) (entryBytes full r.phase) }
    let d := modRing n (fun r => { r with
      cqTail := (r.cqTail + 1) % size
      used := r.used + 1
      phase := if r.cqTail + 1 = size then !r.phase else r.phase
      sinceClear := r.sinceClear + 1 }) d
    if irqNow || decide (coalCount r ≤ r.sinceClear + 1) then raise (irqCq n) d else d

/-- Posts a completion: written, or held while its ring has no free entry (14 R417); lost while port H is down (14 R405). -/
def post (n : Nat) (rec : BitVec 256) (irqNow : Bool) (d : Dev) : Dev :=
  match ringAt d n with
  | none => d
  | some r =>
    if !hLinkUp d then d
    else if r.held.isEmpty && decide (r.used < 2 ^ r.cqLog2) then cqWrite n rec irqNow d
    else modRing n (fun r => { r with held := r.held ++ [(rec, irqNow)] }) d

/-- Writes held completions while entries are free (14 R417). -/
def cqDrain (n : Nat) : Nat → Dev → Dev
  | 0, d => d
  | k + 1, d =>
    match ringAt d n with
    | none => d
    | some r =>
      match r.held with
      | [] => d
      | h :: t =>
        if r.used < 2 ^ r.cqLog2 then cqDrain n k (cqWrite n h.1 h.2 (modRing n (fun r => { r with held := t }) d)) else d

/-- Ends the command in progress on ring `n` that stands at place `ord` with the answer `a` (14 R419). -/
def finish (n ord : Nat) (desc : BitVec 512) (a : Ans) (d : Dev) : Dev :=
  post n (compRecord desc d.evt.fseq a) (dIrqNow desc)
    (modRing n (fun r => { r with inProg := r.inProg.filter fun e => e.1 ≠ ord }) d)

/-! ## Order (14 R420, R421) -/

/-- What a command names as its object (14 R421): a code for the kind, a number or base, and a length for ranges. -/
def objectOf (desc : BitVec 512) : Option (Nat × Nat × Nat) :=
  let o := dOpcode desc
  let a := dArg0 desc
  if o = 0x101 ∨ o = 0x200 then some (1, a % 2 ^ 48, dLen desc)
  else if o = 0x201 ∨ o = 0x202 ∨ o = 0x203 ∨ o = 0x205 ∨ o = 0x301 then some (2, 0, 0)
  else if o = 0x204 then some (3, a % 2 ^ 16, 0)
  else if o = 0x300 then some (4, 0, 0)
  else if o = 0x400 then some (5, a % 8, 0)
  else if o = 0x401 ∨ o = 0x402 ∨ o = 0x403 then some (6, a % 4, 0)
  else if o = 0x404 then some (7, 0, 0)
  else if o = 0x405 then some (8, a % 8, 0)
  else if o = 0x500 then some (9, 0, 0)
  else if o = 0x501 then some (10, a % 4, 0)
  else if o = 0x600 then some (11, a % 256, 0)
  else if o = 0x601 then some (12, 0, 0)
  else if o = 0x700 then some (13, 0, 0)
  else if o = 0x806 ∨ o = 0x807 then some (14, 0, 0)
  else none

/-- Two commands name the same object (14 R420). -/
def sameObject (x y : BitVec 512) : Bool :=
  match objectOf x, objectOf y with
  | some (k, a, n), some (k', a', n') => k = k' && (if k = 1 then overlaps a n a' n' else a = a')
  | _, _ => false

/-- Every command in progress, with its ring. -/
def allInProg (d : Dev) : List (Nat × Nat × BitVec 512) :=
  (List.range 4).flatMap fun n => ((ringAt d n).elim [] Ring.inProg).map fun e => (n, e.1, e.2)

/-- The command at place `ord` of ring `n` may run: FENCE holds it behind every earlier command of its ring, and an
earlier command that names its object holds it (14 R420). A WGT_CLOSE runs beside the commands of the session that it
ends (14 R421, 12 R370; log entry 12). -/
def canStart (d : Dev) (n ord : Nat) (desc : BitVec 512) : Bool :=
  (allInProg d).all fun e =>
    !(decide (e.2.1 < ord) && ((dFence desc && e.1 = n) || (sameObject desc e.2.2 && dOpcode desc ≠ 0x403)))

/-- The command in progress that `c` names with opcode `opc` and whose descriptor satisfies `p`, when it may run: its place
and descriptor. -/
def cmdIf (p : BitVec 512 → Bool) (d : Dev) (c : CmdRef) (opc : Nat) : Option (Nat × BitVec 512) :=
  match ringAt d c.ring with
  | none => none
  | some r =>
    match r.inProg.find? (fun e => dTag e.2 = c.tag && dOpcode e.2 = opc && p e.2) with
    | none => none
    | some e => if canStart d c.ring e.1 e.2 then some e else none

/-- The command in progress that `c` names with opcode `opc`, when it may run. -/
def cmdFor (d : Dev) (c : CmdRef) (opc : Nat) : Option (Nat × BitVec 512) := cmdIf (fun _ => true) d c opc

/-- The device is in its safe state (15 R449, R450). -/
def isSafe (d : Dev) : Bool := d.pwr.cause != 0

/-- The safe state turns the command away (14 R425): classes 0x0 and 0x8 are accepted. -/
def turnedAway (d : Dev) (desc : BitVec 512) : Bool := isSafe d && dOpcode desc / 256 ≠ 0 && dOpcode desc / 256 ≠ 8

/-- The completion of a command that the safe state turns away (14 R425). -/
def safeAns : Ans := { status := stSafe }

/-- The command moves a buffer, and the host fails the access to it (14 R419). -/
def bufferLost (c : CmdRef) (desc : BitVec 512) : Bool := c.hostFail && decide (dLen desc ≠ 0)

/-- The completion of a command whose host buffer access failed (14 R419). -/
def lostAns : Ans := { status := stAddress }

/-- A command that reads neither memory nor changes it: effect and answer; nothing happens while `c` names no command
that may run. -/
def runCmd (c : CmdRef) (opc : Nat) (f : BitVec 512 → Dev → Dev × Ans) (d : Dev) : Dev :=
  match cmdFor d c opc with
  | none => d
  | some (ord, desc) =>
    if turnedAway d desc then finish c.ring ord desc safeAns d
    else if bufferLost c desc then finish c.ring ord desc lostAns d
    else finish c.ring ord desc (f desc d).2 (f desc d).1

/-- As `runCmd`, for one of several commands that share an opcode: `p` tells its descriptors. -/
def runCmdIf (p : BitVec 512 → Bool) (c : CmdRef) (opc : Nat) (f : BitVec 512 → Dev → Dev × Ans) (d : Dev) : Dev :=
  match cmdIf p d c opc with
  | none => d
  | some (ord, desc) =>
    if turnedAway d desc then finish c.ring ord desc safeAns d
    else if bufferLost c desc then finish c.ring ord desc lostAns d
    else finish c.ring ord desc (f desc d).2 (f desc d).1

/-- As `runCmd`, for a command that reads and writes device memory. -/
def runCmdMem (c : CmdRef) (opc : Nat) (f : BitVec 512 → Mem → Dev → Mem × Dev × Ans) (m : Mem) (d : Dev) : Mem × Dev :=
  match cmdFor d c opc with
  | none => (m, d)
  | some (ord, desc) =>
    if turnedAway d desc then (m, finish c.ring ord desc safeAns d)
    else if bufferLost c desc then (m, finish c.ring ord desc lostAns d)
    else ((f desc m d).1, finish c.ring ord desc (f desc m d).2.2 (f desc m d).2.1)

/-- As `runCmd`, for a command that may stay in progress: no answer, no completion yet. -/
def runCmdLong (c : CmdRef) (opc : Nat) (f : Nat → BitVec 512 → Mem → Dev → Mem × Dev × Option Ans) (m : Mem) (d : Dev) :
    Mem × Dev :=
  match cmdFor d c opc with
  | none => (m, d)
  | some (ord, desc) =>
    if turnedAway d desc then (m, finish c.ring ord desc safeAns d)
    else if bufferLost c desc then (m, finish c.ring ord desc lostAns d)
    else
    let r := f ord desc m d
    match r.2.2 with
    | none => (r.1, r.2.1)
    | some a => (r.1, finish c.ring ord desc a r.2.1)

/-- Completes the command in progress with (ring, TAG) and opcode `opc`, whatever its order. -/
def completeTag (n tag opc : Nat) (a : Ans) (d : Dev) : Dev :=
  match ringAt d n with
  | none => d
  | some r =>
    match r.inProg.find? (fun e => dTag e.2 = tag && dOpcode e.2 = opc) with
    | none => d
    | some (ord, desc) => finish n ord desc a d

/-- The completion of a refused command (14 R421). -/
def refused : Ans := { status := stRefused }
/-- The completion of a command whose descriptor breaks its rules (14 R419). -/
def badDesc : Ans := { status := stBadDesc }

/-- Writes bytes into the host buffer of a descriptor (14 R418), at most LEN of them. -/
def hostBuf (desc : BitVec 512) (bs : List Byte) (d : Dev) : Dev :=
  { d with host := d.host.write (dHaddr desc) (bs.take (dLen desc)) }

/-! ## Starting and shutting down rings (14 R414, R415) -/

/-- A base that is 4 KiB aligned (14 R413). -/
def baseOk (b : W64) : Bool := b.toNat % 4096 = 0

/-- Starts ring `n` from index 0, or sets BAD_BASE and reports NOTE (14 R415, R417). -/
def startRing (n : Nat) (d : Dev) : Dev :=
  match ringAt d n with
  | none => d
  | some r =>
    if baseOk r.sqb && baseOk r.cqb then
      modRing n (fun r => { r with
        running := true, quiesced := false, restPend := false, err := 0
        head := 0, tail := 0, cqHead := 0, cqTail := 0, used := 0, phase := true, sinceClear := 0, bells := [] }) d
    else note 0x0B 0xFFFF n 0 (modRing n (fun r => { r with err := 3, restPend := false }) d)

/-- Stops fetching from ring `n`. Its commands in progress run on (14 R415); the long ones that end at once are ended by
the caller. -/
def stopRing (n : Nat) (d : Dev) : Dev :=
  modRing n (fun r => if r.running then { r with running := false, quiesced := false } else r) d

/-- Starts the halyard: its event ring and every ring whose RING_EN bit is set (14 R412, R415). -/
def startHalyard (d : Dev) : Dev :=
  let d := { d with hly := { d.hly with running := true, quiesced := false, restPend := false } }
  let d :=
    if baseOk d.evt.base then { d with evt := { d.evt with head := 0, tail := 0, used := 0, phase := true, err := 0 } }
    else { d with evt := { d.evt with err := 3 } }
  let d := (List.range 4).foldl (fun d n =>
    match ringAt d n with
    | some r => if r.en && r.quiesced then startRing n d else d
    | none => d) d
  evtDrain 65 d

/-- A gated control core is started when work arrives (15 R439). -/
def wakeCore (d : Dev) : Dev :=
  if d.integ.cores.any (· == .running) then d
  else
    match d.integ.cores.findIdx? (fun c => c == .clockGated || c == .powerGated) with
    | some k => { d with integ := { d.integ with cores := modAt (fun _ => .running) k d.integ.cores } }
    | none => d

end Sys2Proof.Machine
end

