-- ==== Sys2Proof/Machine/Weights.lean ====
section
/-! DEFINITION. Weight slots, sessions, manifests, the shroud and weight epochs (chapter 12), and the commands that act
on them. -/

namespace Sys2Proof.Machine

/-! ## Slots and their ranges -/

/-- Slots of a view that the geometry in force has (12 R359). -/
def slotCount (d : Dev) (adapter : Bool) : Nat :=
  match d.wgt.geom with
  | some (_, _, bn, _, _, an) => if adapter then an else bn
  | none => 0

/-- The range of slot `k` (12 R359). -/
def slotRange (d : Dev) (adapter : Bool) (k : Nat) : Nat × Nat :=
  match d.wgt.geom with
  | some (b0, bl, _, a0, al, _) => if adapter then (a0 + k * al, al) else (b0 + k * bl, bl)
  | none => (0, 0)

/-- Slot `k` of a view. -/
def slotAt (d : Dev) (adapter : Bool) (k : Nat) : WSlot :=
  ((if adapter then d.wgt.adapter else d.wgt.base)[k]?).getD WSlot.reset

/-- Changes slot `k` of a view. -/
def modSlot (adapter : Bool) (k : Nat) (f : WSlot → WSlot) (d : Dev) : Dev :=
  if adapter then { d with wgt := { d.wgt with adapter := modAt f k d.wgt.adapter } }
  else { d with wgt := { d.wgt with base := modAt f k d.wgt.base } }

/-- Every (view, slot) pair. -/
def allSlots : List (Bool × Nat) :=
  [(false, 0), (false, 1), (false, 2), (false, 3), (true, 0), (true, 1), (true, 2), (true, 3)]

/-- Crow's nest offset of a slot's register (12 R379). -/
def slotReg (adapter : Bool) (k : Nat) : Nat := (if adapter then 0x0C18 else 0x0C08) + 4 * k

/-- Ranges that no readout may show and no host write may reach (12 R360, R377): with a plan admitted every slot of its
views and every traced copy; without one every slot that is not EMPTY; and what the boot chain has yet to zero. -/
def sealedRanges (d : Dev) : List (Nat × Nat) :=
  (allSlots.filterMap fun s =>
    if s.2 < slotCount d s.1 ∧ (d.plan.run.isSome ∨ (slotAt d s.1 s.2).state ≠ .empty) then some (slotRange d s.1 s.2) else none)
  ++ d.wgt.traced ++ d.wgt.bootZero

/-- The range [a, a+n) touches a sealed range. -/
def touchesSealed (d : Dev) (a n : Nat) : Bool := (sealedRanges d).any fun r => overlaps a n r.1 r.2

/-- Ranges of the slots that are not EMPTY (12 R377). -/
def liveRanges (d : Dev) : List (Nat × Nat) :=
  (allSlots.filter fun s => decide (s.2 < slotCount d s.1) && (slotAt d s.1 s.2).state ≠ .empty).map fun s => slotRange d s.1 s.2

/-- The watch domain records the ranges of every slot that is not EMPTY (12 R377). -/
def recordRanges (d : Dev) : Dev := { d with wgt := { d.wgt with recorded := liveRanges d } }

/-- Sends a slot toward EMPTY: it becomes EMPTY once its lines have been overwritten with zeros (12 R377). -/
def emptySlot (adapter : Bool) (k : Nat) (d : Dev) : Dev :=
  modSlot adapter k (fun s => if s.state = .empty then s else { s with zeroing := true }) d

/-! ## Sessions -/

/-- Session `i`. -/
def sessionAt (d : Dev) (i : Nat) : Session := (d.wgt.sessions[i]?).getD Session.reset

/-- Changes session `i`. -/
def modSession (i : Nat) (f : Session → Session) (d : Dev) : Dev :=
  { d with wgt := { d.wgt with sessions := modAt f i d.wgt.sessions } }

/-- Ends session `i` with result `code`: the slot's new state, the NOTE, the keys erased, and the completion of a
streaming WGT_KEY (12 R367, R370; 14 R421; log entry 14). -/
def sessionEnd (i code : Nat) (d : Dev) : Dev :=
  let s := sessionAt d i
  if !s.isOpen then d
  else
    let d := modSlot s.adapter s.slot (fun w =>
      let w := { w with result := code }
      if s.repair then w
      else if code = 0 then
        match s.man, s.key with
        | some m, some k =>
          { w with state := .ready, priv := m.priv, bad := [], modelId := m.modelId, baseRef := m.baseRef,
                   version := m.version, planBind := k.planBind, crcBind := k.crcBind, shards := m.shards }
        | _, _ => w
      else if code = 7 then w
      else { w with zeroing := true }) d
    let d := recordRanges (modSession i (fun s => { Session.reset with noted := s.noted }) d)
    let d := note 0x08 (slotReg s.adapter s.slot) s.slot code d
    match s.cmd with
    | some (n, tag) => completeTag n tag 0x401 { status := if code = 8 then stAborted else stOk, aux := code } d
    | none => d

/-- Ends every open session with ABORTED (14 R405, 13 R393). -/
def abortSessions (d : Dev) : Dev := (List.range 4).foldl (fun d i => sessionEnd i 8 d) d

/-- The key store and session keys read back as zero: every CEK, every session's private key, the publisher keys and the
IDE keys go, and with the last IDE stream the IDE state changes (13 R393, 12 R367, 14 R404, R405, R428; log entry 20). -/
def zeroizeKeys (d : Dev) : Dev :=
  let d := if d.cxl.hIde.isEmpty then d else raise irqLink d
  { d with
    wgt := { d.wgt with
      sessions := d.wgt.sessions.map (fun s => { s with cek := false, pub := none })
      pubKeys := d.wgt.pubKeys.map fun _ => none }
    cxl := { d.cxl with hIde := [] } }

/-- Chunks of a shard (12 R366). -/
def shardChunks (s : Shard) : List (Nat × Nat) :=
  (List.range (ceilDiv s.length 65536)).map fun i => (s.index, i)

/-- Entry `i` of a manifest's shard table (12 R362). -/
def shardOf (bs : List Byte) (i : Nat) : Shard :=
  let v := leNat ((bs.drop (128 + 128 * i)).take 128)
  { index := bits v 1023 1012, dstOff := bits v 999 952, length := bits v 951 904, nonceBase := BitVec.ofNat 64 (bits v 903 840)
    resvZero := bits v 1011 1000 = 0 && bits v 839 512 = 0 }

/-- A manifest as its bytes spell it, least significant first (12 R362; 00 R8). `signer` is the key under which its signature
verifies. -/
def manifestOf (bs : List Byte) (signer : Option (BitVec 256)) : ManifestIn :=
  let v := leNat (bs.take 128)
  { magic := BitVec.ofNat 32 (bits v 1023 992), format := bits v 991 984, kind := bits v 983 982, priv := bit v 981, signed := bit v 980
    resvZero := bits v 979 976 = 0 && bits v 796 752 = 0 && bits v 703 512 = 0 && (bit v 980 || bits v 511 0 = 0)
    modelId := BitVec.ofNat 64 (bits v 975 912), baseRef := BitVec.ofNat 64 (bits v 911 848), version := BitVec.ofNat 32 (bits v 847 816)
    keyId := bits v 799 797, total := bits v 751 704, shards := (List.range (bits v 815 800)).map (shardOf bs), signer := signer }

/-- Bytes of the manifest whose header stands at the front of `bs`: the header and N_SHARD entries (12 R362). -/
def manifestSize (bs : List Byte) : Nat := 128 + 128 * bits (leNat (bs.take 128)) 815 800

/-- A key record as its 128 bytes spell it (12 R364; 00 R8). -/
def keyOf (bs : List Byte) (tagOk : Bool) : KeyIn :=
  let v := leNat (bs.take 128)
  { modelId := BitVec.ofNat 64 (bits v 767 704), planBind := BitVec.ofNat 64 (bits v 223 160)
    crcBind := BitVec.ofNat 64 (bits v 159 96), resvZero := bits v 95 0 = 0, tagOk := tagOk }

/-- The manifest is well formed for a slot of `len` bytes (12 R362, R363). -/
def manifestOk (m : ManifestIn) (len : Nat) : Bool :=
  m.magic = 0x574D4631 && m.format = 1 && decide (m.kind < 2) && m.resvZero
  && (!m.priv || (m.kind = 0)) && (m.kind = 1 || m.baseRef = 0)
  && decide (1 ≤ m.shards.length ∧ m.shards.length ≤ 4095)
  && (m.signed || m.keyId = 0)
  && (m.shards.zipIdx.all fun p => p.1.index = p.2 && p.1.resvZero && decide (0 < p.1.length) && p.1.dstOff % 65536 = 0
        && decide (p.1.dstOff + p.1.length ≤ len))
  && (m.shards.zipIdx.all fun p => m.shards.zipIdx.all fun q =>
        p.2 = q.2 || (!overlaps p.1.dstOff p.1.length q.1.dstOff q.1.length && p.1.nonceBase ≠ q.1.nonceBase))
  && m.total = (m.shards.map Shard.length).sum

/-- The manifest's signature is in order under the enrolled keys (12 R363). -/
def signatureOk (d : Dev) (m : ManifestIn) : Bool :=
  if m.signed then
    match (d.wgt.pubKeys[m.keyId]?).getD none, m.signer with
    | some k, some s => k = s
    | _, _ => false
  else !m.priv

/-- The result code that the key record and manifest give a session, 0 when every check passes (12 R363 to R365, R370,
R373): MANIFEST, SIGNATURE, KEY, then SLOT (log entry 14). -/
def keyResult (d : Dev) (s : Session) (k : KeyIn) (m : ManifestIn) : Nat :=
  let w := slotAt d s.adapter s.slot
  if !manifestOk m (slotRange d s.adapter s.slot).2 then 1
  else if !signatureOk d m then 2
  else if !k.tagOk || !k.resvZero || k.modelId ≠ m.modelId || (s.repair && (k.planBind ≠ w.planBind || k.crcBind ≠ w.crcBind)) then 3
  else if (m.kind = 1) ≠ s.adapter then 7
  else if s.repair && (m.modelId ≠ w.modelId || m.version ≠ w.version) then 7
  else 0

/-- Bytes of a manifest (12 R362). -/
def manifestBytes (m : ManifestIn) : Nat := 128 + 128 * m.shards.length

/-- Offset in the gateway object of sealed chunk `i` of shard `j`: the manifest, then the sealed images in shard order
(12 R366, R368; log entry 13). -/
def sealedOffset (m : ManifestIn) (j i : Nat) : Nat :=
  manifestBytes m + ((m.shards.take j).map fun s => s.length + 16 * ceilDiv s.length 65536).sum + 65552 * i

/-- The far port a gateway fetch leaves by: the preferred one while it is UP, else the other (12 R368, 09 R280). -/
def farPort (d : Dev) (sel : Nat) : Option Nat :=
  let up (dir : Nat) := d.tth.ports.findIdx? fun p => p.dir = dir && p.state = .up
  match up (4 + sel % 2) with
  | some p => some p
  | none => up (5 - sel % 2)

/-- The header of a GET of `n` bytes at offset `o` of a gateway's object, as the `q`-th piece of a fetch: the handle in JOB, 0xFFFF in
DST_RANK (12 R368). -/
def gatewayGet (d : Dev) (g : Nat × Nat × Nat) (q o n : Nat) : WireHdr :=
  sealHdr ⟨1, 0, 0, false, 0, 0, n - 1, d.tth.self, g.1, 0, 0xFFFF, 0, q, o, 0, g.2.1, 0, 0, 0, 0⟩

/-- The GET requests that fetch a manifest of `n` bytes from gateway `g` (12 R368; log entry 13). -/
def manifestGets (d : Dev) (g : Nat × Nat × Nat) (n : Nat) : List Msg :=
  match farPort d g.2.2 with
  | some p => (List.range (ceilDiv n 4096)).map fun q => ⟨p, gatewayGet d g q (4096 * q) (min 4096 (n - 4096 * q)), []⟩
  | none => []

/-- The GET requests that fetch the sealed chunk at the front of what session `s` wants (12 R368): up to 4,096 bytes each,
the object handle in JOB and 0xFFFF in DST_RANK. -/
def fetchGets (d : Dev) (s : Session) : List Msg :=
  match s.man, s.want with
  | some m, (j, i) :: _ =>
    match farPort d s.gateway.2.2, m.shards[j]? with
    | some p, some sh =>
      let n := (if 65536 * (i + 1) ≤ sh.length then 65536 else sh.length - 65536 * i) + 16
      (List.range (ceilDiv n 4096)).map fun q =>
        ⟨p, gatewayGet d s.gateway q (sealedOffset m j i + 4096 * q) (if 4096 * (q + 1) ≤ n then 4096 else n - 4096 * q), []⟩
    | _, _ => []
  | _, _ => []

/-- Sends the fetches of session `i`'s next chunk (12 R368). -/
def fetchNext (i : Nat) (d : Dev) : Dev :=
  { d with tth := { d.tth with out := d.tth.out ++ fetchGets d (sessionAt d i) } }

/-- Pads to whole 256-byte lines with zeros (12 R367; log entry 13). -/
def padLine (bs : List Byte) : List Byte := bs ++ List.replicate ((256 - bs.length % 256) % 256) 0

/-- A verified chunk is written into the slot, as whole lines (12 R367). -/
def chunkWrite (s : Session) (c : ChunkIn) (m : Mem) (d : Dev) : Mem × Dev :=
  match s.man.bind fun man => man.shards[c.shard]? with
  | some sh =>
    let r := writeMem m d.ecc ((slotRange d s.adapter s.slot).1 + sh.dstOff + 65536 * c.chunk) (padLine c.plain)
    (r.1, { d with ecc := r.2.1, wgt := { d.wgt with chunks := satAdd d.wgt.chunks 1 } })
  | none => (m, d)

/-- After the shard's last chunk its digest is compared with DIGEST: a failure refetches the shard once, a second one ends
the session with DIGEST; a repaired shard loses its BAD mark; the last shard ends the session with OK (12 R367, R369, R373). -/
def shardDone (i : Nat) (c : ChunkIn) (d : Dev) : Dev :=
  let s := sessionAt d i
  if s.want.any (fun w => w.1 = c.shard) then d
  else if !c.digestOk then
    let d := { d with wgt := { d.wgt with digFail := satAdd d.wgt.digFail 1 } }
    if s.digTries.contains c.shard then sessionEnd i 5 d
    else
      match s.man.bind fun man => man.shards[c.shard]? with
      | some sh => modSession i (fun s => { s with digTries := c.shard :: s.digTries, want := shardChunks sh ++ s.want }) d
      | none => d
  else
    let d := if s.repair then modSlot s.adapter s.slot (fun w => { w with bad := w.bad.filter (· ≠ c.shard) }) d else d
    if s.want.isEmpty then sessionEnd i 0 d else d

/-- A fetch that is not answered, or answered with NACK, is reissued up to three times (12 R369, R370). -/
def fetchFail (i : Nat) (d : Dev) : Dev :=
  let s := sessionAt d i
  if !s.isOpen || s.hostRoute || s.want.isEmpty then d
  else if s.fetchTries < 3 then
    let d := modSession i (fun s => { s with fetchTries := s.fetchTries + 1 }) d
    fetchNext i { d with wgt := { d.wgt with refetch := satAdd d.wgt.refetch 1 } }
  else sessionEnd i 6 d

/-- A gateway response with the next wanted chunk (12 R367 to R369). -/
def fetchArrived (i : Nat) (c : ChunkIn) (m : Mem) (d : Dev) : Mem × Dev :=
  let s := sessionAt d i
  if !s.isOpen || s.hostRoute || !s.cek || s.want.head? ≠ some (c.shard, c.chunk) then (m, d)
  else if c.nack then (m, fetchFail i d)
  else if !c.tagOk then
    let d := { d with wgt := { d.wgt with tagFail := satAdd d.wgt.tagFail 1 } }
    if s.tagTries < 2 then (m, fetchNext i (modSession i (fun s => { s with tagTries := s.tagTries + 1 }) d))
    else (m, sessionEnd i 4 d)
  else
    let r := chunkWrite s c m d
    let d := modSession i (fun s => { s with want := s.want.drop 1, tagTries := 0, fetchTries := 0 }) r.2
    (r.1, fetchNext i (shardDone i c d))

/-- One chunk that the shroud reads from the window (12 R367, R369). Answers whether its tag verified. -/
def windowChunk (i : Nat) (c : ChunkIn) (m : Mem) (d : Dev) : Mem × Dev × Bool :=
  let s := sessionAt d i
  if !s.isOpen || !s.want.contains (c.shard, c.chunk) then (m, d, true)
  else if !c.tagOk then
    let n := ((s.hostFails.find? fun f => f.1 = c.shard && f.2.1 = c.chunk).elim 0 fun f => f.2.2) + 1
    let d := { d with wgt := { d.wgt with tagFail := satAdd d.wgt.tagFail 1 } }
    let d := modSession i (fun s => { s with
      hostFails := (c.shard, c.chunk, n) :: s.hostFails.filter fun f => !(f.1 = c.shard && f.2.1 = c.chunk) }) d
    (m, if n < 3 then d else sessionEnd i 4 d, false)
  else
    let r := chunkWrite s c m d
    let d := modSession i (fun s => { s with want := s.want.erase (c.shard, c.chunk) }) r.2
    (r.1, shardDone i c d, true)

/-- The chunks of one WGT_CHUNKS in order; answers the first failing chunk (14 R421). -/
def windowChunks (i : Nat) : List ChunkIn → Mem → Dev → Mem × Dev × Option Nat
  | [], m, d => (m, d, none)
  | c :: cs, m, d =>
    let r := windowChunk i c m d
    let q := windowChunks i cs r.1 r.2.1
    (q.1, q.2.1, if r.2.2 then q.2.2 else some c.chunk)

/-- A slot that a session may open on (12 R361, R373, R378). -/
def mayOpen (d : Dev) (adapter : Bool) (k : Nat) (repair : Bool) : Bool :=
  let w := slotAt d adapter k
  let named := match d.wgt.pend with
    | some (b, a, _) => if adapter then a = k else b = k
    | none => false
  decide (k < slotCount d adapter) && !w.zeroing &&
    (if repair then w.state ≠ .empty && w.state ≠ .loading else (w.state = .empty || w.state = .ready) && !named)

/-! ## The commands -/

/-- WGT_OPEN (12 R364; 14 R421). -/
def wgtOpenDev (c : CmdRef) (pub : BitVec 256) : Dev → Dev :=
  runCmd c 0x400 fun desc d =>
    let a := dArg0 desc
    let adapter := bit a 0
    let k := bits a 2 1
    let repair := bit a 3
    match d.wgt.sessions.findIdx? (fun s => !s.isOpen) with
    | none => (d, refused)
    | some i =>
      if !mayOpen d adapter k repair then
        (note 0x08 (slotReg adapter k) k 7 (modSlot adapter k (fun w => { w with result := 7 }) d), { refused with aux := 7 })
      else
        let d := modSession i (fun _ => { Session.reset with
          isOpen := true, adapter := adapter, slot := k, repair := repair, hostRoute := bit a 4, pub := some pub }) d
        let d := if repair then d else modSlot adapter k (fun w => { w with state := .loading, bad := [] }) d
        let key := leBytes 32 pub.toNat
        (hostBuf desc (key ++ leBytes 64 (Config.identitySign key).toNat) (recordRanges d), { data := i })

/-- WGT_KEY (12 R363, R364, R368; 14 R421, R424). The key record stands in the descriptor's host buffer; the manifest in the
session's shroud window, or, on the gateway route, in what the gateway answered, `got`. On the gateway route the command
stays in progress while the session streams. -/
def wgtKeyDev (c : CmdRef) (tagOk : Bool) (got : List Byte) (signer : Option (BitVec 256)) : Mem → Dev → Mem × Dev :=
  runCmdLong c 0x401 fun _ desc m d =>
    let i := dArg0 desc % 4
    let s := sessionAt d i
    if !s.isOpen || s.man.isSome then (m, d, some refused)
    else
      let g := (bits (dArg1 desc) 23 0, bits (dArg1 desc) 55 24, bits (dArg1 desc) 56 56)
      let bs := if s.hostRoute then s.win.read 0 (manifestSize (s.win.read 0 128)) else got
      let d := if s.hostRoute then d else { d with tth := { d.tth with out := d.tth.out ++ manifestGets d g (manifestSize got) } }
      let k := keyOf (d.host.read (dHaddr desc) 128) tagOk
      let man := manifestOf bs signer
      let code := keyResult d s k man
      if code ≠ 0 then (m, sessionEnd i code d, some { aux := code })
      else
        let shards := if s.repair then man.shards.filter fun sh => (slotAt d s.adapter s.slot).bad.contains sh.index else man.shards
        let d := modSession i (fun s => { s with
          cek := true, pub := none, man := some man, key := some k, want := shards.flatMap shardChunks
          gateway := g }) d
        if s.repair && shards.isEmpty then (m, sessionEnd i 0 d, some {})
        else if s.hostRoute then (m, d, some {})
        else (m, fetchNext i (modSession i (fun s => { s with cmd := some (c.ring, c.tag) }) d), none)

/-- WGT_CHUNKS (12 R367, R369; 14 R421, R424). -/
def wgtChunksDev (c : CmdRef) (chunks : List ChunkIn) : Mem → Dev → Mem × Dev :=
  runCmdMem c 0x402 fun desc m d =>
    let i := dArg0 desc % 4
    let s := sessionAt d i
    if !s.isOpen || !s.hostRoute || !s.cek then (m, d, refused)
    else
      let first := bits (dArg1 desc) 31 0
      let cs := (chunks.take (bits (dArg2 desc) 10 0)).zipIdx.map fun p =>
        { p.1 with shard := bits (dArg0 desc) 13 2, chunk := first + p.2 }
      let r := windowChunks i cs m d
      let ended := !(sessionAt r.2.1 i).isOpen
      let fail := match r.2.2 with
        | some q => q
        | none => 2 ^ 64 - 1
      (r.1, r.2.1, { data := fail, aux := if ended then (slotAt r.2.1 s.adapter s.slot).result else 0 })

/-- WGT_CLOSE ends the session with ABORTED (12 R370). -/
def wgtCloseDev (c : CmdRef) : Dev → Dev :=
  runCmd c 0x403 fun desc d =>
    let i := dArg0 desc % 4
    if (sessionAt d i).isOpen then (sessionEnd i 8 d, {}) else (d, refused)

/-- The admitted plan is the one that slot is bound to, or the slot is unbound (12 R365). -/
def bindOk (w : WSlot) (h : PlanHdr) : Bool :=
  w.planBind = 0 || (w.planBind.toNat = h.planId && (w.crcBind = 0 || w.crcBind.toNat = h.crc))

/-- A switch to these slots at step S is refused (12 R365, R374; log entry 15). -/
def switchRefused (d : Dev) (b a s : Nat) : Bool :=
  match d.plan.run with
  | none => true
  | some r =>
    let bad (ad : Bool) (k : Nat) : Bool :=
      let w := slotAt d ad k
      decide (slotCount d ad ≤ k) || !(w.state = .ready || w.state = .current) || w.zeroing || !w.bad.isEmpty || !bindOk w r.hdr
    let hasA := decide (0 < slotCount d true)
    bad false b || (hasA && bad true a) || (hasA && (slotAt d true a).baseRef ≠ (slotAt d false b).modelId)
      || (if r.begun then decide (s ≤ r.step) else decide (s < r.step))

/-- WGT_SWITCH requests a switch, or is refused with a NOTE; a second request supersedes the first with a NOTE (12 R374). -/
def wgtSwitchDev (c : CmdRef) : Dev → Dev :=
  runCmd c 0x404 fun desc d =>
    let b := bits (dArg0 desc) 1 0
    let a := bits (dArg0 desc) 3 2
    if switchRefused d b a (dArg1 desc) then (note 0x08 0x0C04 0xFFFF 0 d, refused)
    else
      let d := if d.wgt.pend.isSome then note 0x08 0x0C04 0xFFFF 0 d else d
      ({ d with wgt := { d.wgt with pend := some (b, a, dArg1 desc) } }, {})

/-- PUB_KEY with ARG0[3] = 1 enrols a publisher key (12 R363). -/
def pubKeyEnrolDev (c : CmdRef) (key : BitVec 256) : Dev → Dev :=
  runCmdIf (fun x => bit (dArg0 x) 3) c 0x405 fun desc d =>
    ({ d with wgt := { d.wgt with pubKeys := modAt (fun _ => some key) (dArg0 desc % 8) d.wgt.pubKeys } }, {})

/-- PUB_KEY with ARG0[3] = 0 clears a slot (12 R363). -/
def pubKeyClearDev (c : CmdRef) : Dev → Dev :=
  runCmdIf (fun x => !bit (dArg0 x) 3) c 0x405 fun desc d =>
    ({ d with wgt := { d.wgt with pubKeys := modAt (fun _ => none) (dArg0 desc % 8) d.wgt.pubKeys } }, {})

/-- DIGEST_PERIOD (12 R371); out of range is BAD_DESC (14 R421). -/
def digestPeriodDev (c : CmdRef) : Dev → Dev :=
  runCmd c 0x406 fun desc d =>
    let p := bits (dArg0 desc) 16 0
    if 60 ≤ p ∧ p ≤ 86400 then ({ d with wgt := { d.wgt with period := p } }, {}) else (d, badDesc)

/-- One mismatch that the digest checks at rest found: slot code (0 to 3 base, 4 to 7 adapter) and shard (12 R371). -/
def digestBad (d : Dev) (x : Nat × Nat) : Dev :=
  let adapter := decide (4 ≤ x.1)
  let k := x.1 % 4
  let w := slotAt d adapter k
  if w.state = .ready ∨ w.state = .current ∨ w.state = .retiring then
    let d := modSlot adapter k (fun w => if w.bad.contains x.2 then w else { w with bad := w.bad ++ [x.2] }) d
    note 0x08 0x0C34 k x.2 { d with wgt := { d.wgt with scrubFail := satAdd d.wgt.scrubFail 1 } }
  else d

/-- A host write into the shroud window of BAR2 (14 R424). -/
def windowWriteDev (off : Nat) (data : List Byte) (d : Dev) : Dev :=
  let i := off / 0x8000000
  let o := off % 0x8000000
  let s := sessionAt d i
  if s.isOpen && s.hostRoute && decide (o + data.length ≤ 0x4084000) then
    modSession i (fun s => { s with win := s.win.write o data }) d
  else if s.noted then d
  else note 0x08 0xFFFF i 0 (modSession i (fun s => { s with noted := true }) d)

/-- WGT_OPEN (12 R364). -/
def execWgtOpen (c : CmdRef) (pub : BitVec 256) (s : State) : Out := onDev (wgtOpenDev c pub) s
/-- WGT_KEY (12 R364). -/
def execWgtKey (c : CmdRef) (k : KeyCheck) (got : List Byte) (s : State) : Out := onBoth (wgtKeyDev c k.tagOk got k.signer) s
/-- WGT_CHUNKS (14 R424). -/
def execWgtChunks (c : CmdRef) (chunks : List ChunkIn) (s : State) : Out := onBoth (wgtChunksDev c chunks) s
/-- WGT_CLOSE (14 R421). -/
def execWgtClose (c : CmdRef) (s : State) : Out := onDev (wgtCloseDev c) s
/-- WGT_SWITCH (12 R374). -/
def execWgtSwitch (c : CmdRef) (s : State) : Out := onDev (wgtSwitchDev c) s
/-- PUB_KEY_ENROL (12 R363). -/
def execPubKeyEnrol (c : CmdRef) (key : BitVec 256) (s : State) : Out := onDev (pubKeyEnrolDev c key) s
/-- PUB_KEY_CLEAR (12 R363). -/
def execPubKeyClear (c : CmdRef) (s : State) : Out := onDev (pubKeyClearDev c) s
/-- DIGEST_PERIOD (12 R371). -/
def execDigestPeriod (c : CmdRef) (s : State) : Out := onDev (digestPeriodDev c) s
/-- SHROUD_WINDOW_WRITE (14 R424). -/
def execShroudWindowWrite (off : Nat) (data : List Byte) (s : State) : Out := onDev (windowWriteDev off data) s
/-- WEIGHT_FETCH_RESPONSE (12 R368). -/
def execWeightFetchResponse (i : Nat) (c : ChunkIn) (s : State) : Out := onBoth (fetchArrived i c) s
/-- WEIGHT_FETCH_TIMEOUT (12 R369). -/
def execWeightFetchTimeout (i : Nat) (s : State) : Out := onDev (fetchFail i) s
/-- DIGEST_SCRUB (12 R371). -/
def execDigestScrub (bad : List (Nat × Nat)) (s : State) : Out := onDev (fun d => bad.foldl digestBad d) s

end Sys2Proof.Machine
end

