-- ==== Sys2Proof/Machine/Halyard.lean ====
section
/-! DEFINITION. The halyard's own operation: enabling and shutting down, doorbells, fetching, coalescing, event-ring and
interrupt registers (14 R411 to R430), and the commands of class 0x0 that read no engine (R421, R422). -/

namespace Sys2Proof.Machine

/-! ## Shutting down -/

/-- An in-service test ends with ABORTED (13 R392; 14 R415). -/
def bistAbort (d : Dev) : Dev :=
  if d.integ.bistRun then { d with integ := { d.integ with bistRun := false, bistResult := 3, bistCmd := none } } else d

/-- The commands of ring `n` that a shut-down ends at once with ABORTED: WGT_KEY and WGT_CHUNKS of a streaming session, and
BIST_RUN (14 R415). -/
def shutEnds (n : Nat) (d : Dev) : Dev :=
  let es := (ringAt d n).elim [] Ring.inProg
  es.foldl (fun d e =>
    let i := dArg0 e.2 % 4
    if dOpcode e.2 = 0x401 then
      if (sessionAt d i).cmd = some (n, dTag e.2) then sessionEnd i 8 d else d
    else if dOpcode e.2 = 0x402 then
      if (sessionAt d i).isOpen then finish n e.1 e.2 { status := stAborted, aux := 8 } (sessionEnd i 8 d) else d
    else if dOpcode e.2 = 0x601 then finish n e.1 e.2 { status := stAborted, data := 3 } (bistAbort d)
    else d) d

/-- Shuts ring `n` down: it stops fetching, and the commands that end at once end (14 R415). -/
def shutRing (n : Nat) (d : Dev) : Dev :=
  match ringAt d n with
  | some r => if r.running then shutEnds n (stopRing n d) else d
  | none => d

/-- RING_EN bit `n` written 0: a shut-down starts, or a latched enable is cancelled (14 R414, R415). -/
def ringDisable (n : Nat) (d : Dev) : Dev :=
  match ringAt d n with
  | some r =>
    let d := modRing n (fun r => { r with en := false }) d
    if r.restPend then modRing n (fun r => { r with restPend := false }) d else shutRing n d
  | none => d

/-- RING_EN bit `n` written 1: the ring starts, or the enable is latched behind a shut-down (14 R414, R415). -/
def ringEnableDev (n : Nat) (d : Dev) : Dev :=
  match ringAt d n with
  | some r =>
    let d := modRing n (fun r => { r with en := true }) d
    if r.running then d
    else if !(d.hly.en && d.hly.running) || d.hly.restPend then d
    else if r.quiesced then startRing n d
    else modRing n (fun r => { r with restPend := true }) d
  | none => d

/-- HLY_CTRL.EN written 1: the halyard starts once firmware accepts it, or the enable is latched; EN reads 1 either way (00 R13; 14 R412,
R414). -/
def halyardEnableDev (d : Dev) : Dev :=
  if !d.fw.ready then d
  else if d.hly.en then d
  else if d.hly.quiesced then startHalyard { d with hly := { d.hly with en := true } }
  else { d with hly := { d.hly with en := true, restPend := true } }

/-- HLY_CTRL.EN written 0: every ring shuts down, or a latched enable is cancelled (14 R414, R415). -/
def halyardDisable (d : Dev) : Dev :=
  if d.hly.restPend then { d with hly := { d.hly with en := false, restPend := false } }
  else if d.hly.en then
    (List.range 4).foldl (fun d n => shutRing n (modRing n (fun r => { r with restPend := false }) d))
      { d with hly := { d.hly with en := false, quiesced := false } }
  else d

/-- The halyard as a whole has quiesced: every ring has, and the event ring has drained (14 R415). -/
def halyardDrained (d : Dev) : Bool :=
  (!d.hly.en || d.hly.restPend) && d.hly.running && d.hly.rings.all Ring.quiesced && d.evt.held.all (fun h => recClass h = clsFatal)

/-- The halyard's shut-down completes; a latched enable restarts it at once (14 R414, R415). -/
def halyardQuiesce (d : Dev) : Dev :=
  if halyardDrained d then
    let pend := d.hly.restPend
    let d := { d with hly := { d.hly with running := false, quiesced := true, restPend := false } }
    if pend then startHalyard d else d
  else d

/-- The last command of shut-down ring `n` has finished: QUIESCED is set and a latched enable restarts the ring; the
halyard's own shut-down may complete with it (14 R414, R415). -/
def shutCompleteDev (n : Nat) (d : Dev) : Dev :=
  match ringAt d n with
  | none => d
  | some r =>
    if !r.running && !r.quiesced && r.inProg.isEmpty && r.held.isEmpty then
      let d := modRing n (fun r => { r with quiesced := true, restPend := false }) d
      if r.restPend then startRing n d else halyardQuiesce d
    else halyardQuiesce d

/-! ## Doorbells and fetching -/

/-- A ring fault: ERR set, the ring shut down, and a NOTE (14 R417). -/
def ringFault (n err : Nat) (d : Dev) : Dev :=
  note 0x0B 0xFFFF n err (shutRing n (modRing n (fun r => { r with err := err }) d))

/-- A doorbell: the whole new tail, or BAD_TAIL (14 R416, R417). It wakes a gated core (15 R439). -/
def doorbellDev (n tail : Nat) (d : Dev) : Dev :=
  match ringAt d n with
  | none => d
  | some r =>
    let ord := d.hly.order
    let d := modRing n (fun r => { r with tail := tail % 2 ^ 16, bells := if tail % 2 ^ 16 = r.head then [] else r.bells ++ [(tail % 2 ^ 16, ord)] }) (wakeCore d)
    let d := { d with hly := { d.hly with order := ord + 1 } }
    if r.running && decide (2 ^ r.sqLog2 ≤ tail % 2 ^ 16) then ringFault n 1 d else d

/-- The command codes of 14 R421 and 15 R458. -/
def knownOpcode (o : Nat) : Bool :=
  decide (o ≤ 0x004 ∨ o = 0x100 ∨ o = 0x101 ∨ (0x200 ≤ o ∧ o ≤ 0x205) ∨ o = 0x300 ∨ o = 0x301 ∨ (0x400 ≤ o ∧ o ≤ 0x406)
    ∨ o = 0x500 ∨ o = 0x501 ∨ o = 0x600 ∨ o = 0x601 ∨ o = 0x700 ∨ (0x800 ≤ o ∧ o ≤ 0x809))

/-- The argument bits that a command uses, as masks of ARG0 to ARG3 (14 R421, R423; 15 R458). -/
def argMasks (desc : BitVec 512) : Nat × Nat × Nat × Nat :=
  let o := dOpcode desc
  let all := 2 ^ 64 - 1
  let addr := 2 ^ 48 - 1
  if o = 0x002 ∨ o = 0x003 then (7, 0, 0, 0)
  else if o = 0x004 then (0xFFFF, 0, 0, 0)
  else if o = 0x100 ∨ o = 0x101 ∨ o = 0x200 ∨ o = 0x201 then (addr, 0, 0, 0)
  else if o = 0x202 ∨ o = 0x301 then (addr, all, 0, 0)
  else if o = 0x203 then (0, all, 0, 0)
  else if o = 0x204 then (0xFFFF, 0, 0, 0)
  else if o = 0x205 then (0xFFFF, 0xFFFFFFFF, 0, 0)
  else if o = 0x300 then
    let op := dArg0 desc % 16
    if op = 0 then (0xF, 2 ^ 40 - 1, 0xFFFFFFFF, 0)
    else if op = 1 then (0xF, all, 0, 0)
    else if op = 4 then (0xF, all, all, 0xFFFF)
    else (0xF, 0, 0, 0)
  else if o = 0x400 then (0x1F, 0, 0, 0)
  else if o = 0x401 then (3, 2 ^ 57 - 1, 0, 0)
  else if o = 0x402 then (0x3FFF, 0xFFFFFFFF, 0x3FF00000000 + 0x7FF, 0)
  else if o = 0x403 then (3, 0, 0, 0)
  else if o = 0x404 then (0xF, all, 0, 0)
  else if o = 0x405 then (0xF, 0, 0, 0)
  else if o = 0x406 then (0x1FFFF, 0, 0, 0)
  else if o = 0x500 then (0xF, all, 0, 0)
  else if o = 0x501 then (3, 0, 0, 0)
  else if o = 0x600 then (0xFFFFFF, all, 0, 0)
  else if o = 0x601 then (0xFFFFF, 0, 0, 0)
  else if o = 0x700 then (addr, all, 0, 0)
  else if o = 0x800 then (3, 0, 0, 0)
  else if o = 0x803 ∨ o = 0x806 then (1, 0, 0, 0)
  else if o = 0x804 then (all, all, all, all)
  else if o = 0x807 then (3, 0, 0, 0)
  else (0, 0, 0, 0)

/-- Bytes a command moves through its buffer at least; none: LEN must be 0 (14 R421; 15 R458; log entry 11). -/
def bufferNeed (d : Dev) (desc : BitVec 512) : Option Nat :=
  let o := dOpcode desc
  if o = 0x001 then some 256
  else if o = 0x002 then some 480
  else if o = 0x003 then some (((d.integ.buckets[dArg0 desc % 8]?).map Bucket.regions).getD 0)
  else if o = 0x004 then some (64 * (bits (dArg0 desc) 15 8 + 1))
  else if o = 0x100 ∨ o = 0x101 ∨ o = 0x200 ∨ o = 0x204 ∨ o = 0x802 ∨ o = 0x805 ∨ o = 0x806 then some 1
  else if o = 0x400 then some 96
  else if o = 0x401 then some 128
  else if o = 0x405 then if bit (dArg0 desc) 3 then some 32 else none
  else if o = 0x803 then some 32
  else if o = 0x804 then some 512
  else none

/-- The descriptor keeps the rules of its form: reserved bits, unused arguments, LEN and HADDR, and the ranges that
R421 answers with BAD_DESC (14 R418, R419, R421). -/
def descOk (d : Dev) (desc : BitVec 512) : Bool :=
  let m := argMasks desc
  let o := dOpcode desc
  let clean (a mask : Nat) : Bool := a &&& mask = a
  (desc.extractLsb' 496 2) = 0 && (desc.extractLsb' 0 128) = 0
  && clean (dArg0 desc) m.1 && clean (dArg1 desc) m.2.1 && clean (dArg2 desc) m.2.2.1 && clean (dArg3 desc) m.2.2.2
  && dHaddr desc % 64 = 0 && (dLen desc ≠ 0 || dHaddr desc = 0)
  && (match bufferNeed d desc with
      | none => dLen desc = 0
      | some n => decide (n ≤ dLen desc))
  && (if o = 0x100 ∨ o = 0x101 then dLen desc % 16 = 0 && decide (dLen desc ≤ 0x4000000) && dArg0 desc % 16 = 0 else true)
  && (if o = 0x200 then dArg0 desc % 256 = 0 else true)
  && (if o = 0x300 then decide (dArg0 desc ≤ 4) else true)
  && (if o = 0x402 then decide (1 ≤ bits (dArg2 desc) 10 0 ∧ bits (dArg2 desc) 10 0 ≤ 1024) else true)

/-- What the device answers at once to a descriptor it does not run: BAD_OPCODE, SAFE or BAD_DESC, in this order (14 R419,
R421, R425; log entry 11). -/
def atOnce (d : Dev) (desc : BitVec 512) : Option Ans :=
  if !knownOpcode (dOpcode desc) then some { status := stBadOpcode }
  else if turnedAway d desc then some safeAns
  else if !descOk d desc then some badDesc
  else none

/-- The ring may fetch its next descriptor: it runs, holds fewer than 16 commands, has no held completion, and its host
can be reached (14 R416, R417, R420). -/
def mayFetch (d : Dev) (r : Ring) : Bool :=
  hLinkUp d && r.running && decide (r.head ≠ r.tail) && decide (r.inProg.length < 16) && r.held.isEmpty

/-- The order of arrival of the doorbell that covers a ring's next descriptor (14 R420). -/
def bellOf (r : Ring) : Nat := ((r.bells.head?).map Prod.snd).getD 0

/-- Another ring has a command ready whose doorbell arrived before that of ring `n` (14 R420). -/
def bellBefore (n : Nat) (r : Ring) (d : Dev) : Bool :=
  d.hly.rings.zipIdx.any fun x => x.2 ≠ n && mayFetch d x.1 && decide (bellOf x.1 < bellOf r)

/-- The doorbells left once a ring's head is `h` and its tail `t`: those that `h` has reached are used up (14 R420). -/
def bellsFrom (h t : Nat) (bs : List (Nat × Nat)) : List (Nat × Nat) := if h = t then [] else bs.dropWhile fun b => b.1 = h

/-- The next descriptor of ring `n` arrives and its command starts, when no other ring's turn is before it; or the host completed the fetch with an error
(14 R416, R417, R420). -/
def fetchDev (n : Nat) (x : Option (BitVec 512)) (d : Dev) : Dev :=
  match ringAt d n with
  | none => d
  | some r =>
    if !mayFetch d r || bellBefore n r d then d
    else
      match x with
      | none => ringFault n 2 d
      | some desc =>
        let ord := d.hly.order
        let d := modRing n (fun r => { r with
          head := (r.head + 1) % 2 ^ r.sqLog2, bells := bellsFrom ((r.head + 1) % 2 ^ r.sqLog2) r.tail r.bells, inProg := r.inProg ++ [(ord, desc)] }) d
        let d := { d with hly := { d.hly with order := ord + 1 } }
        match atOnce d desc with
        | some a => finish n ord desc a d
        | none => d

/-- HLY_CQ_HEAD: entries free, and held completions are written (14 R417). A head at or above the ring size is a reserved
code: it is not stored and counts in CRW_RSVD_WR (00 R16; log entry 11). -/
def cqHeadDev (n head : Nat) (d : Dev) : Dev :=
  match ringAt d n with
  | none => d
  | some r =>
    let size := 2 ^ r.cqLog2
    if size ≤ head then { d with gen := { d.gen with rsvdWr := satAdd d.gen.rsvdWr 1 } }
    else
      let freed := (head + size - r.cqHead) % size
      cqDrain n (r.held.length) (modRing n (fun r => { r with cqHead := head, used := r.used - min freed r.used }) d)

/-- The event ring's head: entries free, and held records are written (14 R427). -/
def evtHeadDev (head : Nat) (d : Dev) : Dev :=
  let size := 2 ^ d.evt.log2
  if size ≤ head then { d with gen := { d.gen with rsvdWr := satAdd d.gen.rsvdWr 1 } }
  else
    let freed := (head + size - d.evt.head) % size
    evtDrain (d.evt.held.length) { d with evt := { d.evt with head := head, used := d.evt.used - min freed d.evt.used } }

/-- TIME us after an unsignalled completion the ring's cause bit is raised (14 R430). -/
def coalTimerDev (n : Nat) (d : Dev) : Dev :=
  match ringAt d n with
  | some r => if 0 < r.sinceClear ∧ r.coalTime ≠ 0 then raise (irqCq n) d else d
  | none => d

/-! ## Interrupt and debug registers -/

/-- Unmasking vector `v` sends its pending message while its cause is still set (14 R429). -/
def msixUnmaskDev (v : Nat) (d : Dev) : Dev :=
  if 16 ≤ v then d
  else
    let q := d.irq
    let w := q.table.get (4 * v + 3)
    let q' := { q with table := q.table.set (4 * v + 3) (w &&& 0xFFFFFFFE) }
    if q.pba.getLsbD v then
      let q' := { q' with pba := q'.pba &&& ~~~(BitVec.ofNat 16 (2 ^ v)) }
      if decide (v < 10) && (q.cause &&& q.mask).getLsbD v then { d with irq := { q' with sent := q'.sent ++ [v] } }
      else { d with irq := q' }
    else { d with irq := q' }

/-- Writing 1 to cause bits clears them, except those that hardware sets in the same watch cycle (00 R14, 14 R428); a ring
whose bit clears counts its completions afresh (14 R430). -/
def causeClearDev (w : W32) (hw : BitVec 10) (d : Dev) : Dev :=
  let c := BitVec.ofNat 10 w.toNat
  let d := (List.range 4).foldl (fun d n => if c.getLsbD n then modRing n (fun r => { r with sinceClear := 0 }) d else d) d
  { d with irq := irqSet ((d.irq.cause &&& ~~~c) ||| hw) d.irq.mask d.irq }

/-- IRQ_MASK: causes already set that become enabled send their messages (14 R429). -/
def maskWriteDev (w : W32) (d : Dev) : Dev := { d with irq := irqSet d.irq.cause (BitVec.ofNat 10 w.toNat) d.irq }

/-- A read of DBG_WTIME_LO latches bits [63:32] of the watch time (14 R411). -/
def wtimeReadDev (d : Dev) : Dev := { d with dbg := { d.dbg with wtimeHi := BitVec.ofNat 32 (d.dbg.now / 2 ^ 32) } }

/-! ## Commands of class 0x0 -/

/-- Main arrays that are absent: those of an absent group, and those lost with no ballast (14 R422). -/
def groupAbsent (d : Dev) (g : Nat) : Bool := ((d.gpwr[g]?).map GroupPwr.absent).getD true

/-- Addressable HBM (14 R422, 08 R253). -/
def hbmDiscovered (d : Dev) : Nat := hbmBytes * (8 - d.integ.stackAbsent.length)

/-- The mapped window in units of 256 MiB: every ONLINE or DRAINING bay (08 R255, R269). -/
def gonWin (d : Dev) : Nat :=
  ((d.gon.bays.filter fun b => b.state = .online || b.state = .draining).map Bay.cap).sum

/-- A port that discovery counts as UP (14 R422). -/
def portUp (p : Port) : Bool := p.state = .up

/-- A list of flags as a bit mask, element i at bit i. -/
def maskOf (bs : List Bool) : Nat := bs.zipIdx.foldl (fun a p => a + ofBool p.1 * 2 ^ p.2) 0

/-- NOP (14 R421). -/
def nopDev (c : CmdRef) : Dev → Dev := runCmd c 0x000 fun _ d => (d, {})

/-- COUNTER_READ: one level byte per region (13 R385, 14 R421). -/
def counterReadDev (c : CmdRef) : Dev → Dev :=
  runCmd c 0x003 fun desc d =>
    match d.integ.buckets[dArg0 desc % 8]? with
    | some b => (hostBuf desc ((List.range b.regions).map fun r => (b.level.get r).truncate 8) d, { data := b.regions })
    | none => (d, {})

/-- The 64 bytes of a repair report with its CRC (13 R394). -/
def repairBytes (r : Repair) : List Byte :=
  let w := r.kind % 256 * 2 ^ 504 + r.service % 65536 * 2 ^ 488 + r.site % 65536 * 2 ^ 472 + r.source % 16 * 2 ^ 468
    + r.action % 16 * 2 ^ 464 + r.addr % 2 ^ 48 * 2 ^ 416 + r.bit % 256 * 2 ^ 408 + r.left % 65536 * 2 ^ 392
    + r.sig.toNat * 2 ^ 328 + r.fseq % 2 ^ 64 * 2 ^ 264
  leBytes 64 (w + crc32c (leBytes 64 w))

/-- REPAIR_READ: held repair reports, oldest first (13 R394, 14 R421). -/
def repairReadDev (c : CmdRef) : Dev → Dev :=
  runCmd c 0x004 fun desc d =>
    let rs := (d.integ.repairs.drop (dArg0 desc % 256)).take (bits (dArg0 desc) 15 8 + 1)
    (hostBuf desc (rs.flatMap repairBytes) d, { data := d.integ.repairs.length })

/-- HALYARD_ENABLE (14 R414). -/
def execHalyardEnable (s : State) : Out := onDev halyardEnableDev s
/-- HALYARD_SHUT_DOWN (14 R415). -/
def execHalyardShutDown (s : State) : Out := onDev halyardDisable s
/-- RING_ENABLE (14 R415). -/
def execRingEnable (n : Nat) (s : State) : Out := onDev (ringEnableDev n) s
/-- RING_SHUT_DOWN (14 R415). -/
def execRingShutDown (n : Nat) (s : State) : Out := onDev (ringDisable n) s
/-- SHUT_DOWN_COMPLETE (14 R414). -/
def execShutDownComplete (n : Nat) (s : State) : Out := onDev (shutCompleteDev n) s
/-- DOORBELL (14 R416). -/
def execDoorbell (n tail : Nat) (s : State) : Out := onDev (doorbellDev n tail) s
/-- COMMAND_FETCH (14 R420). -/
def execCommandFetch (n : Nat) (x : Option (BitVec 512)) (s : State) : Out := onDev (fetchDev n x) s
/-- CQ_HEAD_WRITE (14 R417). -/
def execCqHeadWrite (n head : Nat) (s : State) : Out := onDev (cqHeadDev n head) s
/-- EVENT_RING_HEAD_WRITE (14 R427). -/
def execEventRingHeadWrite (head : Nat) (s : State) : Out := onDev (evtHeadDev head) s
/-- COALESCING_TIMER (14 R430). -/
def execCoalescingTimer (n : Nat) (s : State) : Out := onDev (coalTimerDev n) s
/-- MSIX_UNMASK (14 R429). -/
def execMsixUnmask (v : Nat) (s : State) : Out := onDev (msixUnmaskDev v) s
/-- IRQ_CAUSE_CLEAR (14 R428). -/
def execIrqCauseClear (w : W32) (hw : BitVec 10) (s : State) : Out := onDev (causeClearDev w hw) s
/-- IRQ_MASK_WRITE (14 R429). -/
def execIrqMaskWrite (w : W32) (s : State) : Out := onDev (maskWriteDev w) s
/-- DBG_WTIME_LO_READ (14 R411). -/
def execDbgWtimeLoRead (s : State) : Out := onDev wtimeReadDev s
/-- NOP (14 R421). -/
def execNop (c : CmdRef) (s : State) : Out := onDev (nopDev c) s
/-- COUNTER_READ (13 R385). -/
def execCounterRead (c : CmdRef) (s : State) : Out := onDev (counterReadDev c) s
/-- REPAIR_READ (13 R394). -/
def execRepairRead (c : CmdRef) (s : State) : Out := onDev (repairReadDev c) s

end Sys2Proof.Machine
end

