-- ==== Sys2Proof/Machine/PlanOps.lean ====
section
/-! DEFINITION. What many commands do to the running plan: contingency events, stopping it, the ranges it owns, and what
the host may reach (07 R237 to R241, 14 R423, R431, 11 R345). -/

namespace Sys2Proof.Machine

/-- Changes the run, when a plan is admitted. -/
def modRun (f : Run → Run) (d : Dev) : Dev := { d with plan := { d.plan with run := d.plan.run.map f } }

/-! ## Ranges -/

/-- Placement ranges of the admitted plan with one of these USE codes (08 R246). -/
def placesOf (d : Dev) (uses : List Nat) : List (Nat × Nat) :=
  match d.plan.run with
  | some r => (r.body.places.filter fun p => uses.contains p.use).map fun p => (p.base, p.len)
  | none => []

/-- Parts of [a, a+n) that MEM_WRITE, PLAN_LOAD and HDM_MAP may not reach: with a plan admitted, everything outside its
ranges of USE 0x0, 0x5 or 0x6 and every weight slot and traced copy; without one, every retained slot (14 R423, 12 R377). -/
def hostBarred (d : Dev) (a n : Nat) : List (Nat × Nat) :=
  let outside := if d.plan.run.isSome then cutRanges [(a, n)] (placesOf d [0, 5, 6]) else []
  outside ++ meetRanges [(a, n)] (sealedRanges d)

/-- A plan stop, replacement or restore has left part of the host-visible range outside the allowed ranges: that part is
unmapped with a NOTE (14 R431). -/
def hdmCheck (d : Dev) : Dev :=
  let parts := if d.cxl.hdmLen = 0 then [] else hostBarred d d.cxl.hdmBase (d.cxl.hdmLen * unit256)
  let new := cutRanges parts d.cxl.hdmGone
  if new.isEmpty then d
  else note 0x0B 0x300C 0xFFFF 0 { d with cxl := { d.cxl with hdmGone := d.cxl.hdmGone ++ new } }

/-! ## Snapshot targets (11 R345) -/

/-- Abandons target `i` of the snapshot in progress (11 R345). -/
def targetAbort (i : Nat) (d : Dev) : Dev :=
  match d.snap.drain with
  | some r =>
    if bit r.aborted i || bit r.ok i then d
    else
      note 0x07 0x0B28 i 0 { d with snap := { d.snap with
        drain := some { r with aborted := r.aborted + 2 ^ i }, abort := satAdd d.snap.abort 1 } }
  | none => d

/-- A finished or abandoned drain lets copies go: SOURCE becomes CURRENT, HELD becomes OFF (11 R339). -/
def releaseCopy : CopyState → CopyState
  | .source => .current
  | .held => .off
  | c => c

/-- HELD root buffers return to FREE when the snapshot that named them is done or abandoned (05 R176; 11 R339). -/
def rootsRelease (d : Dev) : Dev :=
  { d with curv := { d.curv with sets := d.curv.sets.map fun s =>
      { s with bufs := s.bufs.map (·.map fun b => if b = .held then .free else b) } } }

/-- The drain has ended: every copy it held goes, and a latched enable takes effect (11 R339, R349). -/
def drainEnd (d : Dev) : Dev :=
  rootsRelease { d with
    snap := { d.snap with drain := none, restPend := false, disabled := d.snap.disabled && !d.snap.restPend }
    tack := { d.tack with copies := d.tack.copies.map fun c => (releaseCopy c.1, releaseCopy c.2), waits := [] } }

/-- Targets of TGT that are neither complete nor abandoned. -/
def targetsOpen (d : Dev) (x : Drain) : List Nat :=
  match d.plan.run with
  | some r => (List.range 3).filter fun i => bit r.body.tack.tgt i && !bit x.aborted i && !bit x.ok i
  | none => []

/-- The snapshot in progress is abandoned at every target: its slots are counted and its REPORT is owed (11 R341, R345, R347). -/
def drainAbandon (d : Dev) : Dev :=
  match d.snap.drain with
  | some x =>
    let d := drainEnd { d with snap := { d.snap with abort := satAdd d.snap.abort (targetsOpen d x).length } }
    { d with snap := { d.snap with owed := some (x.step, x.cost) } }
  | none => d

/-! ## Stopping -/

/-- The plan ends: no step runs, open sessions end with ABORTED, a pending weight switch is discarded with a NOTE, the snapshot in
progress is abandoned, the geometry of non-EMPTY slots stays, the traced copies wait to be zeroed, and the host-visible range is
checked (05 R190; 07 R237, R241; 12 R370, R377, R378). -/
def planEnd (d : Dev) : Dev :=
  match d.plan.run with
  | none => d
  | some _ =>
    let d := drainAbandon d
    let d := { d with
      plan := { d.plan with run := none, req := none, stopping := !d.wgt.traced.isEmpty || d.plan.latched.isSome }
      snap := { d.snap with owed := none, next := none, forced := [] } }
    let d := abortSessions d
    let d := { d with curv := { d.curv with sets := [], staleSet := 0xFFFF } }
    let d := if d.wgt.pend.isSome then note 0x08 0x0C04 0xFFFF 0 { d with wgt := { d.wgt with pend := none } } else d
    hdmCheck d

/-- The report of a stop: class, and STOPPED set (14 R426). -/
def stopRep (cls arg : Nat) : Rep := ⟨cls, 0x04, 0x0704, 0xFFFF, arg, true⟩

/-! ## Contingency events (07 R238, R241) -/

/-- The entry of the running plan or variant for an event and its target: the first that matches (07 R241). -/
def contFor (r : Run) (event target : Nat) : Option Cont := r.body.conts.find? fun c => c.event = event && c.target = target

/-- The variant that answers an event; none: the plan stops (07 R238, R241; 11 R357). -/
def contVariant (r : Run) (event target : Nat) : Option Nat :=
  if r.fresh then none
  else match contFor r event target with
    | some c => if c.variant = 0xFFFF then none else some c.variant
    | none => none

/-- A loss of R238 with its reports `reps`: after them the step is skipped with cause CONTINGENCY and the matching variant
is chosen, or the plan stops with DEGRADED. After the vote, and between steps, the event belongs to the next step start
(07 R241, 10 R313). The last fault is its cause (00 R24). -/
def lossOf (reps : List Rep) (event target : Nat) (d : Dev) : Dev :=
  match d.plan.run with
  | none => also reps d
  | some r =>
    match contVariant r event target with
    | none => planEnd (also (reps ++ [stopRep clsDegraded target]) d)
    | some v =>
      if r.phase = .running ∨ r.phase = .atVerdict ∨ r.phase = .permuting then
        cde 0xC (also reps (modRun (fun r => { r with pendVar := some v, ent := contFor r event target }) d))
      else also reps (modRun (fun r => { r with lateEvent := some (event, target, d.evt.fseq) }) d)

/-- A loss that is a fault of its own (07 R241; 00 R24). -/
def loss (reps : List Rep) (event target : Nat) (d : Dev) : Dev := lossOf reps event target (newFault d)

/-! ## Losses of tack copies (11 R341) -/

/-- The plan stops because a CURRENT or SOURCE copy is lost: counted, CONTAINED, a consequence of fault `n` (11 R341; 00 R24). -/
def tackStop (n : Nat) (d : Dev) : Dev :=
  planEnd (ariseOf n { d with snap := { d.snap with tackLoss := satAdd d.snap.tackLoss 1 } } ⟨clsContained, 0x07, 0x0B38, 0xFFFF, 0, true⟩)

/-- A step is under way, up to its flip or skip (07 R231). -/
def stepRuns (d : Dev) : Bool :=
  match d.plan.run with
  | some r => r.phase != .between && r.phase != .committed
  | none => false

/-- An uncorrectable word in a copy of a tack entry: NOTE and abandonment for a HELD copy; a contained data error for an
OFF or WRITTEN one; for a CURRENT or SOURCE one the step is skipped and the plan stops after the skip (11 R341). -/
def tackLoss (c : CopyState) (d : Dev) : Dev :=
  match c with
  | .held => drainAbandon (also [⟨clsNote, 0x07, 0x0B28, 0xFFFF, 0, false⟩] d)
  | .off | .written => cde 3 d
  | .current | .source =>
    let d := if c = .source then drainAbandon d else d
    if stepRuns d then cde 3 (modRun (fun r => { r with tackLost := some d.evt.fseq }) d) else tackStop d.evt.fseq d

/-! ## Root buffers (05 R173 to R176, R186) -/

/-- B, from BLK (05 R173). -/
def blockSize (r : RootRec) : Nat := 32 * 2 ^ r.blk

/-- Blocks of a root set (05 R167). -/
def rootBlocks (r : RootRec) : Nat := ceilDiv r.dim (blockSize r)

/-- Bytes of a root buffer (05 R175). -/
def rootBytes (r : RootRec) : Nat := blockSize r * blockSize r * 4

/-- The root buffer that holds `a`: its set, block, buffer and the offset in it (05 R175). -/
def rootPlace (d : Dev) (a : Nat) : Option (RootSet × Nat × Nat × Nat) :=
  d.curv.sets.findSome? fun s => s.addrs.zipIdx.findSome? fun b => b.1.zipIdx.findSome? fun x =>
    if inside a 1 x.1 (rootBytes s.record) then some (s, b.2, x.2, a - x.1) else none

/-- The first buffer of a block in state `q`, with its address (05 R176). -/
def bufIn (s : RootSet) (blk : Nat) (q : RootState) : Option Nat :=
  (((s.bufs[blk]?).getD []).findIdx? (· = q)).map fun i => ((s.addrs[blk]?).getD [])[i]?.getD 0

/-- Where a kernel reads a root: the addresses of buffer 0 name the block's root, and lead to the CURRENT buffer (05 R186; log entry
59). -/
def rootRead (d : Dev) (a : Nat) : Nat :=
  match rootPlace d a with
  | some (s, blk, 0, o) => ((bufIn s blk .current).map (· + o)).getD a
  | _ => a

/-- Where the root service's slots write a root: into the WRITING buffer (05 R176; log entry 59). -/
def rootWrite (d : Dev) (a : Nat) : Nat :=
  match rootPlace d a with
  | some (s, blk, 0, o) => ((bufIn s blk .writing).map (· + o)).getD a
  | _ => a

/-- A byte of the identity root, for a block without a CURRENT buffer (05 R175, R186). -/
def identityByte (d : Dev) (a : Nat) : Option Byte :=
  match rootPlace d a with
  | some (s, blk, 0, o) =>
    if (bufIn s blk .current).isSome then none
    else
      let n := blockSize s.record
      some ((leBytes 4 (if o / 4 / n = o / 4 % n then 0x3F800000 else 0))[o % 4]?.getD 0)
  | _ => none

/-- `a` lies in a root buffer that is not WRITING: no engine writes it (05 R176). -/
def rootBarred (d : Dev) (a : Nat) : Bool :=
  match rootPlace d a with
  | some (s, blk, i, _) => (((s.bufs[blk]?).getD [])[i]?) ≠ some .writing
  | none => false

/-! ## Tacked and weight views (11 R336; 12 R359, R375) -/

/-- The tack entry whose tacked view holds the line of `a`, with its index (11 R336). -/
def tackAt (d : Dev) (a : Nat) : Option (Nat × TackEnt) :=
  match d.plan.run with
  | some r => (r.body.tacks.zipIdx.find? fun t => decide (t.1.baseA ≤ a ∧ a < t.1.baseA + t.1.len)).map fun t => (t.2, t.1)
  | none => none

/-- Tack B of entry `i` is current (11 R338). -/
def tackB (d : Dev) (i : Nat) : Bool := (d.tack.sel[i]?).getD false

/-- The weight view that holds `a`: adapter view or not, offset, and the slot of the epoch that the attempt reads (12 R359,
R375). -/
def viewAt (d : Dev) (a : Nat) : Option (Bool × Nat × Nat) :=
  match d.plan.run with
  | some r =>
    match r.wgt with
    | some e =>
      let v := r.body.view
      if v.bN ≠ 0 ∧ v.bSlot0 ≤ a ∧ a < v.bSlot0 + v.bLen then some (false, a - v.bSlot0, e.1)
      else if v.aN ≠ 0 ∧ v.aSlot0 ≤ a ∧ a < v.aSlot0 + v.aLen then some (true, a - v.aSlot0, e.2)
      else none
    | none => none
  | none => none

/-- The address of the ledger slot of step `n` (08 R261). -/
def ledgerSlot (l : Ledger) (n : Nat) : Nat := l.ledger + n % (l.lag + 1) * l.slotBytes

/-- The running plan's ledger whose slot 0 holds `a`, with the step index: its view, as the plan names the gradient of a shard (08 R261;
log entry 58). -/
def ledgerAt (d : Dev) (a : Nat) : Option (Ledger × Nat) :=
  match d.plan.run with
  | some r => (r.body.ledgers.find? fun l => inside a 1 l.ledger l.slotBytes).map fun l => (l, r.step)
  | none => none

/-- The gradient step of a shard's unflipped sweep (08 R264). -/
def sweepStep (d : Dev) (shard : Nat) : Option Nat := (d.tack.sweeps.find? fun s => s.1 = shard).map fun s => s.2.1

/-- Where a read of `a` by a slot or message is performed; of the ledger view, the gradient that the sweep applies, and without a sweep
that of the step (05 R186; 08 R264; 11 R336; 12 R375). -/
def resolveRead (d : Dev) (a : Nat) : Nat :=
  match tackAt d a with
  | some (i, e) => if tackB d i then e.baseB + (a - e.baseA) else a
  | none =>
    match viewAt d a with
    | some (ad, o, k) =>
      let v := ((d.plan.run).map fun r => r.body.view).getD ⟨0, 0, 0, 0, 0, 0⟩
      if ad then v.aSlot0 + k * v.aLen + o else v.bSlot0 + k * v.bLen + o
    | none =>
      match ledgerAt d a with
      | some (l, n) => ledgerSlot l ((sweepStep d l.shard).getD n) + (a - l.ledger)
      | none => rootRead d a

/-- Where a write of `a` by a slot or message is performed; of the ledger view, the slot of the step (05 R176; 08 R261, R263; 11 R336). -/
def resolveWrite (d : Dev) (a : Nat) : Nat :=
  match tackAt d a with
  | some (i, e) => if tackB d i then a else e.baseB + (a - e.baseA)
  | none =>
    match ledgerAt d a with
    | some (l, n) => ledgerSlot l n + (a - l.ledger)
    | none => rootWrite d a

/-- Where the read half of an ACCUMULATE is performed: in the ledger view, where its write half is (08 R263; 11 R336). -/
def resolveAcc (d : Dev) (a : Nat) : Nat := if (ledgerAt d a).isSome && (tackAt d a).isNone then resolveWrite d a else resolveRead d a

/-- State of the current and of the off-tack copy of entry `i` (11 R339). -/
def copyCurrent (d : Dev) (i : Nat) : CopyState :=
  let c := (d.tack.copies[i]?).getD (.current, .off)
  if tackB d i then c.2 else c.1

/-- State of the off-tack copy of entry `i` (11 R339). -/
def copyOff (d : Dev) (i : Nat) : CopyState :=
  let c := (d.tack.copies[i]?).getD (.current, .off)
  if tackB d i then c.1 else c.2

/-- Lines that [a, a+n) touches. -/
def linesOf (a n : Nat) : List Nat :=
  if n = 0 then [] else (List.range ((a + n - 1) / 256 - a / 256 + 1)).map fun k => lineOf a + 256 * k

/-- A write of [a, a+n) resolves into a HELD copy: the slot waits at issue (11 R340). -/
def heldWrite (d : Dev) (a n : Nat) : Bool :=
  (linesOf a n).any fun l => match tackAt d l with
    | some (i, _) => copyOff d i = .held
    | none => false

/-- A slot waits on a HELD copy (11 R340). -/
def holdSlot (seq : Nat) (d : Dev) : Dev :=
  if d.tack.waits.contains seq then d else { d with tack := { d.tack with waits := d.tack.waits ++ [seq] } }

/-- Marks the off-tack copies that a write of [a, a+n) reaches as WRITTEN (11 R339). -/
def markWritten (a n : Nat) (d : Dev) : Dev :=
  (linesOf a n).foldl (fun d l => match tackAt d l with
    | some (i, _) =>
      let b := tackB d i
      let mark (c : CopyState × CopyState) : CopyState × CopyState :=
        if b then (if c.1 = .off then (.written, c.2) else c) else (if c.2 = .off then (c.1, .written) else c)
      { d with tack := { d.tack with copies := modAt mark i d.tack.copies } }
    | none => d) d

/-- The shard of a weight slot that holds offset `o` is marked BAD (12 R371, R372). -/
def shardBad (s : WSlot) (o : Nat) : Bool :=
  s.shards.any fun h => decide (h.dstOff ≤ o ∧ o < h.dstOff + h.length) && s.bad.contains h.index

/-- A read of [a, a+n) meets a BAD shard through the bound epoch (12 R372). -/
def readsBadShard (d : Dev) (a n : Nat) : Bool :=
  (linesOf a n).any fun l =>
    match viewAt d (max a l) with
    | some (ad, o, k) =>
      match (if ad then d.wgt.adapter else d.wgt.base)[k]? with
      | some s => shardBad s o
      | none => false
    | none => false

/-! ## Memory as slots and messages reach it (13 R382, R387; 11 R336, R341) -/

/-- The bytes of [a, a+n) as `at_` resolves them; bytes of bad words read as zero (13 R387). -/
def readVia (at_ : Nat → Nat) (m : Mem) (d : Dev) (a n : Nat) : List Byte :=
  (List.range n).map fun k =>
    let b := at_ (a + k)
    if wordBad d.ecc b then 0 else m.get b

/-- The bytes of [a, a+n) through the views (05 R186; 11 R336; 13 R387). -/
def readResolved (m : Mem) (d : Dev) (a n : Nat) : List Byte :=
  (readVia (resolveRead d) m d a n).zipIdx.map fun b => (identityByte d (a + b.2)).getD b.1

/-- The first address of [a, a+n) whose word is bad where the view leads (13 R387). -/
def badResolved (d : Dev) (a n : Nat) : Option Nat :=
  (List.range n).findSome? fun k =>
    if wordBad d.ecc (resolveRead d (a + k)) && (identityByte d (a + k)).isNone then some (a + k) else none

/-- The device writes lines that the host may cache: they are snooped out of the host's caches first (14 R431). -/
def snooped (ls : List Nat) (d : Dev) : Dev :=
  { d with cxl := { d.cxl with hdmCached := d.cxl.hdmCached.filter fun l => !ls.contains l } }

/-- The shards whose sweep reads or writes `a`: its gradient's ledger slot, state pieces and weights (08 R261, R264). -/
def sweepShards (d : Dev) (a : Nat) : List Nat :=
  match d.plan.run with
  | some r => (r.body.ledgers.filter fun l =>
      d.tack.sweeps.any (fun s => s.1 = l.shard) &&
      (((sweepStep d l.shard).map fun g => inside a 1 (ledgerSlot l g) l.slotBytes).getD false || inside a 1 l.gonA (l.nPiece * l.pieceBytes) || inside a 1 l.gonB (l.nPiece * l.pieceBytes)
        || r.body.tacks.any fun t => t.cls = 1 && t.shard = l.shard && (inside a 1 t.baseA t.len || inside a 1 t.baseB t.len))).map Ledger.shard
  | none => []

/-- An uncorrectable error in a sweep's data is remembered until the skip, which restarts the sweep (08 R268). -/
def sweepHit (a : Nat) (d : Dev) : Dev := { d with tack := { d.tack with bad := d.tack.bad ++ sweepShards d a } }

/-- The device writes bytes of its own records: lines whose read-modify-write meets a bad word are not written, and are counted
(13 R381, R382, R387; 14 R431). -/
def devWrite (m : Mem) (d : Dev) (a : Nat) (bs : List Byte) : Mem × Dev :=
  let w := writeMem m d.ecc a bs
  (w.1, w.2.2.foldl (fun d l => ueAt 2 l d) (snooped (linesOf a bs.length) { d with ecc := w.2.1 }))

/-- A lost word of scratch, where root scratch lies: at the skip the refreshes in progress restart (05 R183, R189). -/
def scratchHit (a : Nat) (d : Dev) : Dev :=
  if (placesOf d [6]).any fun p => inside a 1 p.1 p.2 then { d with curv := { d.curv with scratchLost := true } } else d

/-- A slot's read meets a bad word at `a`: counted; CDE with cause MEMORY; the loss of a current tack copy stops the plan after
the skip (11 R341; 13 R387; 10 R313). -/
def readLoss (d : Dev) (a : Nat) : Dev :=
  let d := scratchHit (resolveRead d a) (sweepHit (resolveRead d a) (ueAt 2 (resolveRead d a) d))
  match tackAt d a with
  | some (i, _) => tackLoss (copyCurrent d i) d
  | none => cde 3 d

/-- Reads of lines on the fall-back path are corrected on the fly and counted (13 R383). -/
def deferReads (d : Dev) (a n : Nat) : Dev :=
  let k := ((linesOf a n).filter fun l => d.ecc.defer.contains (lineOf (resolveRead d l))).length
  { d with integ := { d.integ with deferred := satAdd d.integ.deferred k } }

/-- A read of port G that completed: the bay's timeouts are consecutive no more (08 R260). -/
def gonGood (a : Nat) (d : Dev) : Dev :=
  if a < gonBase 0 then d
  else match gonTarget d a with
    | some (b, _) => { d with gon := { d.gon with bays := modAt (fun y => { y with tmo := 0 }) b d.gon.bays } }
    | none => d

/-- Reads [a, a+n) for a slot of the running step: zeros stand for bad words (11 R336; 12 R372; 13 R387). -/
def readSlot (m : Mem) (d : Dev) (a n : Nat) : List Byte × Dev :=
  let bs := readResolved m d a n
  let d := if readsBadShard d a n then cdeNew 3 d else d
  let d := gonGood (resolveRead d a) (deferReads d a n)
  match badResolved d a n with
  | some b => (bs, readLoss d b)
  | none => (bs, d)

/-- The replica digest takes in the lines that `ps` wrote into the copies of digest entries: CRC-64 over the line and its entry and line
index (10 R325). -/
def digestLines (m : Mem) (ps : List (Nat × List Byte)) (d : Dev) : Dev :=
  let es := (d.plan.run.map fun r => r.body.digests.zipIdx).getD []
  let one (x : W64) (a : Nat) (e : DigestEnt × Nat) : W64 :=
    let at_ (base : Nat) : W64 := x ^^^ BitVec.ofNat 64 (crc64 (m.read (lineOf a) 256 ++ leBytes 8 (e.2 * 2 ^ 40 + (lineOf a - base) / 256)))
    if inside (lineOf a) 256 e.1.baseA e.1.len then at_ e.1.baseA
    else if inside (lineOf a) 256 e.1.baseB e.1.len then at_ e.1.baseB
    else x
  { d with vrd := { d.vrd with dcrc := ps.foldl (fun x p => es.foldl (fun x e => one x p.1 e) x) d.vrd.dcrc } }

/-- [a, a+n) joined to ranges that it touches. -/
def joinRange (a n : Nat) (rs : List (Nat × Nat)) : List (Nat × Nat) :=
  let hit := rs.filter fun r => decide (r.1 ≤ a + n ∧ a ≤ r.1 + r.2)
  let lo := hit.foldl (fun o r => min o r.1) a
  let hi := hit.foldl (fun o r => max o (r.1 + r.2)) (a + n)
  (lo, hi - lo) :: rs.filter fun r => !hit.contains r

/-- Remembers that a running sweep has written [a, a+n) of its shard's tacked views (08 R264). -/
def sweepWrote (a n : Nat) (d : Dev) : Dev :=
  match tackAt d a with
  | some (_, t) =>
    if t.cls = 1 && d.tack.sweeps.any fun s => s.1 = t.shard && s.2.2 = 0 then
      let old := ((d.tack.swept.find? fun s => s.1 = t.shard).map Prod.snd).getD []
      { d with tack := { d.tack with swept := (t.shard, joinRange a n old) :: d.tack.swept.filter fun s => s.1 ≠ t.shard } }
    else d
  | none => d

/-- Writes bytes for a slot of the running step; a line whose read-modify-write meets a bad word is not written and is a CDE
(11 R336, R339; 13 R382, R387). -/
def writeSlot (m : Mem) (d : Dev) (a : Nat) (bs : List Byte) : Mem × Dev :=
  let raw := (linePieces (bs.length / 256 + 2) a bs).filter fun p => !rootBarred d (resolveWrite d p.1)
  let ps := raw.map fun p => (resolveWrite d p.1, p.2)
  let r := writeLines m d.ecc ps
  let d := raw.foldl (fun e p => if r.2.2.contains (lineOf (resolveWrite d p.1)) then e else sweepWrote p.1 p.2.length e) d
  let d := digestLines r.1 (ps.filter fun p => !r.2.2.contains (lineOf p.1))
    (markWritten a bs.length (snooped (ps.map fun p => lineOf p.1) { d with ecc := r.2.1 }))
  (r.1, if r.2.2.isEmpty then d else cde 3 (r.2.2.foldl (fun d l => sweepHit l (ueAt 2 l d)) d))

end Sys2Proof.Machine
end

