-- ==== Sys2Proof/Machine/Power.lean ====
section
/-! DEFINITION. Power-on, the safe state, clocks, reef levels, the governor, thermal requests, spar-group power and the
class 0x8 commands (chapter 15, 16 R469 to R471). -/

namespace Sys2Proof.Machine

/-! ## The safe state -/

/-- Reporter of a safe-state cause (14 R426, 15 R450). -/
def causeBlock (c : Nat) : Nat :=
  if c = 5 then 0x07 else if c = 1 ∨ c = 7 then 0x09 else if c = 2 ∨ c = 6 ∨ c = 8 then 0x0C else 0x0D

/-- A tether port powered OFF (15 R449). -/
def portOff (p : Port) : Port := { p with state := .off, lanes := 0, ballast := false, partner := none }

/-- Every spar group OFF (15 R449). -/
def groupsOff (d : Dev) : Dev :=
  { d with gpwr := d.gpwr.map fun g => { g with state := .off, falling := false, pend := false, starting := false } }

/-- The commands that were waiting for a stop, a test or a bay complete with SAFE (14 R425). -/
def safeEnds (d : Dev) : Dev :=
  let d := match d.plan.latched with
    | some (n, tag, _) => completeTag n tag 0x201 safeAns { d with plan := { d.plan with latched := none } }
    | none => d
  let d := match d.integ.bistCmd with
    | some (_, n, tag) => completeTag n tag 0x601 safeAns (bistAbort d)
    | none => d
  (d.gon.bays.filterMap Bay.rmCmd).foldl (fun d c => completeTag c.1 c.2 0x501 safeAns d)
    { d with gon := { d.gon with bays := d.gon.bays.map fun b => { b with rmCmd := none } } }

/-- Entry to the safe state with cause `c`: groups and ports OFF, port G's links down, waiting commands answered, keys zeroized, FAULT_N
low, then the FATAL report, IRQ_CAUSE.FATAL and AER (15 R449, R450). In the safe state already, nothing changes. -/
def safeEntry (c : Nat) (d : Dev) : Dev :=
  if isSafe d then d
  else
    let had := d.plan.run.isSome
    let d := groupsOff d
    let d := { d with
      tth := { d.tth with ports := d.tth.ports.map portOff }
      gon := { d.gon with bays := d.gon.bays.map fun b =>
        if b.state = .empty then b else { b with state := .gone, linkW := 0, gen := 0 } } }
    let d := zeroizeKeys (abortSessions (safeEnds d))
    let d := { d with
      plan := { d.plan with run := none, req := none, stopping := false }
      curv := { d.curv with sets := [], staleSet := 0xFFFF }
      snap := { d.snap with drain := none, owed := none, next := none, forced := [] }
      pins := { d.pins with faultN := true }
      pwr := { d.pwr with cause := c } }
    let d := fault [⟨clsFatal, causeBlock c, 0x0E04, 0xFFFF, c, had⟩] d
    let d := raise irqFatal d
    { d with irq := { d.irq with aer := d.irq.aer + 1 }, cxl := { d.cxl with viral := d.cxl.hCache || d.cxl.hMem } }

/-! ## Clock and voltage (15 R448, R451) -/

/-- The user calibration record's signed field at bits [lo + 7:lo] (15 R446). -/
def calField (r : BitVec 256) (lo : Nat) : Int := (r.extractLsb' lo 8).toInt

/-- THERM_OFS in quarter degrees (15 R446, R454). -/
def thermOfs (d : Dev) : Int := 4 * calField d.pwr.cal 184

/-- VDDC target at clock `f` (units of 10 MHz) before clamping, in units of 0.1 mV (15 R448). -/
def vddcTarget (fl : Flash) (ofs : Int) (f : Nat) : Int :=
  let v : Int := ((fl.vmin[(f - 40) / 5]?).getD 0 : Nat) + 100 + 25 * ofs
  (v + 24) / 25 * 25

/-- VID code for clock `f` (15 R448). -/
def vidFor (fl : Flash) (ofs : Int) (f : Nat) : Nat :=
  let v := vddcTarget fl ofs f
  let v := if v < 7500 then 7500 else if 9000 < v then 9000 else v
  ((v - 7500) / 25).toNat

/-- The highest clock step that the voltage bars neither itself nor below (15 R448). -/
def barredCeil (fl : Flash) (ofs : Int) : Nat :=
  (((List.range 17).map fun k => 40 + 5 * k).takeWhile fun f => decide (vddcTarget fl ofs f ≤ 9000)).getLastD 40

/-- Clock ceiling of a reef level, in units of 10 MHz (15 R451). -/
def levelCeil (l : Nat) : Nat := if l = 0 then 120 else if l = 1 then 100 else if l = 2 then 80 else 60

/-- Package power cap of a reef level, in W (15 R451). -/
def levelCap (l : Nat) : Nat := if l = 0 then 1500 else if l = 1 then 1200 else if l = 2 then 900 else 600

/-- The ceiling in force (15 R448, R451). -/
def clkCeil (d : Dev) : Nat := min (levelCeil d.pwr.reef) (barredCeil d.flash d.pwr.vddcOfs)

/-- Drives VID for clock `f`; VDDC_OFS takes effect at this change (15 R447, R448). -/
def driveVid (f : Nat) (d : Dev) : Dev :=
  let ofs := calField d.pwr.cal 200
  { d with pwr := { d.pwr with vddcOfs := ofs, vid := vidFor d.flash ofs f, ceilLow := decide (barredCeil d.flash ofs < 120) } }

/-- The highest of the three requests becomes the effective level; a higher ceiling starts a rise of VID (15 R452, R448). -/
def reefUpdate (d : Dev) : Dev :=
  let l := max d.pwr.host (max d.pwr.pins d.pwr.therm)
  if l = d.pwr.reef then d
  else
    let d := { d with pwr := { d.pwr with reef := l, reefch := satAdd d.pwr.reefch 1 } }
    if d.pwr.clk < clkCeil d then
      let d' := driveVid (d.pwr.clk + 5) d
      { d' with pwr := { d'.pwr with rising := clkCeil d } }
    else { d with pwr := { d.pwr with rising := 0 } }

/-- After a fall in the ceiling the clock moves down one step every 2 us until it is under it, and VID follows the last step
(15 R452, R448). -/
def clockStepDev (d : Dev) : Dev :=
  if clkCeil d < d.pwr.clk then
    let f := max 40 (d.pwr.clk - 5)
    let d := { d with pwr := { d.pwr with clk := f } }
    if f ≤ clkCeil d then driveVid f d else d
  else d

/-- VID has settled: the clock follows it up one step, and a rise that leads further starts the next one (15 R448). -/
def vidSettleDev (d : Dev) : Dev :=
  if d.pwr.rising = 0 then d
  else
    let f := min (d.pwr.clk + 5) (clkCeil d)
    let d := { d with pwr := { d.pwr with clk := f } }
    if f < min d.pwr.rising (clkCeil d) then driveVid (f + 5) d
    else { d with pwr := { d.pwr with rising := 0 } }

/-- Takes a reading of package power (15 R453, R459). -/
def takeWatts (w : Nat) (d : Dev) : Dev :=
  { d with pwr := { d.pwr with watts := w % 65536, peak := max d.pwr.peak (w % 65536) } }

/-- While the average exceeds the cap the clock falls one step; at the floor issue is held in sixteenths (15 R453). -/
def governorDownDev (w : Nat) (d : Dev) : Dev :=
  let d := takeWatts w d
  if w ≤ levelCap d.pwr.reef then d
  else if 40 < d.pwr.clk then
    let f := d.pwr.clk - 5
    driveVid f { d with pwr := { d.pwr with clk := f, rising := 0 } }
  else { d with pwr := { d.pwr with hold := min 15 (d.pwr.hold + 1) } }

/-- Below 95 % of the cap for 1 ms: held issue is given back, else the clock rises one step toward the ceiling (15 R453). -/
def governorUpDev (w : Nat) (d : Dev) : Dev :=
  let d := takeWatts w d
  if levelCap d.pwr.reef * 95 ≤ w * 100 then d
  else if 0 < d.pwr.hold then { d with pwr := { d.pwr with hold := d.pwr.hold - 1 } }
  else if d.pwr.clk < clkCeil d && d.pwr.rising = 0 then
    let d' := driveVid (d.pwr.clk + 5) d
    { d' with pwr := { d'.pwr with rising := d.pwr.clk + 5 } }
  else d

/-- The on-die estimate exceeds the cap by more than 10 %: issue is held on alternate cycles (15 R453). -/
def fastClampDev (e : Nat) (d : Dev) : Dev :=
  if levelCap d.pwr.reef * 11 < e * 10 then
    { d with pwr := { d.pwr with clamped := true, clamps := satAdd d.pwr.clamps 1 } }
  else d

/-! ## Thermal (15 R454, R455; 16 R471) -/

/-- The hottest of a list with its index; none: no sensor. -/
def hottest : List Int → Option (Int × Nat)
  | [] => none
  | t :: ts =>
    match hottest ts with
    | some (v, i) => if t ≥ v then some (t, 0) else some (v, i + 1)
    | none => some (t, 0)

/-- A threshold holds: reached, or in force and not yet 3 degrees below (15 R454). -/
def holds (inForce : Bool) (t thr : Int) : Bool := decide (thr ≤ t) || (inForce && decide (thr - 12 < t))

/-- The thermal request for these readings (15 R454, 16 R471). -/
def thermRequest (d : Dev) (t : ThermIn) : Nat :=
  let o := thermOfs d
  let hot := ((hottest t.tj).map Prod.fst).getD (-4000)
  let hbm := ((hottest t.hbm).map Prod.fst).getD (-4000)
  if holds (decide (3 ≤ d.pwr.therm)) hot (440 + o) || holds (decide (3 ≤ d.pwr.therm)) hbm (380 + o) then 3
  else if holds (decide (2 ≤ d.pwr.therm)) hot (420 + o) then 2
  else if holds (decide (1 ≤ d.pwr.therm)) hot (400 + o) then 1
  else 0

/-- CRW_PWR_TEMP follows the hottest sensor; a stack sensor enters only when it is the hottest relative to its own
threshold, and is numbered after the compute sensors (15 R459, 16 R471; log entry 18). -/
def takeTemps (t : ThermIn) (d : Dev) : Dev :=
  let put (v : Int) (i : Nat) : Dev := { d with pwr := { d.pwr with tj := BitVec.ofInt 16 v, sensor := i % 256 } }
  match hottest t.tj, hottest t.hbm with
  | some (v, i), some (h, k) => if v - 400 < h - 380 then put h (t.tj.length + k) else put v i
  | some (v, i), none => put v i
  | none, some (h, k) => put h (t.tj.length + k)
  | none, none => d

/-- New readings: the thermal request changes with THERM raised, and the effective reef level with it (15 R452, R454). -/
def thermalDev (t : ThermIn) (d : Dev) : Dev :=
  let d := takeTemps t d
  let q := thermRequest d t
  if q = d.pwr.therm then d else reefUpdate (raise irqTherm { d with pwr := { d.pwr with therm := q } })

/-- A compute sensor at 120 C or a stack at 105 C trips the device (15 R455, 16 R471). -/
def tripDev (t : ThermIn) (d : Dev) : Dev :=
  let d := takeTemps t d
  if t.tj.any (fun v => decide (480 ≤ v)) || t.hbm.any (fun v => decide (420 ≤ v)) then
    safeEntry 4 { d with pins := { d.pins with thermtrip := true } }
  else d

/-! ## Power-on -/

/-- Power-on reset: everything returns to its reset value but the fuses, the flash, memory, what the host holds, and the
watch domain's record of weight ranges while VDDAO stays (15 R434, 12 R377; log entries 1, 2). -/
def powerOnReset (d : Dev) : Dev :=
  let r := Dev.reset d.fuses d.flash
  { r with
    wgt := { r.wgt with recorded := if d.pins.vddao then d.wgt.recorded else [] }
    host := d.host
    freeCtr := d.freeCtr }

/-- Memory after a power-on reset: the Kranas never assumes that a gondola device's contents survive (08 R254; log entry 1). -/
def resetMem (m : Mem) : Mem := m.filter fun c => c.1 < gonBase 0

/-- Release of RESET_N: fuses sensed, self-check, VID and PWR_EN; a failed self-check holds the device in reset with
FAULT_N low (15 R440, 13 R391). -/
def resetReleaseDev (ok : Bool) (d : Dev) : Dev :=
  if d.pins.resetN || !d.pins.vddao then d
  else if ok then { d with pins := { d.pins with resetN := true, pwrEn := true }, pwr := { d.pwr with vid := 0x14 } }
  else { d with pins := { d.pins with faultN := true } }

/-- An image is valid (15 R444). -/
def imageOk (f : Fuses) (i : FwImage) : Bool :=
  i.magic = 0x46574931 && i.format = 1 && i.resvZero && decide (1 ≤ i.length ∧ i.length ≤ 8388352)
    && (match f.keys[i.keySlot]? with
        | some (h, revoked) => h = i.keyHash && !revoked
        | none => false)
    && i.sigOk && i.bodyOk && decide (f.svn ≤ i.svn)

/-- The image that boots, whether it is image B, and whether it is the fallback (15 R442, R444). -/
def bootImage (f : Fuses) (fl : Flash) : Option (FwImage × Bool × Bool) :=
  let ok (x : Option FwImage) : Option FwImage := x.bind fun i => if imageOk f i then some i else none
  let prefB := fl.bootRecOk && fl.prefB
  let first := if prefB then ok fl.imgB else ok fl.imgA
  let second := if prefB then ok fl.imgA else ok fl.imgB
  match first, second with
  | some i, _ => some (i, prefB, false)
  | none, some i => some (i, !prefB, true)
  | none, none => none

/-- A user calibration record is valid: MAGIC, FORMAT, reserved bits, CRC, and every field within its bound (15 R445, R446,
R447). -/
def calOk (r : BitVec 256) : Bool :=
  let f (lo : Nat) := calField r lo
  (r.extractLsb' 224 32) = 0x55434C31 && (r.extractLsb' 216 8) = 1 && (r.extractLsb' 32 48) = 0
    && decide (-12 ≤ f 208 ∧ f 208 ≤ 12 ∧ -4 ≤ f 200 ∧ f 200 ≤ 10 ∧ -8 ≤ f 192 ∧ f 192 ≤ 8 ∧ -20 ≤ f 184 ∧ f 184 ≤ 0)
    && (List.range 18).all (fun k => let v := (r.extractLsb' (112 + 4 * k) 4).toInt; decide (-4 ≤ v ∧ v ≤ 4))
    && (r.extractLsb' 0 32).toNat = crc32c (leBytes 32 (r.toNat / 2 ^ 32 * 2 ^ 32))

/-- SEQ of a user calibration record (15 R446). -/
def calSeq (r : BitVec 256) : Nat := (r.extractLsb' 80 32).toNat

/-- The user record that boot applies: the valid copy with the higher SEQ (15 R447). -/
def bootCal (fl : Flash) : Option (BitVec 256) :=
  match calOk fl.cal0, calOk fl.cal1 with
  | true, true => if calSeq fl.cal1 > calSeq fl.cal0 then some fl.cal1 else some fl.cal0
  | true, false => some fl.cal0
  | false, true => some fl.cal1
  | false, false => none

/-- Scope of a main array's ballast: five groups each (03 R111). -/
def arrayScope (a : Nat) : Nat := a / 20

/-- A lane of port `p` is served by its direction's ballast lane (09 R296, R304). -/
def laneMoved (d : Dev) (p : Nat) : Bool := (List.range 4).any fun i => siteOf d 9 (4 * p + i) ≠ 4 * p + i

/-- Tether bring-up starts: used ports go TRAINING; reserved codes and a second FAR0 or FAR1 leave a port OFF with a NOTE
(09 R275 to R277). -/
def bringUpPort (d : Dev) (p : Nat) : Dev :=
  let dir := (d.flash.tether.dirs[p]?).getD 6
  let rate := (d.flash.tether.rates[p]?).getD 0
  let again := (dir = 4 || dir = 5) && (d.flash.tether.dirs.take p).contains dir
  if dir = 6 then d
  else if dir = 7 || rate = 3 || again then note 0x06 (0x0908 + 4 * p) p 0 d
  else { d with tth := { d.tth with ports := modAt (fun _ => ⟨dir, .training, rate, laneMoved d p, 0, none⟩) p d.tth.ports } }

/-- This chip's node address (09 R278). -/
def nodeOf (t : TetherRec) : Nat := t.board % 4096 * 4096 + t.x % 64 * 64 + t.y % 64

/-- Tether bring-up (09 R277). -/
def bringUp (d : Dev) : Dev :=
  (List.range 16).foldl bringUpPort { d with tth := { d.tth with self := nodeOf d.flash.tether } }

/-- Overwrites ranges of memory with zeros; the lines are whole writes (12 R377). -/
def zeroRanges (rs : List (Nat × Nat)) (m : Mem) : Mem := rs.foldl (fun m r => m.zero r.1 r.2) m

/-- The lines of a range are freshly written. -/
def freshRange (e : Ecc) (r : Nat × Nat) : Ecc :=
  { e with
    ue := e.ue.filter fun w => !inside w 1 r.1 r.2
    ce := e.ce.filter fun w => !inside w 1 r.1 r.2 }

/-- PWROK not high in time: the safe state with cause POWER, keeping only the watch domain (15 R441). -/
def pwrokTimeoutDev (d : Dev) : Dev := if d.pins.pwrEn && !d.pins.pwrok then safeEntry 3 d else d

/-- PWROK falls, or a rail trips: every clock but the watch clock stops, FAULT_N low, cause POWER (15 R441, 16 R469). -/
def powerLost (fell : Bool) (d : Dev) : Dev :=
  if !d.pins.pwrok then d
  else safeEntry 3 { d with pins := { d.pins with pwrok := !fell, clocksOff := true, faultN := true } }

/-- Loss of VDDAO or VDDAO_IO: the whole device stops, its watch domain included (16 R469). -/
def vddaoLossDev (d : Dev) : Dev :=
  let r := powerOnReset { d with pins := { d.pins with vddao := false } }
  { r with pins := { r.pins with vddao := false } }

/-! ## Spar groups and cores (15 R436 to R439) -/

/-- Changes group `g`'s power side. -/
def modGpwr (g : Nat) (f : GroupPwr → GroupPwr) (d : Dev) : Dev := { d with gpwr := modAt f g d.gpwr }

/-- The spar group a stream belongs to (07 R224). -/
def streamGroup (s : Nat) : Option Nat :=
  if s < 160 then some (s / 4) else if s < 200 then some (s - 160) else if s < 240 then some (s - 200) else none

/-- The admitted plan has a slot on group `g` (15 R437). -/
def planUses (d : Dev) (g : Nat) : Bool :=
  match d.plan.run with
  | some r => r.body.slots.any fun s => streamGroup s.stream = some g
  | none => false

/-- A group in RUN that has issued no slot for 2 us enters IDLE (15 R436). -/
def groupIdleDev (g : Nat) : Dev → Dev := modGpwr g fun p => if p.state = .run then { p with state := .idle } else p

/-- A sleep mark takes the group toward OFF (15 R436, R437). -/
def sleepDev (g : Nat) : Dev → Dev :=
  modGpwr g fun p => if p.state = .off then p else { p with state := .idle, falling := true, starting := false }

/-- A wake mark starts the group, or latches the start while it powers down; a group with no slot stays OFF (15 R437, R438). -/
def wakeDev (g : Nat) (d : Dev) : Dev :=
  if !planUses d g then d
  else modGpwr g (fun p =>
    if p.absent || p.state = .run then p
    else if p.falling then { p with pend := true }
    else { p with starting := true }) d

/-- IDLE to OFF completes; a latched start from cold follows (15 R438). -/
def downDoneDev (g : Nat) : Dev → Dev :=
  modGpwr g fun p => if p.falling then { p with state := .off, falling := false, starting := p.pend } else p

/-- A started group reaches RUN and its pending bit clears (15 R436, R438). -/
def groupRunDev (g : Nat) : Dev → Dev :=
  modGpwr g fun p =>
    if !p.absent && (p.starting || (p.state = .idle && !p.falling)) then { p with state := .run, starting := false, pend := false }
    else p

/-- A core with no work for 1 ms is power-gated; core 0 stays clocked while port H's link is up (15 R439). -/
def coreGateDev (c : Nat) (d : Dev) : Dev :=
  if c = 0 && hLinkUp d then d
  else { d with integ := { d.integ with cores := modAt (fun x => if x = .lost then x else .powerGated) c d.integ.cores } }

/-! ## Class 0x8 commands (15 R458) -/

/-- REEF_SET (15 R452, R458). -/
def reefSetDev (c : CmdRef) : Dev → Dev :=
  runCmd c 0x800 fun desc d => (reefUpdate { d with pwr := { d.pwr with host := dArg0 desc % 4 } }, {})

/-- CRW_PWR_WATTS (15 R459). -/
def wattsReg (d : Dev) : Nat := d.pwr.watts * 65536 + d.pwr.peak

/-- CRW_PWR_TEMP (15 R459). -/
def tempReg (d : Dev) : Nat := d.pwr.tj.toNat * 65536 + d.pwr.sensor % 256 * 256

/-- POWER_READ (15 R458). -/
def powerReadDev (c : CmdRef) : Dev → Dev :=
  runCmd c 0x801 fun _ d => (d, { data := wattsReg d * 2 ^ 32 + tempReg d })

/-- CAL_READ: the factory record, then the applied user record (15 R458; log entry 9). -/
def calReadDev (c : CmdRef) : Dev → Dev :=
  runCmd c 0x802 fun desc d => (hostBuf desc (Config.factoryBytes ++ leBytes 32 d.pwr.cal.toNat) d, {})

/-- CAL_WRITE: a valid record takes effect and is written to the older flash copy when asked (15 R447, R458). EQ_OFS waits
for a bring-up after reset and VDDC_OFS for the next VID change. -/
def calWriteDev (c : CmdRef) (rec : BitVec 256) : Dev → Dev :=
  runCmd c 0x803 fun desc d =>
    if !calOk rec then (d, refused)
    else
      let d := { d with pwr := { d.pwr with cal := rec } }
      if !bit (dArg0 desc) 0 then (d, {})
      else
        let fl := d.flash
        let newer := max (if calOk fl.cal0 then calSeq fl.cal0 else 0) (if calOk fl.cal1 then calSeq fl.cal1 else 0)
        let w := rec.toNat % 2 ^ 80 / 2 ^ 32 * 2 ^ 32 + (newer + 1) % 2 ^ 32 * 2 ^ 80 + rec.toNat / 2 ^ 112 * 2 ^ 112
        let w := BitVec.ofNat 256 (w + crc32c (leBytes 32 w))
        let first := !calOk fl.cal0 || (calOk fl.cal1 && decide (calSeq fl.cal0 < calSeq fl.cal1))
        ({ d with flash := if first then { fl with cal0 := w } else { fl with cal1 := w } }, {})

/-- The enrolled publisher keys in slot order. -/
def enrolledKeys (d : Dev) : List Byte := d.wgt.pubKeys.flatMap fun k => k.elim [] fun k => leBytes 32 k.toNat

/-- The attestation report without its signature, as a number (15 R457). -/
def attestWord (d : Dev) (nonce : Nat) : Nat :=
  let cur (adapter : Bool) : WSlot :=
    match d.wgt.cur with
    | some (b, a) => slotAt d adapter (if adapter then a else b)
    | none => WSlot.reset
  let hasA := d.wgt.cur.isSome && decide (0 < slotCount d true)
  let flags := ofBool (isSafe d) + 2 * ofBool d.fw.isB + 4 * ofBool d.dbg.tapAny + 8 * ofBool (!d.cxl.hIde.isEmpty)
  let wflags := ofBool (cur false).priv + 2 * ofBool d.wgt.cur.isSome + 4 * ofBool hasA
  let plan (f : Run → Nat) : Nat := d.plan.run.elim 0 f
  0x41545231 * 2 ^ 4064 + 1 * 2 ^ 4056 + d.fuses.step.toNat * 2 ^ 4048 + d.fw.line % 256 * 2 ^ 4040
    + d.fw.minor % 256 * 2 ^ 4032 + d.fw.build % 65536 * 2 ^ 4016 + 1 * 2 ^ 4008 + d.fw.svn % 256 * 2 ^ 4000
    + d.fuses.svn % 256 * 2 ^ 3992 + flags * 2 ^ 3984 + d.fuses.serial.toNat * 2 ^ 3920 + nonce % 2 ^ 256 * 2 ^ 3664
    + d.dbg.now % 2 ^ 64 * 2 ^ 3600 + d.fw.hash.toNat * 2 ^ 3088
    + (Config.sha512 (Config.factoryBytes ++ leBytes 32 d.pwr.cal.toNat)).toNat * 2 ^ 2576
    + plan (fun r => r.hdr.planId) % 2 ^ 64 * 2 ^ 2512 + plan (fun r => r.hdr.crc) % 2 ^ 64 * 2 ^ 2448
    + d.vrd.epoch % 65536 * 2 ^ 2432 + (cur false).modelId.toNat * 2 ^ 2368 + (cur false).version.toNat * 2 ^ 2336
    + (if hasA then (cur true).modelId.toNat else 0) * 2 ^ 2272 + (if hasA then (cur true).version.toNat else 0) * 2 ^ 2240
    + wflags * 2 ^ 2232 + maskOf (d.wgt.pubKeys.map Option.isSome) * 2 ^ 2224 + d.pwr.reef * 2 ^ 2216
    + (Config.sha512 (enrolledKeys d)).toNat * 2 ^ 1704

/-- An attestation report: the identity key signs the whole of it with SIG read as zero (15 R456, R457; log entry 9). -/
def attestBytes (d : Dev) (nonce : Nat) : List Byte :=
  let w := attestWord d nonce
  leBytes 512 (w + (Config.identitySign (leBytes 512 w)).toNat)

/-- The nonce that ARG0 to ARG3 carry, ARG0 lowest (15 R457; log entry 19). -/
def nonceOf (desc : BitVec 512) : Nat :=
  dArg0 desc + dArg1 desc * 2 ^ 64 + dArg2 desc * 2 ^ 128 + dArg3 desc * 2 ^ 192

/-- ATTEST (15 R457). -/
def attestDev (c : CmdRef) : Dev → Dev :=
  runCmd c 0x804 fun desc d => (hostBuf desc (attestBytes d (nonceOf desc)) d, {})

/-- IDENT_CERT: the certificate chain (15 R456, R458; log entry 9). -/
def identCertDev (c : CmdRef) : Dev → Dev :=
  runCmd c 0x805 fun desc d => (hostBuf desc Config.certChain d, { data := Config.certChain.length })

/-- FLASH_WRITE: a valid image is written to slot A or B (15 R444, R458). -/
def flashWriteDev (c : CmdRef) (img : FwImage) : Dev → Dev :=
  runCmd c 0x806 fun desc d =>
    if !imageOk d.fuses img then (d, refused)
    else if bit (dArg0 desc) 0 then ({ d with flash := { d.flash with imgB := some img } }, {})
    else ({ d with flash := { d.flash with imgA := some img } }, {})

/-- BOOT_SELECT: the boot record names the preferred image (15 R442, R458). -/
def bootSelectDev (c : CmdRef) : Dev → Dev :=
  runCmdIf (fun x => !bit (dArg0 x) 1) c 0x807 fun desc d =>
    ({ d with flash := { d.flash with prefB := bit (dArg0 desc) 0, bootRecOk := true } }, {})

/-- BOOT_SELECT with ARG0[1]: burns the fused SVN to the running SVN unless an image is invalid or below it (15 R458). -/
def commitSvnDev (c : CmdRef) : Dev → Dev :=
  runCmdIf (fun x => bit (dArg0 x) 1) c 0x807 fun desc d =>
    let ok (x : Option FwImage) : Bool := x.elim false fun i => imageOk d.fuses i && decide (d.fw.svn ≤ i.svn)
    if ok d.flash.imgA && ok d.flash.imgB then
      ({ d with fuses := { d.fuses with svn := max d.fuses.svn d.fw.svn }
                flash := { d.flash with prefB := bit (dArg0 desc) 0, bootRecOk := true } }, {})
    else (d, refused)

/-- SAFE_INFO (15 R458). -/
def safeInfoDev (c : CmdRef) : Dev → Dev := runCmd c 0x808 fun _ d => (d, { data := d.pwr.cause })

/-- DEVICE_RESET: its completion is written, then a power-on reset with rails held, so RESET_N and PWR_EN stand and PWROK
may rise at once (15 R458). -/
def deviceResetBoth (c : CmdRef) (m : Mem) (d : Dev) : Mem × Dev :=
  match cmdFor d c 0x809 with
  | none => (m, d)
  | some (ord, desc) =>
    let r := powerOnReset (finish c.ring ord desc {} d)
    (resetMem m, { r with pins := { r.pins with resetN := true, pwrEn := true } })

/-- POWER_ON_RESET (15 R434). -/
def execPowerOnReset (s : State) : Out := onBoth (fun m d => (resetMem m, powerOnReset d)) s
/-- RESET_N_RELEASE (15 R440). -/
def execResetNRelease (ok : Bool) (s : State) : Out := onDev (resetReleaseDev ok) s
/-- PWROK_TIMEOUT (15 R441). -/
def execPwrokTimeout (s : State) : Out := onDev pwrokTimeoutDev s
/-- PWROK_FALL (15 R441). -/
def execPwrokFall (s : State) : Out := onDev (powerLost true) s
/-- RAIL_MONITOR_TRIP (16 R469). -/
def execRailMonitorTrip (_r : Rail) (s : State) : Out := onDev (powerLost false) s
/-- VDDAO_LOSS (16 R469). -/
def execVddaoLoss (s : State) : Out := onBoth (fun m d => (resetMem m, vddaoLossDev d)) s
/-- REEF_REQ_CHANGE (15 R452). -/
def execReefReqChange (v : Nat) (s : State) : Out :=
  onDev (fun d => reefUpdate { d with pwr := { d.pwr with pins := v % 4 } }) s
/-- THERMAL_REQUEST_CHANGE (15 R454). -/
def execThermalRequestChange (t : ThermIn) (s : State) : Out := onDev (thermalDev t) s
/-- THERMAL_TRIP (15 R455). -/
def execThermalTrip (t : ThermIn) (s : State) : Out := onDev (tripDev t) s
/-- GOVERNOR_STEP_DOWN (15 R453). -/
def execGovernorStepDown (w : Nat) (s : State) : Out := onDev (governorDownDev w) s
/-- GOVERNOR_STEP_UP (15 R453). -/
def execGovernorStepUp (w : Nat) (s : State) : Out := onDev (governorUpDev w) s
/-- FAST_CLAMP (15 R453). -/
def execFastClamp (e : Nat) (s : State) : Out := onDev (fastClampDev e) s
/-- FAST_CLAMP_END (15 R453). -/
def execFastClampEnd (s : State) : Out := onDev (fun d => { d with pwr := { d.pwr with clamped := false } }) s
/-- VID_SETTLE_CLOCK_RISE (15 R448). -/
def execVidSettleClockRise (s : State) : Out := onDev vidSettleDev s
/-- REEF_CLOCK_STEP (15 R452). -/
def execReefClockStep (s : State) : Out := onDev clockStepDev s
/-- SPAR_GROUP_IDLE (15 R436). -/
def execSparGroupIdle (g : Nat) (s : State) : Out := onDev (groupIdleDev g) s
/-- SLEEP_MARK (15 R437). -/
def execSleepMark (g : Nat) (s : State) : Out := onDev (sleepDev g) s
/-- WAKE_MARK (15 R437). -/
def execWakeMark (g : Nat) (s : State) : Out := onDev (wakeDev g) s
/-- SPAR_GROUP_POWER_DOWN_DONE (15 R438). -/
def execSparGroupPowerDownDone (g : Nat) (s : State) : Out := onDev (downDoneDev g) s
/-- SPAR_GROUP_RUN (15 R436). -/
def execSparGroupRun (g : Nat) (s : State) : Out := onDev (groupRunDev g) s
/-- CORE_POWER_GATE (15 R439). -/
def execCorePowerGate (c : Nat) (s : State) : Out := onDev (coreGateDev c) s
/-- REEF_SET (15 R452). -/
def execReefSet (c : CmdRef) (s : State) : Out := onDev (reefSetDev c) s
/-- POWER_READ (15 R458). -/
def execPowerRead (c : CmdRef) (s : State) : Out := onDev (powerReadDev c) s
/-- CAL_READ (15 R458). -/
def execCalRead (c : CmdRef) (s : State) : Out := onDev (calReadDev c) s
/-- CAL_WRITE (15 R447). -/
def execCalWrite (c : CmdRef) (rec : BitVec 256) (s : State) : Out := onDev (calWriteDev c rec) s
/-- ATTEST (15 R457). -/
def execAttest (c : CmdRef) (s : State) : Out := onDev (attestDev c) s
/-- IDENT_CERT (15 R456). -/
def execIdentCert (c : CmdRef) (s : State) : Out := onDev (identCertDev c) s
/-- FLASH_WRITE (15 R458). -/
def execFlashWrite (c : CmdRef) (img : FwImage) (s : State) : Out := onDev (flashWriteDev c img) s
/-- BOOT_SELECT (15 R458). -/
def execBootSelect (c : CmdRef) (s : State) : Out := onDev (bootSelectDev c) s
/-- BOOT_SELECT_COMMIT_SVN (15 R458). -/
def execBootSelectCommitSvn (c : CmdRef) (s : State) : Out := onDev (commitSvnDev c) s
/-- SAFE_INFO (15 R458). -/
def execSafeInfo (c : CmdRef) (s : State) : Out := onDev (safeInfoDev c) s
/-- DEVICE_RESET (15 R458). -/
def execDeviceReset (c : CmdRef) (s : State) : Out := onBoth (deviceResetBoth c) s

end Sys2Proof.Machine
end

