-- ==== Sys2Proof/Machine/StepOps.lean ====
section
/-! DEFINITION. When a slot of the running plan may issue, what issuing and completing it records, and the stall counters
(03 R84; 07 R224 to R230, R234; 15 R437). -/

namespace Sys2Proof.Machine

/-! ## Watch time (14 R411) -/

/-- Ledgers of the running plan or variant. -/
def ledgersOf (d : Dev) : List Ledger := (d.plan.run.map fun r => r.body.ledgers).getD []

/-- The sweep of a shard: gradient step and state. -/
def sweepOf (d : Dev) (shard : Nat) : Option (Nat × Nat) := (d.tack.sweeps.find? fun s => s.1 = shard).map (·.2)

/-- A sweep due at step `u` is not complete (08 R267; 10 R310). -/
def sweepDue (d : Dev) (u : Nat) : Bool :=
  (ledgersOf d).any fun l => match sweepOf d l.shard with
    | some (g, st) => st = 0 && decide (g + l.lag ≤ u)
    | none => false

/-- `n` stalled cycles of group `g`'s spar: the register counts units of 64 and the remainder stays (03 R84; 14 R408). -/
def stall (g n : Nat) (d : Dev) : Dev :=
  let t := (d.gen.stallRem[g]?).getD 0 + n
  { d with gen := { d.gen with
    stall := modAt (fun c => satAdd c (t / 64)) g d.gen.stall
    stallRem := modAt (fun _ => t % 64) g d.gen.stallRem } }

/-- Arithmetic cycles from the power-on reset to watch cycle `now` at the present clock setting (15 R435). -/
def arithCycles (d : Dev) (now : Nat) : Nat := d.pwr.clk * now / 10

/-- The spar of every group with a claim that waits stalls for `n` cycles (03 R84, R104). -/
def stallWaiting (n : Nat) (d : Dev) : Dev :=
  (List.range Config.nGroups).foldl (fun d g =>
    if ((d.groups[g]?).map fun x => x.waiting.isEmpty).getD true then d else stall g n d) d

/-- A chip at its verdict point withholds its readiness for a sweep that is due (08 R267). -/
def readinessHeld (d : Dev) : Bool :=
  match d.plan.run with
  | none => false
  | some r => r.phase = .atVerdict && !(r.cde.contains 5 || r.cde.contains 0xC) && sweepDue d r.step

/-- `n` watch cycles pass: the reports of the cycle that ends, the watch counter, and the counters of cycles spent waiting (00 R25; 03
R84; 08 R267; 11 R340; 14 R411). -/
def timePasses (n : Nat) (d : Dev) : Dev :=
  let d := if n = 0 then d else deliverAll d
  let d := stallWaiting (arithCycles d (d.dbg.now + n) - arithCycles d d.dbg.now) d
  { d with
    dbg := { d.dbg with now := d.dbg.now + n }
    snap := { d.snap with hold := if d.tack.waits.isEmpty then d.snap.hold else satAdd d.snap.hold n }
    gon := { d.gon with ledgerHold := if readinessHeld d then satAdd d.gon.ledgerHold n else d.gon.ledgerHold } }

/-- A command that carries the watch time: the watch counter is at least there (14 R411). -/
def atTime (now : Nat) (d : Dev) : Dev := timePasses (now - d.dbg.now) d

/-- The slot record of SEQ `seq` (07 R224). -/
def slotOf (r : Run) (seq : Nat) : Option Slot := r.body.slots.find? fun s => s.seq = seq

/-- Watch time of the current step's anchor; without anchors, of its start (07 R225, R231). -/
def anchorOf (d : Dev) (r : Run) : Nat := r.startTime - d.plan.slip

/-- A wait word is met (07 R225). -/
def waitMet (d : Dev) (r : Run) (w : Nat) : Bool :=
  match bits w 31 30 with
  | 0 => true
  | 1 => decide (bits w 17 0 ≤ (d.tth.cur.get (bits w 29 18)).toNat)
  | 2 => r.done.contains (w % 2 ^ 30)
  | _ => decide (anchorOf d r + w % 2 ^ 30 ≤ d.dbg.now)

/-- Every earlier slot of the stream has issued, the carried slots of earlier step starts that it queues behind among them (07 R226,
R234). -/
def streamFree (r : Run) (s : Slot) : Bool :=
  r.body.slots.all (fun t => !(t.stream = s.stream && t.ctx = s.ctx && decide (t.seq < s.seq)) || r.issued.contains t.seq)
  && r.carried.all (fun c => !(c.slot.stream = s.stream && c.slot.ctx = s.ctx) || c.issued)

/-- The arbitration point grants the slot: an ordered point serves in ascending SEQ, each request once those of lower SEQ have
completed; at an unordered one arbitration decides time only (07 R229, R230). -/
def arbGrants (r : Run) (s : Slot) : Bool :=
  match r.body.arbs[s.arb]? with
  | some a =>
    !a.ordered || r.body.slots.all fun t => !(t.arb = s.arb && decide (t.seq < s.seq)) || r.done.contains t.seq
  | none => true

/-- Everything R226 asks of slot `s` but the power state of its group. -/
def slotReady (d : Dev) (r : Run) (s : Slot) : Bool :=
  r.phase != .between && !r.issued.contains s.seq && streamFree r s && waitMet d r s.waitA && waitMet d r s.waitB
    && arbGrants r s && !isSafe d

/-- The slot's spar group is in RUN; a slot of no group needs none (15 R437). -/
def groupReady (d : Dev) (s : Slot) : Bool :=
  match streamGroup s.stream with
  | some g => ((d.gpwr[g]?).map GroupPwr.state) = some .run
  | none => true

/-- A slot that waits for its group counts once in CRW_SG_LATE; an idle group is started for it (15 R436, R437). -/
def groupWait (s : Slot) (d : Dev) : Dev :=
  match d.plan.run with
  | some r =>
    if r.waited.contains s.seq then d
    else modRun (fun r => { r with waited := r.waited ++ [s.seq] }) { d with pwr := { d.pwr with sgLate := satAdd d.pwr.sgLate 1 } }
  | none => d

/-- Records that slot `seq` has issued (07 R226). -/
def issue (seq : Nat) : Dev → Dev := modRun fun r => { r with issued := r.issued ++ [seq] }

/-- The stream of the slot holds as many messages as it may (09 R290). -/
def egressFull (d : Dev) (stream : Nat) : Bool := decide (Config.egressDepth ≤ (d.tth.pend.filter fun p => p.stream = stream).length)

/-- The head slot of another context on this engine is ready and has a lower SEQ: it issues first (07 R227). Arrays choose once per spar
pass, and vector units per instruction: neither chooses here. -/
def otherFirst (d : Dev) (r : Run) (s : Slot) : Bool :=
  r.body.slots.any fun t => t.stream = s.stream && t.ctx ≠ s.ctx && decide (t.seq < s.seq) && t.kind ≠ 0 && t.kind ≠ 2
    && slotReady d r t && groupReady d t && !(t.kind = 4 && egressFull d t.stream) && !d.tack.waits.contains t.seq

/-! ## Carried slots (07 R234) -/

/-- The oldest carried slot with this SEQ that has not issued. -/
def carriedHead (r : Run) (seq : Nat) : Option Carried := r.carried.find? fun c => c.slot.seq = seq && !c.issued

/-- The slot that a command naming `seq` would issue, with its image address. -/
def slotNext (r : Run) (seq : Nat) : Option (Nat × Slot) :=
  match carriedHead r seq with
  | some c => some (c.addr, c.slot)
  | none => (slotOf r seq).map fun s => (r.addr, s)

/-- Carried slot `a` stands before `b` in its step starts and slot order. -/
def Carried.before (a b : Carried) : Bool := decide (a.start < b.start) || (a.start = b.start && decide (a.slot.seq < b.slot.seq))

/-- A wait of a carried slot is met: a slot of its own step start has completed, or went with a skip; a watch time counts from its own
anchor; the tally window of its step start is gone (07 R225, R234; log entry 57). -/
def carriedWait (d : Dev) (r : Run) (c : Carried) (w : Nat) : Bool :=
  match bits w 31 30 with
  | 0 => true
  | 1 => false
  | 2 => !r.carried.any fun e => e.start = c.start && e.slot.seq = w % 2 ^ 30
  | _ => decide (c.anchor + w % 2 ^ 30 ≤ d.dbg.now)

/-- A carried slot may issue: it keeps its stream position (07 R226, R234). -/
def carriedReady (d : Dev) (r : Run) (c : Carried) : Bool :=
  (r.carried.all fun e => !(e.slot.stream = c.slot.stream && e.slot.ctx = c.slot.ctx && e.before c) || e.issued)
    && carriedWait d r c c.slot.waitA && carriedWait d r c c.slot.waitB && !isSafe d

/-- Records that a carried slot has issued (07 R234). -/
def issueCarried (c : Carried) : Dev → Dev :=
  modRun fun r => { r with carried := r.carried.map fun e => if e = c then { e with issued := true } else e }

/-- A wait that is met when the slot's step ends stays met. -/
def keepWait (d : Dev) (r : Run) (w : Nat) : Nat := if waitMet d r w then 0 else w

/-- The CARRY slots of a step that have not completed run on, each at its stream position (07 R234). -/
def carryOn (d : Dev) (r : Run) : Run :=
  { r with carried := r.carried ++ (r.body.slots.filter fun s => s.carry && !r.done.contains s.seq).map fun s =>
      ⟨r.start, r.addr, anchorOf d r, r.issued.contains s.seq, { s with waitA := keepWait d r s.waitA, waitB := keepWait d r s.waitB }⟩ }

/-- Runs `f` for slot `seq` of kind `kind` when it issues; otherwise nothing changes, but for the count of a slot that waits for its
group. A carried slot of an earlier start goes before the slot of this one. A slot that writes into a HELD copy waits; `w`
gives the ranges it writes (07 R226, R227, R234; 11 R340). -/
def onSlotW (seq kind : Nat) (w : Run → Slot → Mem → Dev → List (Nat × Nat)) (f : Run → Slot → Mem → Dev → Mem × Dev) (m : Mem)
    (d : Dev) : Mem × Dev :=
  match d.plan.run with
  | none => (m, d)
  | some r =>
    match carriedHead r seq with
    | some c =>
      let r := { r with start := c.start, addr := c.addr }
      if c.slot.kind ≠ kind || !carriedReady d r c then (m, d)
      else if (w r c.slot m d).any fun x => heldWrite d x.1 x.2 then (m, holdSlot seq d)
      else f r c.slot m (issueCarried c d)
    | none =>
      match slotOf r seq with
      | none => (m, d)
      | some s =>
        if s.kind ≠ kind || !slotReady d r s || otherFirst d r s then (m, d)
        else if !groupReady d s then (m, groupWait s d)
        else if (w r s m d).any fun x => heldWrite d x.1 x.2 then (m, holdSlot seq d)
        else f r s m (issue seq d)

/-- As `onSlotW`, for a slot that writes nothing a tack entry covers (07 R226). -/
def onSlot (seq kind : Nat) (f : Run → Slot → Mem → Dev → Mem × Dev) : Mem → Dev → Mem × Dev :=
  onSlotW seq kind (fun _ _ _ _ => []) f

/-- As `onSlot`, for a slot that does not touch memory; none of its kinds may carry. -/
def onSlotDev (seq kind : Nat) (f : Run → Slot → Dev → Dev) (d : Dev) : Dev :=
  match d.plan.run with
  | none => d
  | some r =>
    match slotOf r seq with
    | none => d
    | some s =>
      if s.kind ≠ kind || !slotReady d r s || otherFirst d r s then d
      else if !groupReady d s then groupWait s d
      else f r s (issue seq d)

/-- A mark of the plan with ARG `arg` issues; `w` gives the ranges it writes (07 R224; 11 R340). -/
def onMarkW (seq arg : Nat) (w : Run → Slot → Mem → Dev → List (Nat × Nat)) (f : Run → Slot → Mem → Dev → Mem × Dev) (m : Mem)
    (d : Dev) : Mem × Dev :=
  match (d.plan.run).bind fun r => slotOf r seq with
  | some s => if s.arg = arg then onSlotW seq 7 w f m d else (m, d)
  | none => (m, d)

/-- As `onMarkW`, for a mark that writes nothing a tack entry covers (07 R224). -/
def onMark (seq arg : Nat) (f : Run → Slot → Mem → Dev → Mem × Dev) : Mem → Dev → Mem × Dev :=
  onMarkW seq arg (fun _ _ _ _ => []) f

/-- While readiness is withheld for a sweep, its slots run again once every one of them has completed (08 R267). -/
def sweepRepeat (d : Dev) : Dev :=
  if readinessHeld d then
    modRun (fun r =>
      if r.sweepSlots.all r.done.contains then
        { r with issued := r.issued.filter (fun q => !r.sweepSlots.contains q), done := r.done.filter fun q => !r.sweepSlots.contains q }
      else r) d
  else d

/-- Slot `seq` of step start `start` has completed: the slots that wait on it are released (07 R225), or it leaves the
carried slots (07 R234). -/
def complete (start seq : Nat) (d : Dev) : Dev :=
  sweepRepeat (modRun (fun r =>
    if start = r.start && r.phase != .between then { r with done := if r.done.contains seq then r.done else r.done ++ [seq] }
    else { r with carried := r.carried.filter fun c => !(c.start = start && c.slot.seq = seq) }) d)

/-- The step start, the image address and the slot under which slot `seq` is in flight: carried, or of this start (07 R234). -/
def inFlight (r : Run) (seq : Nat) : Option (Nat × Nat × Slot) :=
  match r.carried.find? fun c => c.slot.seq = seq && c.issued with
  | some c => some (c.start, c.addr, c.slot)
  | none =>
    if r.issued.contains seq && !r.done.contains seq then (slotOf r seq).map fun s => (r.start, r.addr, s) else none

/-- Changes main array `a`. -/
def modArr (a : Nat) (f : MArr → MArr) (d : Dev) : Dev := { d with arrays := modAt f a d.arrays }

/-- Changes spar group `g`'s engines. -/
def modGroup (g : Nat) (f : Group → Group) (d : Dev) : Dev := { d with groups := modAt f g d.groups }

/-- A parity replay or restart: CORRECTED, counted, and one event against its bucket region (13 R385, R395). -/
def parity (block source cls region : Nat) (d : Dev) : Dev :=
  bucketJoin cls region (fault [⟨clsCorrected, block, 0x0D10, source, 0, false⟩]
    { d with integ := { d.integ with parReplay := satAdd d.integ.parReplay 1 } })

/-- The physical site of the ballast unit of a kind and scope: a unit rotated into ballast, or the spare of a new device (13
R392, R394, R396; log entry 26). -/
def ballastSite (d : Dev) (kind scope : Nat) : Nat :=
  match d.integ.rotated.find? fun r => r.1 = kind && r.2.2 = scope with
  | some r => r.2.1
  | none => (if kind = 0 then 160 else if kind = 1 then 40 else 64) + scope

/-- The ballast unit of a kind and scope is called into service: a test of it is aborted, and the BIST_RUN command completes
(13 R392, R400). `slice` is its slice of R390. -/
def callUp (slice kind scope : Nat) (d : Dev) : Dev :=
  let site := ballastSite d kind scope
  let d := { d with integ := { d.integ with rotated := d.integ.rotated.filter fun r => !(r.1 = kind && r.2.2 = scope) } }
  match d.integ.bistCmd with
  | some (sl, ring, tag) =>
    if d.integ.bistRun && d.integ.bistSite = site && sl = slice then
      completeTag ring tag 0x601 { status := stOk, data := 3 } (bistAbort d)
    else d
  | none => d

end Sys2Proof.Machine
end

