-- ==== Sys2Proof/Machine/Arrays.lean ====
section
/-! DEFINITION. Main arrays: array records, weight sets, the cell operations, carry store, statistics tap, drain and tile
queue, parity replay and ballast swaps (03 R76 to R111; 05 R156 to R159). -/

namespace Sys2Proof.Machine

/-! ## Records (03 R91; 05 R156; log entry 21) -/

/-- The tap record in two 64-bit words (05 R156). -/
def tapOf (w0 w1 : Nat) : TapRec :=
  ⟨bit w0 63, bits w0 62 57 + 1, bits w0 56 51, bits w0 50 47, bits w0 46 45, bits w0 44 32, bits w0 31 0,
   bits w1 63 52, bits w1 51 40, bits w1 39 0⟩

/-- The array record at `a`: 64-bit words in the model's own order after OPWORD (03 R91; log entry 21). -/
def arrRecAt (m : Mem) (a : Nat) : ArrRec :=
  let w (i : Nat) : Nat := m.readLE (a + 8 * i) 8
  let o := w 0
  { op := bits o 63 60, mode := bits o 59 58, aFmt := bits o 57 54, wFmt := bits o 53 50, xload := bit o 49
    preload := bits o 48 47, dest := bit o 46, kImg := bits o 45 39 + 1, nImg := bits o 38 32 + 1, paneEn := bits o 31 16
    ncw := bits o 15 0, thresh := BitVec.ofNat 32 (w 1), rows := bits (w 1) 47 32 + 1, stream := bits (w 1) 60 48
    wAddr := w 2 % 2 ^ 48, aAddr := w 3 % 2 ^ 48, wbxAddr := w 4 % 2 ^ 48, abxAddr := w 5 % 2 ^ 48
    cfill := w 6 % 2 ^ 48, gidx := w 7 % 2 ^ 48, wPitch := w 8 % 2 ^ 32, aPitch := w 8 / 2 ^ 32
    gpitch := w 9 % 2 ^ 32, aScale := BitVec.ofNat 32 (w 10), wScale := BitVec.ofNat 32 (w 10 / 2 ^ 32)
    amax := ⟨bits (w 11) 15 0, bits (w 11) 21 16 + 1, bits (w 11) 24 22, bit (w 11) 25⟩, tap := tapOf (w 12) (w 13) }

/-- Pane edge e of a layout (03 R85). -/
def paneEdge (mode : Nat) : Nat := if mode = 0 then 128 else if mode = 1 then 64 else 32

/-- Panes along one side of the grid (03 R85). -/
def paneSide (mode : Nat) : Nat := 128 / paneEdge mode

/-- The step period P (03 R77). -/
def stepPeriod (mode aFmt : Nat) : Nat :=
  if aFmt = 1 then 32 else if aFmt = 0 then 8
  else if aFmt = 2 ∨ aFmt = 3 then (if mode = 2 then 4 else 2)
  else if aFmt = 6 then (if mode = 0 then 1 else if mode = 1 then 2 else 4)
  else if mode = 2 then 2 else 1

/-- The weight-load time L_c in cycles (03 R77). -/
def loadCycles (wFmt : Nat) : Nat :=
  if wFmt = 6 then 68 else if wFmt = 1 then 512 else if wFmt = 0 then 256 else if wFmt = 2 ∨ wFmt = 3 then 128 else 64

/-- The enabled panes of a record (03 R91). -/
def ArrRec.panes (r : ArrRec) : List Nat := (List.range (paneSide r.mode * paneSide r.mode)).filter fun p => bit r.paneEn p

/-- Elements of one activation row that a pane takes: two per cell row in FP4 (03 R82, R83). -/
def ArrRec.slice (r : ArrRec) : Nat := if r.aFmt = 6 then 2 * paneEdge r.mode else paneEdge r.mode

/-- The accumulator of an operation (03 R96). -/
inductive AccKind where
  | xf32 | fp64 | int
deriving DecidableEq, Repr

/-- The accumulator of a record (03 R96). -/
def ArrRec.acc (r : ArrRec) : AccKind :=
  if 5 ≤ r.op ∨ r.aFmt = 7 then .int else if r.aFmt = 1 then .fp64 else .xf32

/-! ## Reading the images -/

/-- Reads the words at a list of addresses, `n` bytes each, for a slot of the step (13 R387). -/
def readWords (m : Mem) (n : Nat) : List Nat → Dev → List Nat × Dev
  | [], d => ([], d)
  | a :: as, d =>
    let r := readSlot m d a n
    let q := readWords m n as r.2
    (leNat r.1 :: q.1, q.2)

/-- Bytes of one weight register's content in memory: an element, or a pair byte in FP4 (03 R76, R99). -/
def weightBytes (f : Nat) : Nat := if f = 6 then 1 else fmtBits f / 8

/-- The address of the image element that cell (i, j) of pane `p` holds: transposed by a cross-load; FP4 pairs run along K
(02 R46; 03 R99, R100; log entry 21). -/
def ArrRec.weightAddr (r : ArrRec) (p i j : Nat) : Nat :=
  let e := paneEdge r.mode
  if r.wFmt = 6 then r.wAddr + (p * e + j) * r.wPitch + i
  else
    let row := if r.xload then j else i
    let col := if r.xload then i else j
    r.wAddr + (p * e + row) * r.wPitch + col * weightBytes r.wFmt

/-- The cells of a weight set that load: (pane, cell row, cell column) within their panes (03 R91). -/
def ArrRec.cells (r : ArrRec) : List (Nat × Nat × Nat) :=
  r.panes.flatMap fun p => (List.range r.kImg).flatMap fun i => (List.range r.nImg).map fun j => (p, i, j)

/-- The grid position 128 * row + column of cell (i, j) of pane `p` (03 R85). -/
def ArrRec.cellKey (r : ArrRec) (p i j : Nat) : Nat :=
  let e := paneEdge r.mode
  let n := paneSide r.mode
  128 * (p / n * e + i) + (p % n * e + j)

/-- The weight BX8 bytes of a weight set: their registers and addresses (02 R46, 03 R99; log entry 21). -/
def ArrRec.bxCells (r : ArrRec) : List (Nat × Nat) :=
  if r.wFmt ≠ 6 then []
  else
    let e := paneEdge r.mode
    let n := paneSide r.mode
    r.panes.flatMap fun p => (List.range (r.kImg / 16)).flatMap fun s => (List.range r.nImg).map fun j =>
      (128 * (p / n * (e / 16) + s) + (p % n * e + j), r.wbxAddr + (p * e + j) * (r.wPitch / 16) + s)

/-- Loads a weight set into register `reg1` of array `a` (03 R78, R80, R86: cells outside the set keep their content). -/
def loadWeights (m : Mem) (a : Nat) (r : ArrRec) (reg1 : Bool) (d : Dev) : Dev :=
  let cs := r.cells
  let ws := readWords m (weightBytes r.wFmt) (cs.map fun c => r.weightAddr c.1 c.2.1 c.2.2) d
  let bs := readWords m 1 (r.bxCells.map (·.2)) ws.2
  let put (s : Sparse 64) : Sparse 64 :=
    (cs.zip ws.1).foldl (fun s c => s.set (r.cellKey c.1.1 c.1.2.1 c.1.2.2) (BitVec.ofNat 64 c.2)) s
  let putBx (s : Sparse 8) : Sparse 8 := (r.bxCells.zip bs.1).foldl (fun s c => s.set c.1.1 (BitVec.ofNat 8 c.2)) s
  modArr a (fun x => if reg1 then { x with w1 := put x.w1, bx1 := putBx x.bx1 } else { x with w0 := put x.w0, bx0 := putBx x.bx0 })
    bs.2

/-! ## Cell operations (02 R52, R53; 03 R93 to R99) -/

/-- An accumulator value: a number, or an integer. -/
inductive Acc where
  | num (x : Num)
  | int (i : Int)
deriving DecidableEq, Repr

/-- The identity preload of an operation (03 R96). -/
def ArrRec.identity (r : ArrRec) : Acc :=
  match r.acc with
  | .int => .int 0
  | _ => .num (if r.op = 1 then .inf false else if r.op = 2 then .inf true else .zero false)

/-- The accumulator word that leaves the south edge (03 R88, R90). -/
def accWord (k : AccKind) (a : Acc) : BitVec 64 :=
  match a with
  | .int i => BitVec.ofNat 64 (ofSInt 32 i)
  | .num x => if k = .fp64 then BitVec.ofNat 64 (fp64.ieee false false x).code else carryWord x

/-- The accumulator value of a stored word (03 R88, R90). -/
def accValue (k : AccKind) (w : BitVec 64) : Acc :=
  match k with
  | .int => .int (sext 32 w.toNat)
  | .fp64 => .num (fp64.decode w.toNat)
  | .xf32 => .num (carryValue w)

/-- A saturating INT32 sum (02 R52). -/
def satSum (i : Int) : Int × Nat :=
  if i < -2147483648 then (-2147483648, fOVF) else if 2147483647 < i then (2147483647, fOVF) else (i, 0)

/-- Set bits among the low `n` of a value. -/
def popcount (n v : Nat) : Nat := ((List.range n).filter fun i => bit v i).length

/-- One term of an integer accumulation (03 R93, R97, R98). -/
def intTerm (op aFmt : Nat) (tau : W32) (wa ww : Nat) (x w : Num) : Int :=
  let diff := (x.add w.neg).1
  match op with
  | 0 => sext 8 wa * sext 8 ww
  | 3 => (sext 8 wa - sext 8 ww) * (sext 8 wa - sext 8 ww)
  | 4 => (sext 8 wa - sext 8 ww).natAbs
  | 5 => popcount 8 (Nat.xor wa ww)
  | 6 => if x ≠ .nan ∧ w ≠ .nan ∧ !x.lt w then 1 else 0
  | _ =>
    let t := if aFmt = 7 then Num.ofInt tau.toInt else fp32.decode tau.toNat
    let mag := match diff with
      | .inf _ => Num.inf false
      | .fin _ m e => .fin false m e
      | .nan => .nan
    let both := (match x, w with | .inf _, .inf _ => true | _, _ => false)
    if mag ≠ .nan ∧ t ≠ .nan ∧ !both ∧ (!t.isNeg || t.isZero) ∧ !t.lt mag then 1 else 0

/-- One cell operation on XF32 or FP64 (03 R93, R97; 02 R52). -/
def numStep (k : AccKind) (op : Nat) (acc x w : Num) : Num × Nat :=
  let rnd (v : Num) : Num × Nat :=
    match k with
    | .fp64 => let r := fp64.ieee false false v; (fp64.decode r.code, r.flags &&& (fOVF ||| fUNF))
    | _ => xf32 v
  match op with
  | 0 =>
    let p := x.fma w acc
    let r := rnd p.1
    (r.1, p.2 ||| r.2)
  | 1 =>
    let p := x.add w
    let r := rnd p.1
    (acc.min r.1, p.2 ||| r.2)
  | 2 =>
    let p := x.add w
    let r := rnd p.1
    (acc.max r.1, p.2 ||| r.2)
  | 3 =>
    let t := x.add w.neg
    let p := t.1.fma t.1 acc
    let r := rnd p.1
    (r.1, t.2 ||| p.2 ||| r.2)
  | _ =>
    let t := x.add w.neg
    let mag := match t.1 with
      | .inf _ => Num.inf false
      | .fin _ m e => .fin false m e
      | .nan => .nan
    let p := acc.add mag
    let r := rnd p.1
    (r.1, t.2 ||| p.2 ||| r.2)

/-- One cell operation on a chain's accumulator; `wa` and `ww` are the operand codes (03 R93). -/
def cellStep (r : ArrRec) (acc : Acc × Nat) (wa ww : Nat) : Acc × Nat :=
  let x := decodeAs r.aFmt wa
  let w := decodeAs r.wFmt ww
  match acc.1 with
  | .int i =>
    let t := satSum (i + intTerm r.op r.aFmt r.thresh wa ww x w)
    (.int t.1, acc.2 ||| t.2)
  | .num v =>
    let t := numStep r.acc r.op v x w
    (.num t.1, acc.2 ||| t.2)

/-- The exact sum of the products of one FP4 block: pairs of (activation pair byte, weight pair byte) (03 R99). -/
def blockSum (ps : List (Nat × Nat)) : Num :=
  ps.foldl (fun s p =>
    let a (n : Nat) : Num := ((fp4.decode (p.1 / n % 16)).mul (fp4.decode (p.2 / n % 16))).1
    ((s.add (a 1)).1.add (a 16)).1) (.zero false)

/-- One FP4 block added to the chain: scaled by 2^(ea + ew), one rounding; a NaN block makes the term NaN (03 R99, 02 R52). -/
def blockStep (acc : Acc × Nat) (ps : List (Nat × Nat)) (ba bw : Nat) : Acc × Nat :=
  let t : Num :=
    if ba = 255 ∨ bw = 255 then .nan
    else match blockSum ps with
      | .fin s m e => .fin s m (e + (ba : Int) + bw - 254)
      | v => v
  match acc.1 with
  | .int i => (.int i, acc.2)
  | .num v =>
    let p := v.add t
    let r := xf32 p.1
    (.num r.1, acc.2 ||| p.2 ||| r.2)

/-- FP4 blocks of a chain: the activation pairs, weights pairs, and the BX8 of each block. -/
def blockChain (acc : Acc × Nat) : List (List (Nat × Nat) × Nat × Nat) → Acc × Nat
  | [] => acc
  | b :: bs => blockChain (blockStep acc b.1 b.2.1 b.2.2) bs

/-! ## Streaming the rows (03 R79, R86, R88, R99) -/

/-- Everything a streamed pass produces: words by key, and flags. -/
abbrev PassOut := List (Nat × BitVec 64) × Nat

/-- The activation codes of row `m` for pane `p`: elements, or pair bytes in FP4, and the BX8 bytes of its blocks (03 R82,
R83; log entry 21). -/
def ArrRec.actRow (r : ArrRec) (mem : Mem) (m p : Nat) (d : Dev) : (List Nat × List Nat) × Dev :=
  let base := r.aAddr + m * r.aPitch
  if r.aFmt = 6 then
    let x := readWords mem 1 ((List.range r.kImg).map fun i => base + p * paneEdge r.mode + i) d
    let y := readWords mem 1
      ((List.range (r.kImg / 16)).map fun s => r.abxAddr + m * (r.aPitch / 16) + p * (paneEdge r.mode / 16) + s) x.2
    ((x.1, y.1), y.2)
  else
    let w := fmtBits r.aFmt / 8
    let x := readWords mem w ((List.range r.kImg).map fun i => base + (p * paneEdge r.mode + i) * w) d
    ((x.1, []), x.2)

/-- The weight code of cell (i, j) of pane `p` in the register a pass uses. -/
def MArr.weight (x : MArr) (reg1 : Bool) (key : Nat) : Nat := ((if reg1 then x.w1 else x.w0).get key).toNat

/-- Row index in a carry half, and slot row, of row `m` of pane `p` (03 R88, R102). -/
def ArrRec.carryKey (r : ArrRec) (p m j : Nat) : Nat :=
  let n := paneSide r.mode
  128 * (p / n * (256 / n) + m) + (p % n * paneEdge r.mode + j)

/-- Key of result (p, m, j) among a pass's results: tile, slot row, slot column (03 R102, R105). -/
def ArrRec.outKey (r : ArrRec) (p m j : Nat) : Nat :=
  let n := paneSide r.mode
  let e := paneEdge r.mode
  16384 * (m / e) + 128 * (p / n * e + m % e) + (p % n * e + j)

/-- The chain of one result: the operand codes in ascending K from the preload (02 R53). -/
def ArrRec.chain (r : ArrRec) (x : MArr) (reg1 : Bool) (p j : Nat) (init : Acc) (act : List Nat × List Nat) : Acc × Nat :=
  let ws := (List.range r.kImg).map fun i => x.weight reg1 (r.cellKey p i j)
  if r.aFmt = 6 then
    let bx (s : Nat) : Nat :=
      let e := paneEdge r.mode
      let n := paneSide r.mode
      ((if reg1 then x.bx1 else x.bx0).get (128 * (p / n * (e / 16) + s) + (p % n * e + j))).toNat
    blockChain (init, 0) ((List.range (r.kImg / 16)).map fun s =>
      (((act.1.drop (16 * s)).take 16).zip ((ws.drop (16 * s)).take 16), (act.2[s]?).getD 0, bx s))
  else (act.1.zip ws).foldl (fun a c => cellStep r a c.1 c.2) (init, 0)

/-- One row of one pane: its results. `half` is the carry-store half that preloads it. -/
def ArrRec.rowOut (r : ArrRec) (x : MArr) (reg1 : Bool) (half : Sparse 64) (p m : Nat) (act : List Nat × List Nat) : PassOut :=
  (List.range r.nImg).foldl (fun o j =>
    let init := if r.preload = 1 then accValue r.acc (half.get (r.carryKey p m j)) else r.identity
    let c := r.chain x reg1 p j init act
    (o.1 ++ [(if r.dest then r.carryKey p m j else r.outKey p m j, accWord r.acc c.1)], o.2 ||| c.2)) ([], 0)

/-- Streams rows of every enabled pane: (pane, row) pairs in turn. -/
def streamRows (mem : Mem) (r : ArrRec) (x : MArr) (reg1 : Bool) (half : Sparse 64) : List (Nat × Nat) → Dev → PassOut × Dev
  | [], d => (([], 0), d)
  | (p, m) :: t, d =>
    let a := r.actRow mem m p d
    let o := r.rowOut x reg1 half p m a.1
    let q := streamRows mem r x reg1 half t a.2
    ((o.1 ++ q.1.1, o.2 ||| q.1.2), q.2)

/-! ## The statistics tap (05 R156 to R159) -/

/-- The 16-bit code a tap stores for an element (05 R158). -/
def tapCode (fmt w : Nat) : Nat := if fmt = 2 ∨ fmt = 3 then w else (fp16.ieee false false (decodeAs fmt w)).code

/-- Counts a tapped row once: another slice of it, or the same slice of the same source again, is no new row; the same slice from another
source is a row of another run (05 R159). -/
def countTap (x : Tapped) (d : Dev) : Dev :=
  let same (y : Tapped) : Bool := y.group = x.group && y.kind = x.kind && y.base = x.base && y.row = x.row
  match d.curv.tapped.find? same with
  | none => { d with curv := { d.curv with tapped := d.curv.tapped ++ [x], tapRows := satAdd d.curv.tapRows 1 } }
  | some y =>
    let moved := x.seen.any fun s => y.seen.any fun o => s.1 = o.1 && s.2.1 = o.2.1 && s.2.2 ≠ o.2.2
    let seen := if moved then x.seen else y.seen ++ x.seen.filter fun s => !y.seen.contains s
    { d with curv := { d.curv with
        tapped := d.curv.tapped.map fun y => if same y then { y with seen := seen } else y
        tapRows := if moved then satAdd d.curv.tapRows 1 else d.curv.tapRows } }

/-- Taps row `m` of a pass on group `g`: the selected row's slice is written into the ring, and the row counted once (05
R157, R159). -/
def tapRow (g : Nat) (r : ArrRec) (m : Nat) (mem : Mem) (d : Dev) : Mem × Dev :=
  let t := r.tap
  let q := t.rowBase + m
  if !t.en || q % t.div ≠ t.phase then (mem, d)
  else
    let w := fmtBits r.aFmt / 8
    let e := paneEdge r.mode
    let src := r.aAddr + m * r.aPitch + t.sub * e * w
    let x := readWords mem w ((List.range e).map fun k => src + k * w) d
    let dst := t.base + 256 * t.pitch * (q / t.div % (t.ringM1 + 1)) + 64 * t.colOff
    let y := writeSlot mem x.2 dst (x.1.flatMap fun v => leBytes 2 (tapCode r.aFmt v))
    let d := y.2
    (y.1,
      countTap ⟨g, t.kind, t.base, q, [(t.colOff, t.sub, src)]⟩ d)

/-- Taps every row of a pass. -/
def tapRows (g : Nat) (r : ArrRec) : List Nat → Mem → Dev → Mem × Dev
  | [], mem, d => (mem, d)
  | m :: t, mem, d => let x := tapRow g r m mem d; tapRows g r t x.1 x.2

/-! ## The registers of the cells (03 R76, R79) -/

/-- The accumulators of a chain after each of its cells, but for FP4, whose chain stands at its last whole segment. -/
def chainSteps (r : ArrRec) : Acc × Nat → List (Nat × Nat) → List Acc
  | _, [] => []
  | a, c :: t => let b := cellStep r a c.1 c.2; b.1 :: chainSteps r b t

/-- The partial sums that row `m` of pane `p` leaves in the cells of column `j`, by cell row (03 R76, R79; log entry 55). -/
def ArrRec.colSums (r : ArrRec) (x : MArr) (reg1 : Bool) (init : Acc) (p j : Nat) (act : List Nat × List Nat) : List Acc :=
  if r.aFmt = 6 then
    (List.range r.kImg).map fun i => ({ r with kImg := i / 16 * 16 }.chain x reg1 p j init act).1
  else chainSteps r (init, 0) (act.1.zip ((List.range r.kImg).map fun i => x.weight reg1 (r.cellKey p i j)))

/-- The last row of an M-block stays in the cells' activation and partial-sum registers once it has passed (03 R76, R79). -/
def restRegs (mem : Mem) (a : Nat) (r : ArrRec) (reg1 : Bool) (half : Sparse 64) (d : Dev) : Dev :=
  modArr a (fun x => r.panes.foldl (fun x p =>
    let act := (r.actRow mem (r.rows - 1) p d).1
    (List.range r.nImg).foldl (fun x j =>
      let init := if r.preload = 1 then accValue r.acc (half.get (r.carryKey p (r.rows - 1) j)) else r.identity
      ((r.colSums x reg1 init p j act).zip act.1).zipIdx.foldl (fun (x : MArr) c =>
        let k := r.cellKey p c.2 j
        { x with act := x.act.set k (BitVec.ofNat 64 c.1.2), psum := x.psum.set k (accWord r.acc c.1.1) }) x) x) x) d

/-! ## Issue and load (03 R80, R84, R90, R110) -/

/-- Bytes of one tile of accumulator words as the drain lays it out (03 R90, R102). -/
def ArrRec.fillTile (r : ArrRec) : Nat := if r.acc = .int then 65536 else 131072

/-- A carry fill: tiles of accumulator words in the drain's layout, one for each e rows of the M-block and one after the other, become
the half written last (03 R90, R102). -/
def carryFill (mem : Mem) (a : Nat) (r : ArrRec) (d : Dev) : Dev :=
  if r.cfill = 0 then d
  else
    let wide := r.acc ≠ .int
    let e := paneEdge r.mode
    let n := paneSide r.mode
    let keys := r.panes.flatMap fun p => (List.range r.rows).flatMap fun m => (List.range r.nImg).map fun j =>
      (r.carryKey p m j, m / e, p / n * e + m % e, p % n * e + j)
    let addr (t row col : Nat) : Nat :=
      r.cfill + r.fillTile * t + (if wide then 65536 * (col / 64) + 8 * (64 * row + col % 64) else 4 * (128 * row + col))
    let ws := readWords mem (if wide then 8 else 4) (keys.map fun k => addr k.2.1 k.2.2.1 k.2.2.2) d
    let put (s : Sparse 64) : Sparse 64 := (keys.zip ws.1).foldl (fun s c => s.set c.1.1 (BitVec.ofNat 64 c.2)) s
    modArr a (fun x => if x.last1 then { x with half0 := put x.half0, last1 := false } else { x with half1 := put x.half1, last1 := true })
      ws.2

/-- A corrected word of a carry-store row: counted, CORRECTED, one event against class 2; a row's second correction
retires it into a spare row of its array (03 R110; 13 R383, R386). -/
def carryCorrect (a word : Nat) (d : Dev) : Dev :=
  let row := word / 128
  let d := bucketJoin 2 a (fault [⟨clsCorrected, 0x00, 0x0D04, a, 0, false⟩]
    { d with integ := { d.integ with corr := satAdd d.integ.corr 1 } })
  match d.arrays[a]? with
  | none => d
  | some x =>
    if !x.carryHits.contains row then modArr a (fun x => { x with carryHits := x.carryHits ++ [row] }) d
    else if x.carryRows < 8 then
      let d := modArr a (fun x => { x with carryHits := x.carryHits.filter (· ≠ row), carryRows := x.carryRows + 1 }) d
      let d := { d with integ := { d.integ with rowRetire := satAdd d.integ.rowRetire 1 } }
      repair ⟨0x0B, a, row, 2, 1, row, 0xFF, 7 - x.carryRows, 0, 0⟩ (also [⟨clsDegraded, 0x0A, 0x0D18, a, row, false⟩] d)
    else d

/-- Spare carry-store rows left on array `a` (13 R386, R394). -/
def carrySpares (d : Dev) (a : Nat) : Nat := 8 - ((d.arrays[a]?).map MArr.carryRows).getD 0

/-- What the carry store's code finds in the half that a pass preloads: corrections, and words that cannot be corrected,
which read as zeros and raise a contained data error (03 R110; 13 R387). -/
def carryErrors (a : Nat) (c : EccFind) (d : Dev) : Dev :=
  let d := c.ce.foldl (fun d w => carryCorrect a w d) d
  c.ue.foldl (fun d w => cde 3 (repair ⟨0x0B, a, w / 128, 2, 0, w / 128, 0xFF, carrySpares d a, 0, 0⟩ (countUe 1 (newFault d)))) d

/-- The carry half as a pass reads it. -/
def MArr.preloadHalf (x : MArr) (ue : List Nat) : Sparse 64 :=
  (if x.last1 then x.half1 else x.half0).keep fun k => !ue.contains k

/-- Rows an M-block streams through each pane. -/
def ArrRec.rowPairs (r : ArrRec) : List (Nat × Nat) := r.panes.flatMap fun p => (List.range r.rows).map fun m => (p, m)

/-- Streams the M-block of a weight set whose register is loaded: its results become the other carry-store half, or wait for
the drain, and the tap copies its rows (03 R79, R88; 05 R157). `ue`: carry words that read as zeros. -/
def streamPass (a : Nat) (ue : List Nat) (p : Pass) (mem : Mem) (d : Dev) : Mem × Dev :=
  match d.arrays[a]? with
  | none => (mem, d)
  | some x =>
    let r := p.record
    let o := streamRows mem r x p.reg1 (x.preloadHalf ue) r.rowPairs d
    let words : Sparse 64 := o.1.1.foldl (fun (s : Sparse 64) k => s.set k.1 k.2) []
    let d := modArr a (fun x =>
      let x := { x with next1 := !x.next1, passes := x.passes ++ [{ p with out := if r.dest then [] else words }] }
      if !r.dest then x
      else if x.last1 then { x with half0 := words, last1 := false } else { x with half1 := words, last1 := true })
      (setFlags (engArray a) p.ctx o.1.2 (restRegs mem a r p.reg1 (x.preloadHalf ue) o.2))
    tapRows (a / 4) r (List.range r.rows) mem (modGroup (a / 4) (fun g => { g with streamed := true }) d)

/-- A weight set whose results have all reached the carry store; it stays in the array for a replay until the next set's rows
follow (03 R88, R108). -/
def Pass.spent (p : Pass) : Bool := p.loaded && p.record.dest

/-- Group `g` holds: a claim of one of its arrays waits for a tile-queue entry (03 R84, R104). -/
def groupHolds (d : Dev) (g : Nat) : Bool := ((d.groups[g]?).map fun x => !x.waiting.isEmpty).getD false

/-- The array can accept the weight set of a record: its group does not hold, a register is free, no load runs beside a carry fill,
and another layout or step period finds the array empty (03 R80, R81, R84, R90; 07 R226). -/
def arrayAccepts (r : ArrRec) (a : Nat) (d : Dev) : Bool :=
  match d.arrays[a]? with
  | none => false
  | some x =>
    let loading := x.passes.filter fun p => !p.loaded
    !groupHolds d (a / 4) && decide (loading.length < 2) && (r.cfill = 0 || loading.isEmpty)
      && x.passes.all fun p => p.spent || (p.record.mode = r.mode && stepPeriod p.record.mode p.record.aFmt = stepPeriod r.mode r.aFmt)

/-- An array record issues: its weight set loads after its carry fill, and its rows stream through the cells (03 R78 to R90, R110). -/
def arrayIssue (carry : EccFind) (run : Run) (s : Slot) (mem : Mem) (d : Dev) : Mem × Dev :=
  let a := s.stream
  match d.arrays[a]? with
  | none => (mem, d)
  | some x =>
    let r := arrRecAt mem (run.addr + s.payload)
    let d := loadWeights mem a r x.next1 (carryFill mem a r d)
    let d := if r.preload = 1 then carryErrors a carry d else d
    let after := ((d.groups[a / 4]?).map Group.streamed).getD false
    streamPass a (if r.preload = 1 then carry.ue else []) ⟨s.seq, s.ctx, r, x.next1, after, false, [], 0, false⟩ mem d

/-- A ready array slot of lower SEQ of another context stands on an array of the spar's group: the spar takes that context first (07
R227). -/
def groupTurn (m : Mem) (d : Dev) (r : Run) (s : Slot) : Bool :=
  r.body.slots.any fun t => t.kind = 0 && t.stream / 4 = s.stream / 4 && t.ctx ≠ s.ctx && decide (t.seq < s.seq)
    && slotReady d r t && groupReady d t && arrayAccepts (arrRecAt m (r.addr + t.payload)) t.stream d

/-- ARRAY_SLOT: the slot issues where its array can accept it and the spar takes its context (07 R226, R227). -/
def arraySlotBoth (seq : Nat) (carry : EccFind) (m : Mem) (d : Dev) : Mem × Dev :=
  match (d.plan.run).bind fun r => (slotOf r seq).map fun s => (r, s) with
  | none => (m, d)
  | some (r, s) =>
    if arrayAccepts (arrRecAt m (r.addr + s.payload)) s.stream d && !groupTurn m d r s then onSlot seq 0 (arrayIssue carry) m d else (m, d)

/-- The oldest weight set whose load is not complete is loaded; sets before it whose results are in the carry store end. -/
def loadFirst : List Pass → List Pass
  | [] => []
  | p :: t => if p.spent then loadFirst t else if p.loaded then p :: loadFirst t else { p with loaded := true } :: t

/-- WEIGHT_LOAD_COMPLETE: the oldest load of array `a` completes and releases the first row that the spar held; the `waited`
cycles of a first row count as stall where the spar had streamed rows of an earlier set of its group (03 R80, R84). -/
def loadComplete (a waited : Nat) (d : Dev) : Dev :=
  match (d.arrays[a]?).bind fun x => x.passes.find? fun p => !p.loaded, d.plan.run with
  | some p, some run =>
    let d := if waited = 0 || !p.after then d else stall (a / 4) waited d
    let d := modArr a (fun x => { x with passes := loadFirst x.passes }) d
    if p.record.dest then complete run.start p.seq d else d
  | _, _ => d

/-! ## Drain and tile queue (03 R101 to R106) -/

/-- A drain format whose results fill two entries (03 R102). -/
def wideFmt (dst : Nat) : Bool := dst = 1 || dst = 9

/-- Tile-queue entries one tile of a pass takes (03 R104). -/
def Pass.entries (p : Pass) : Nat := if wideFmt (ncwDst p.record.ncw) then 2 else 1

/-- Rows per pane of the tile under way (03 R105). -/
def Pass.tileRows (p : Pass) : Nat := min (paneEdge p.record.mode) (p.record.rows - p.tile * paneEdge p.record.mode)

/-- Claims an entry, two for wide results, for the tile under way (03 R103, R104). -/
def claimFor (a : Nat) (p : Pass) (g : Group) : Group :=
  let r := p.record
  let dst := ncwDst r.ncw
  let ent (half : Bool) : QEnt :=
    ⟨p.seq, a, p.ctx, r.mode, dst, wideFmt dst, half, p.tileRows, r.paneEn, p.tile, false, []⟩
  { g with queue := g.queue ++ (if wideFmt dst then [ent false, ent true] else [ent false]) }

/-- Marks the claim of the first pass of array `a`. -/
def markClaimed (a : Nat) : Dev → Dev :=
  modArr a fun x => match x.passes with
    | [] => x
    | p :: t => { x with passes := { p with claimed := true } :: t }

/-- Slot order, then context, then array number (03 R104). -/
def claimBefore (x y : Nat × Nat × Nat) : Bool :=
  decide (x.1 < y.1) || (x.1 = y.1 && (decide (x.2.1 < y.2.1) || (x.2.1 = y.2.1 && decide (x.2.2 < y.2.2))))

/-- Inserts a waiting claim in order. -/
def insertClaim (c : Nat × Nat × Nat) : List (Nat × Nat × Nat) → List (Nat × Nat × Nat)
  | [] => [c]
  | x :: t => if claimBefore c x then c :: x :: t else x :: insertClaim c t

/-- Grants waiting claims of group `g` in order while entries are free (03 R104, 04 R115). -/
def grantClaims (g : Nat) : Nat → Dev → Dev
  | 0, d => d
  | n + 1, d =>
    match d.groups[g]? with
    | none => d
    | some gr =>
      match gr.waiting with
      | [] => d
      | c :: t =>
        match (d.arrays[c.2.2]?).bind fun x => x.passes.head? with
        | none => grantClaims g n (modGroup g (fun gr => { gr with waiting := t }) d)
        | some p =>
          if gr.queue.length + p.entries ≤ Config.queueDepth then
            grantClaims g n (markClaimed c.2.2 (modGroup g (fun gr => claimFor c.2.2 p { gr with waiting := t }) d))
          else d

/-- TILE_CLAIM: the first result of a tile leaves the south edge; its claim is made, or the spar stalls with the claim
waiting (03 R104). -/
def tileClaim (a : Nat) (d : Dev) : Dev :=
  match (d.arrays[a]?).bind fun x => x.passes.head? with
  | none => d
  | some p =>
    let gr := (d.groups[a / 4]?).getD Group.reset
    if !p.loaded || p.record.dest || p.claimed || gr.waiting.any (fun c => c.2.2 = a) then d
    else grantClaims (a / 4) 4 (modGroup (a / 4) (fun gr => { gr with waiting := insertClaim (p.seq, p.ctx, a) gr.waiting }) d)

/-- The product of the two tensor scales, as the drain applies it: NaN when either is bad (02 R47, R52). -/
def ArrRec.scale (r : ArrRec) : Num :=
  if !ncwScaled r.ncw then .fin false 1 0
  else if !(scaleOk r.aScale && scaleOk r.wScale) then .nan
  else ((fp32.decode r.aScale.toNat).mul (fp32.decode r.wScale.toNat)).1

/-- A drained value before conversion: the accumulator times the product of the tensor scales (02 R52); for FP64 a subnormal
is flushed first (02 R68). -/
def ArrRec.drainValue (r : ArrRec) (w : BitVec 64) : Num × Nat :=
  let v : Num × Nat := match accValue r.acc w with
    | .int i => (.ofInt i, 0)
    | .num x => if r.acc = .fp64 then fp64.flushIn (flushes r.ncw) w.toNat else (x, 0)
  (if ncwScaled r.ncw then (v.1.mul r.scale).1 else v.1, v.2)

/-- The draw key of a pass (02 R62). -/
def passKey (run : Run) (p : Pass) : DrawKey := ⟨run.hdr.seed, run.step, p.ctx, p.record.stream⟩

/-- The valid slots of the tile under way: (slot row, slot column), row by row (03 R102). -/
def Pass.slots (p : Pass) : List (Nat × Nat) :=
  let r := p.record
  let e := paneEdge r.mode
  let n := paneSide r.mode
  (List.range 128).flatMap fun row => (List.range 128).filterMap fun col =>
    if bit r.paneEn (n * (row / e) + col / e) && decide (row % e < p.tileRows ∧ col % e < r.nImg) then some (row, col) else none

/-- The accumulator word of a slot of the tile under way. -/
def Pass.word (p : Pass) (row col : Nat) : BitVec 64 := p.out.get (16384 * p.tile + 128 * row + col)

/-- The global element index of a slot of the tile under way (02 R62; log entry 21). -/
def Pass.index (p : Pass) (row col : Nat) : Nat := p.record.gidx + (128 * p.tile + row) * p.record.gpitch + col

/-- SCL of an FP4 product when it overflows or underflows on the way out (02 R70). -/
def fp4Scl (r : ArrRec) (f : Nat) : Nat := if r.aFmt = 6 && f &&& (fOVF ||| fUNF) ≠ 0 then f ||| fSCL else f

/-- The converted slots of the tile under way and the flags of the drain; no pair of 02 R59 is a widening one, FP64 to FP64 included,
so OVF_SAT always counts (02 R56 to R70; 03 R101, R102; log entry 43). -/
def Pass.drain (run : Run) (p : Pass) : List (Nat × Nat × Nat) × Nat :=
  let r := p.record
  let k := passKey run p
  let dst := ncwDst r.ncw
  let bad := if ncwScaled r.ncw && r.scale = .nan then fINV else 0
  let omega := r.acc = .xf32
  let o : List (Nat × Nat × Nat) × Nat :=
    if dst = 6 then
      ((List.range 128).flatMap fun row => (List.range 4).map fun b => (row, b)).foldl (fun o rb =>
        let cols := p.slots.filter fun s => s.1 = rb.1 && s.2 / 32 = rb.2
        if cols.isEmpty then o
        else
          let xs := (List.range 32).map fun i =>
            let c := 32 * rb.2 + i
            (if cols.contains (rb.1, c) then (r.drainValue (p.word rb.1 c)).1 else .zero false, ncwRule r.ncw k (p.index rb.1 c))
          let b := convBlock (ncwSat r.ncw) omega xs
          (o.1 ++ cols.map (fun s => (s.1, s.2, (b.codes[s.2 % 32]?).getD 0 + b.bx * 2 ^ 24)), o.2 ||| b.flags)) ([], 0)
    else
      p.slots.foldl (fun o s =>
        let x := r.drainValue (p.word s.1 s.2)
        let c := convOne r.ncw (ncwRule r.ncw k (p.index s.1 s.2)) false (ncwScaled r.ncw) omega x.1
        (o.1 ++ [(s.1, s.2, c.code)], o.2 ||| x.2 ||| c.flags)) ([], 0)
  (o.1, fp4Scl r (o.2 ||| bad))

/-- The values that the drain converts for the tile under way (02 R49, R52). -/
def Pass.drained (p : Pass) : List Num := p.slots.map fun s => (p.record.drainValue (p.word s.1 s.2)).1

/-- Slots of one entry: those of its half, in the 64-bit view when wide (03 R102). -/
def entryData (wide half : Bool) (xs : List (Nat × Nat × Nat)) : Sparse 32 :=
  if wide then
    xs.foldl (fun (s : Sparse 32) x =>
      if (decide (64 ≤ x.2.1)) = half then
        let k := 128 * x.1 + 2 * (x.2.1 % 64)
        Sparse.set (Sparse.set s k (BitVec.ofNat 32 x.2.2)) (k + 1) (BitVec.ofNat 32 (x.2.2 / 2 ^ 32))
      else s) []
  else xs.foldl (fun (s : Sparse 32) x => s.set (128 * x.1 + x.2.1) (BitVec.ofNat 32 x.2.2)) []

/-- TILE_SEAL: the last valid result of the tile has left, which it cannot while the group holds; its converted values stand in its
entries, sealed, and the amax of a narrow tensor is recorded (02 R49; 03 R84, R101, R105). With the last tile of its M-block the weight
set ends. -/
def tileSeal (a : Nat) (d : Dev) : Dev :=
  match (d.arrays[a]?).bind fun x => x.passes.head?, d.plan.run with
  | some p, some run =>
    if !p.claimed || groupHolds d (a / 4) then d
    else
      let o := p.drain run
      let d := recordAmax p.record.amax (ncwDst p.record.ncw) p.drained (setFlags (engArray a) p.ctx o.2 d)
      let d := modGroup (a / 4) (fun g => { g with queue := g.queue.map fun q =>
        if q.arr = a && q.seq = p.seq && q.tile = p.tile && !q.isSealed then { q with isSealed := true, data := entryData q.wide q.half o.1 }
        else q }) d
      if (p.tile + 1) * paneEdge p.record.mode < p.record.rows then
        modArr a (fun x => { x with passes := { p with tile := p.tile + 1, claimed := false } :: x.passes.drop 1 }) d
      else complete run.start p.seq (modArr a (fun x => { x with passes := x.passes.drop 1 }) d)
  | _, _ => d

/-! ## Parity, replay and swaps (03 R107 to R111; 13 R397) -/

/-- Cycles of a replay that restreams `b` rows, with a reload when the failure was in a weight register (03 R108). -/
def replayCycles (r : ArrRec) (inWeight : Bool) (b : Nat) : Nat :=
  (if inWeight then loadCycles r.wFmt else 0) + (b + 127 + paneEdge r.mode) * stepPeriod r.mode r.aFmt + 4

/-- The weight set in flight of array `a`. -/
def flightOf (d : Dev) (a : Nat) : Option Pass := (d.arrays[a]?).bind fun x => x.passes.head?

/-- The arrays of a group that took the spar's step that array `a` took: those whose weight set in flight streams the same rows (03 R82,
R108). -/
def sparPeers (d : Dev) (a : Nat) (p : Pass) : List Nat :=
  ((List.range 4).map (4 * (a / 4) + ·)).filter fun b => b = a || (match flightOf d b with
    | some q => q.record.aAddr = p.record.aAddr && q.record.aPitch = p.record.aPitch && q.record.rows = p.record.rows
    | none => false)

/-- ARRAY_REPLAY: a parity failure with a weight set in flight; one on a spar slot replays every array that took that step. The replay
yields the same results; its cycles count as stall once for the group, and each replay is CORRECTED and counted (03 R84, R108; 13 R385,
R395). -/
def arrayReplay (a : Nat) (inWeight onSpar : Bool) (rows : Nat) (d : Dev) : Dev :=
  match flightOf d a with
  | none => d
  | some p =>
    let bs := if onSpar then sparPeers d a p else [a]
    let cycles := bs.foldl (fun n b => max n (((flightOf d b).map fun q => replayCycles q.record (inWeight && b = a) rows).getD 0)) 0
    bs.foldl (fun d b => parity 0x00 b 3 b d) (stall (a / 4) cycles d)

/-- Spare main arrays left in the scope of array `a` (03 R111; 13 R394). -/
def sparesLeft (d : Dev) (a : Nat) : Nat := ofBool ((d.integ.balArrays[arrayScope a]?).getD false)

/-- An array whose scope has no spare is lost: discovery falls, DEGRADED, and event 0x1 follows (03 R111; 07 R238, R241). -/
def arrayLost (a : Nat) (d : Dev) : Dev :=
  let d := modArr a (fun x => { x with absent := true, passes := [] }) d
  loss [⟨clsDegraded, 0x00, 0xFFFF, a, a, false⟩] 1 a (repairNext ⟨0x00, a, siteOf d 0 a, 2, 3, 0, 0xFF, 0, 0, 0⟩ d)

/-- Takes the spare of array `a`'s scope: it takes the service number, reloads and replays (13 R397, R394). A test of that
spare is aborted first (13 R392, R400). -/
def arrayTakeSpare (a : Nat) (d : Dev) : Dev :=
  let k := arrayScope a
  let site := ballastSite d 0 k
  let d := callUp 0 0 k d
  let d := moveSite 0 a site { d with integ := { d.integ with balArrays := modAt (fun _ => false) k d.integ.balArrays } }
  let d := match (d.arrays[a]?).bind fun x => x.passes.head? with
    | some p => stall (a / 4) (replayCycles p.record true p.record.rows) d
    | none => d
  repair ⟨0x00, a, site, 2, 2, 0, 0xFF, 0, 0, 0⟩ (fault [⟨clsDegraded, 0x0A, 0x0D2C, a, 0, false⟩] d)

/-- MAIN_ARRAY_SWAP: a second parity failure takes array `a` out of service; a spare of its scope takes its number, or the
array is lost (03 R109, R111; 13 R397). -/
def arraySwap (a : Nat) (d : Dev) : Dev :=
  match d.arrays[a]? with
  | none => d
  | some x =>
    if x.absent then d
    else if sparesLeft d a = 0 then arrayLost a d else arrayTakeSpare a d

/-- ARRAY_SLOT (03 R79). -/
def execArraySlot (seq : Nat) (carry : EccFind) (s : State) : Out := onBoth (arraySlotBoth seq carry) s
/-- WEIGHT_LOAD_COMPLETE (03 R80). -/
def execWeightLoadComplete (a waited : Nat) (s : State) : Out := onDev (loadComplete a waited) s
/-- TILE_CLAIM (03 R104). -/
def execTileClaim (a : Nat) (s : State) : Out := onDev (tileClaim a) s
/-- TILE_SEAL (03 R105). -/
def execTileSeal (a : Nat) (s : State) : Out := onDev (tileSeal a) s
/-- ARRAY_REPLAY (03 R108). -/
def execArrayReplay (a : Nat) (p : ParityAt) (rows : Nat) (s : State) : Out := onDev (arrayReplay a p.inWeight p.onSpar rows) s
/-- MAIN_ARRAY_SWAP (13 R397). -/
def execMainArraySwap (a : Nat) (s : State) : Out := onDev (arraySwap a) s

end Sys2Proof.Machine
end

