-- ==== Sys2Proof/Machine/Gram.lean ====
section
/-! DEFINITION. Gram arrays: records, accumulation over ring rows, fills and spills, parity replay and ballast (05 R161 to
R166; 13 R397). -/

namespace Sys2Proof.Machine

/-- A Gram record with the ring it names (05 R161). -/
structure GramRec where
  /-- PRE [2; 05 R161] -/
  pre : Nat
  /-- SPILL [1; 05 R161] -/
  spill : Bool
  /-- DIAG [1; 05 R161] -/
  diag : Bool
  /-- the ring's format: FP16, else BF16 [1; 05 R161] -/
  half : Bool
  /-- CTX [3; 05 R161] -/
  ctx : Nat
  /-- I_OFF [12; 05 R161] -/
  iOff : Nat
  /-- J_OFF [12; 05 R161] -/
  jOff : Nat
  /-- NROWS_M1 plus 1 [13; 05 R161] -/
  rows : Nat
  /-- ROW0 [12; 05 R161] -/
  row0 : Nat
  /-- PITCH of its ring [12; 05 R156] -/
  pitch : Nat
  /-- RING_M1 of its ring [12; 05 R156] -/
  ringM1 : Nat
  /-- BASE of its ring [40; 05 R156] -/
  base : Nat
  /-- TILE [48; 05 R161] -/
  tile : Nat
deriving DecidableEq, Repr

/-- The Gram record at `a` (05 R161). -/
def gramRecAt (m : Mem) (a : Nat) : GramRec :=
  let w0 := m.readLE a 8
  let w1 := m.readLE (a + 8) 8
  ⟨bits w0 63 62, bit w0 61, bit w0 60, bit w0 59, bits w0 58 56, bits w0 55 44, bits w0 43 32, bits w0 31 20 + 1,
   bits w0 19 8, bits w1 63 52, bits w1 51 40, bits w1 39 0, m.readLE (a + 16) 6⟩

/-- The 64 elements of the slice at feature 64 * `off` of the record's `n`-th ring row (05 R157, R161). -/
def GramRec.slice (r : GramRec) (m : Mem) (off n : Nat) (d : Dev) : List Num × Dev :=
  let row := r.base + 256 * r.pitch * ((r.row0 + n) % (r.ringM1 + 1)) + 128 * off
  let x := readWords m 2 ((List.range 64).map fun k => row + 2 * k) d
  (x.1.map (if r.half then fp16 else bf16).decode, x.2)

/-- The row-side and column-side slices of rows in ring order (05 R161). -/
def GramRec.operands (r : GramRec) (m : Mem) : List Nat → Dev → List (List Num × List Num) × Dev
  | [], d => ([], d)
  | n :: ns, d =>
    let u := r.slice m r.iOff n d
    let v := if r.diag then u else r.slice m r.jOff n u.2
    let q := r.operands m ns v.2
    ((u.1, v.1) :: q.1, q.2)

/-- One product added into a cell: exact product, one rounding to FP32 (02 R52; 05 R161). The flags are those of R165. -/
def gramStep (acc : W32 × Nat) (u v : Num) : W32 × Nat :=
  let p := u.fma v (fp32.decode acc.1.toNat)
  let r := fp32.ieee false false p.1
  (BitVec.ofNat 32 r.code,
    acc.2 ||| p.2 ||| (if p.2 = 0 then r.flags &&& (fOVF ||| fUNF) else fNAN) ||| (if r.flags &&& fOVF = 0 then 0 else fINF))

/-- Cell (a, b) after all rows of a record, from the word `w` (05 R161, R162). -/
def GramRec.cell (r : GramRec) (xs : List (List Num × List Num)) (w : W32) (a b : Nat) : W32 × Nat :=
  if r.diag && decide (b < a) then (w, 0)
  else xs.foldl (fun acc x => gramStep acc ((x.1[a]?).getD (.zero false)) ((x.2[b]?).getD (.zero false))) (w, 0)

/-- The plane before the record's first row: +0, the filled tile, or the plane its predecessor left (05 R161, R162). -/
def GramRec.start (r : GramRec) (m : Mem) (old : Sparse 32) (d : Dev) : Sparse 32 × Dev :=
  if r.pre = 2 then (old, d)
  else if r.pre = 1 then
    let ks := (List.range 4096).filter fun k => !(r.diag && decide (k % 64 < k / 64))
    let x := readWords m 4 (ks.map fun k => r.tile + 4 * k) d
    ((ks.zip x.1).filterMap fun k => if k.2 % 2 ^ 32 = 0 then none else some (k.1, BitVec.ofNat 32 k.2), x.2)
  else ([], d)

/-- NAN and INF of the values a spill writes (02 R70). -/
def spillFlags (p : Sparse 32) : Nat :=
  p.foldl (fun f k => f ||| (match fp32.decode k.2.toNat with | .nan => fNAN | .inf _ => fINF | _ => 0)) 0

/-- The spilled word of slot `k`: a diagonal tile is written symmetric (05 R162). -/
def GramRec.spilled (r : GramRec) (p : Sparse 32) (k : Nat) : W32 :=
  if r.diag && decide (k % 64 < k / 64) then p.get (64 * (k % 64) + k / 64) else p.get k

/-- GRAM_SLOT: the record fills, accumulates its ring rows and spills (05 R161 to R165). -/
def gramIssue (run : Run) (s : Slot) (mem : Mem) (d : Dev) : Mem × Dev :=
  let g := s.stream - 160
  match d.groups[g]? with
  | none => (mem, d)
  | some gr =>
    let r := gramRecAt mem (run.addr + s.payload)
    let plane1 := if r.pre = 2 then gr.plane1 else !gr.plane1
    let i := ofBool plane1
    let p0 := r.start mem ((gr.planes[i]?).getD []) d
    let xs := r.operands mem (List.range r.rows) p0.2
    let cell (k : Nat) : W32 × Nat := r.cell xs.1 (p0.1.get k) (k / 64) (k % 64)
    let p : Sparse 32 := Sparse.tabulate 4096 fun k => (cell k).1
    let fl := (List.range 4096).foldl (fun f k => f ||| (cell k).2) 0
    let d := modGroup g (fun gr => { gr with planes := modAt (fun _ => p) i gr.planes, plane1 := plane1 }) xs.2
    let d := setFlags (engGram g) r.ctx (fl ||| (if r.spill then spillFlags p else 0)) d
    let o := if r.spill then writeSlot mem d r.tile ((List.range 4096).flatMap fun k => leBytes 4 (r.spilled p k).toNat) else (mem, d)
    (o.1, complete run.start s.seq o.2)

/-- A Gram array whose scope has no spare is lost: discovery falls, DEGRADED, and event 0x2 follows (03 R111; 05 R166; 07
R238). -/
def gramLost (g : Nat) (d : Dev) : Dev :=
  let d := modGroup g (fun gr => { gr with gramAbsent := true }) d
  loss [⟨clsDegraded, 0x00, 0xFFFF, g, g, false⟩] 2 g (repairNext ⟨0x01, g, siteOf d 1 g, 2, 3, 0, 0xFF, 0, 0, 0⟩ d)

/-- Takes the Gram spare of array `g`'s scope (05 R166; 13 R396, R397). -/
def gramTakeSpare (g : Nat) (d : Dev) : Dev :=
  let k := g / 20
  let site := ballastSite d 1 k
  let d := callUp 1 1 k d
  let d := moveSite 1 g site { d with integ := { d.integ with balGrams := modAt (fun _ => false) k d.integ.balGrams } }
  repair ⟨0x01, g, site, 2, 2, 0, 0xFF, 0, 0, 0⟩ (fault [⟨clsDegraded, 0x0A, 0x0D2C, g, 0, false⟩] d)

/-- GRAM_REPLAY: a parity failure replays the continuing chain with bit-identical results; a second one swaps in ballast (05
R166; 13 R385, R395, R397). -/
def gramReplayDev (g : Nat) (again : Bool) (d : Dev) : Dev :=
  match d.groups[g]? with
  | none => d
  | some gr =>
    if gr.gramAbsent then d
    else if again then (if (d.integ.balGrams[g / 20]?).getD false then gramTakeSpare g d else gramLost g d)
    else bucketJoin 3 (160 + g) (fault [⟨clsCorrected, 0x00, 0x0520, g, 0, false⟩]
      { d with
        curv := { d.curv with gramReplay := satAdd d.curv.gramReplay 1 }
        integ := { d.integ with parReplay := satAdd d.integ.parReplay 1 } })

/-- The range a Gram record writes: its tile when it spills (05 R161; 11 R340). -/
def gramWrites (run : Run) (s : Slot) (mem : Mem) (_ : Dev) : List (Nat × Nat) :=
  let r := gramRecAt mem (run.addr + s.payload)
  if r.spill then [(r.tile, 16384)] else []

/-- GRAM_SLOT (05 R164). -/
def execGramSlot (seq : Nat) (s : State) : Out := onBoth (onSlotW seq 1 gramWrites gramIssue) s
/-- GRAM_REPLAY (05 R166). -/
def execGramReplay (g : Nat) (again : Bool) (s : State) : Out := onDev (gramReplayDev g again) s

end Sys2Proof.Machine
end

