-- ==== Sys2Proof/Machine/Integrity.lean ====
section
/-! DEFINITION. Data integrity outside a step: scrubber control, buckets, corrections and row retirement, banks, pseudo-channels,
control cores, in-service tests and rotations (08 R252, R253; 13 R383 to R400). -/

namespace Sys2Proof.Machine

/-! ## Scrubber control and buckets (13 R385, R389) -/

/-- SCRUB_ENABLE: the scrubber resumes, or the enable is latched behind a stop that completes (13 R389). -/
def scrubEnableDev (d : Dev) : Dev :=
  { d with integ := { d.integ with scrubEn := true, scrubPend := d.integ.scrubPend || d.integ.scrubStopping } }

/-- SCRUB_DISABLE: the scrubber stops after the line in flight (13 R389). -/
def scrubDisableDev (d : Dev) : Dev :=
  if d.integ.scrubEn then
    { d with integ := { d.integ with scrubEn := false, scrubPend := false, scrubStopping := true } }
  else d

/-- A stop of the scrubber completes; with an enable latched it resumes (13 R389). -/
def scrubStopped (d : Dev) : Dev :=
  if d.integ.scrubStopping then { d with integ := { d.integ with scrubStopping := false, scrubPend := false } } else d

/-- BKT_CFG_WRITE: THRESH and LEAK; a LEAK of 0 stops the class's timer, a later nonzero one starts it (13 R385). -/
def bktCfgDev (n : Nat) (w : W32) (d : Dev) : Dev :=
  let leak := w.toNat % 65536
  { d with integ := { d.integ with buckets := modAt (fun b : Bucket =>
    { b with thresh := bits w.toNat 23 16, leak := leak, timer := decide (leak ≠ 0) }) n d.integ.buckets } }

/-- BUCKET_LEAK_TICK: every level of the class above 0 falls by 1 (13 R385). -/
def leakTickDev (n : Nat) (d : Dev) : Dev :=
  let drop (s : Sparse 16) : Sparse 16 := s.filterMap fun c => if c.2.toNat ≤ 1 then none else some (c.1, c.2 - 1)
  { d with integ := { d.integ with buckets := modAt (fun b : Bucket => if b.timer then { b with level := drop b.level } else b) n d.integ.buckets } }

/-! ## Retiring rows and replacing banks (08 R252; 13 R386, R398) -/

/-- A bank is lost with no ballast left: it is a hole, DEGRADED, and event 0x5 follows, all of the last fault (07 R238; 08 R250; 00
R24). -/
def bankLost (b : Nat) (d : Dev) : Dev :=
  if d.integ.bankAbsent.contains b then d
  else
    let d := { d with integ := { d.integ with bankAbsent := d.integ.bankAbsent ++ [b] } }
    lossOf [⟨clsDegraded, 0x0A, 0x0D2C, b, b, false⟩] 5 b (repair ⟨0x06, b, siteOf d 6 b, 2, 3, 0x2000000 * b, 0xFF, 0, 0, 0⟩ d)

/-- A spare bank is taken from ballast for bank `b`; a test of it is aborted (13 R398, R400). -/
def takeBank (b : Nat) (d : Dev) : Dev :=
  let site := 50 - d.integ.balBanks
  let d := moveSite 6 b site { d with integ := { d.integ with balBanks := d.integ.balBanks - 1 } }
  match d.integ.bistCmd with
  | some (sl, ring, tag) =>
    if d.integ.bistRun && d.integ.bistSite = site && sl = 4 then
      completeTag ring tag 0x601 { status := stOk, data := 3 } (bistAbort d)
    else d
  | none => d

/-- Bank `b` is being migrated (13 R398). -/
def bankMoves (d : Dev) (b : Nat) : Bool := d.integ.migrating.any fun q => q.1 = b

/-- Migration of a bank whose spare rows are used up begins, for the last fault (13 R386, R398; 00 R24). -/
def bankMigrate (b : Nat) (d : Dev) : Dev :=
  if bankMoves d b then d
  else if d.integ.balBanks = 0 then bankLost b d
  else
    let d := takeBank b d
    { d with integ := { d.integ with migrating := d.integ.migrating ++ [(b, d.evt.fseq)] } }

/-- BANK_MIGRATION_COMPLETE: the spare takes the bank's service number with its contents (13 R398). -/
def bankMigratedDev (b : Nat) (d : Dev) : Dev :=
  match d.integ.migrating.find? fun q => q.1 = b with
  | none => d
  | some (_, n) =>
    let d := { d with
      integ := { d.integ with migrating := d.integ.migrating.filter fun q => q.1 ≠ b }
      ecc := { d.ecc with bankRows := modAt (fun _ => 0) b d.ecc.bankRows, rows := d.ecc.rows.filter fun r => !inside r.1 1 (0x2000000 * b) 0x2000000 } }
    repairOf n ⟨0x06, b, siteOf d 6 b, 2, 4, 0x2000000 * b, 0xFF, d.integ.balBanks, 0, 0⟩ (ariseOf n d ⟨clsDegraded, 0x0A, 0x0D2C, b, b, false⟩)

/-- The code marks of a range go: its lines are marked lost instead (08 R253; 13 R398). -/
def markLost (l : Lost) (e : Ecc) : Ecc :=
  let out (a : Nat) : Bool := !(inside a 1 l.base l.len && (l.pc.isNone || l.pc = some ((a - l.base) / 256 % 32)))
  { e with
    ue := e.ue.filter out, ce := e.ce.filter out, wbq := e.wbq.filter out, defer := e.defer.filter out
    prioS := e.prioS.filter out, prioH := e.prioH.filter out, rows := e.rows.filter fun r => out r.1
    lost := e.lost.filter (fun x => !(x.base = l.base && x.pc = l.pc)) ++ [l] }

/-- BANK_FAILURE: a dead bank is replaced by a spare with every line marked lost, or it is lost (13 R398). -/
def bankFailDev (b : Nat) (d : Dev) : Dev :=
  if decide (48 ≤ b) || d.integ.bankAbsent.contains b then d
  else if d.integ.balBanks = 0 && !bankMoves d b then bankLost b (newFault d)
  else
    let d := if bankMoves d b then { d with integ := { d.integ with migrating := d.integ.migrating.filter fun q => q.1 ≠ b } }
      else takeBank b d
    let d := { d with ecc := { markLost ⟨0x2000000 * b, 0x2000000, none, []⟩ d.ecc with bankRows := modAt (fun _ => 0) b d.ecc.bankRows } }
    repair ⟨0x06, b, siteOf d 6 b, 2, 2, 0x2000000 * b, 0xFF, d.integ.balBanks, 0, 0⟩ (fault [⟨clsDegraded, 0x0A, 0x0D2C, b, b, false⟩] d)

/-- Backed lines of an HBM row (08 R251, R252; log entry 25). -/
def rowLines (row : Nat) : List Nat :=
  match stackOf row with
  | some s => ((List.range 16).map fun k => row + 8192 * k).filter fun l => decide (l < hbmBase s + hbmBytes)
  | none => []

/-- A line is rewritten corrected: its single-bit errors go, and its row remembers it (13 R383, R386). -/
def rewriteLine (line : Nat) (d : Dev) : Dev :=
  let e := d.ecc
  { d with ecc := { e with
    ce := e.ce.filter fun w => lineOf w ≠ line
    wbq := e.wbq.filter (· ≠ line), defer := e.defer.filter (· ≠ line)
    prioS := e.prioS.filter (· ≠ line), prioH := e.prioH.filter (· ≠ line)
    rows := e.rows.map fun r => if r.1 = rowOf line then (r.1, true) else r } }

/-- A weak row is retired, its lines copied corrected: an SRAM row into a spare row of its bank, or the bank migrates; an HBM row into
reserve lines of its pseudo-channel, each counted; the last fault is its cause (08 R252; 13 R386; 00 R24). `source` as in R394. -/
def retireRow (source row : Nat) (d : Dev) : Dev :=
  let gone (ls : List Nat) (d : Dev) : Dev :=
    let d := ls.foldl (fun d l => rewriteLine l d) d
    { d with ecc := { d.ecc with rows := d.ecc.rows.filter fun r => r.1 ≠ row, retired := d.ecc.retired ++ [row] } }
  if row < 0x60000000 then
    let b := row / 0x2000000
    if 128 ≤ (d.ecc.bankRows[b]?).getD 0 then bankMigrate b d
    else
      let d := gone ((List.range 16).map fun k => row + 256 * k) { d with
        ecc := { d.ecc with bankRows := modAt (· + 1) b d.ecc.bankRows }
        integ := { d.integ with rowRetire := satAdd d.integ.rowRetire 1 } }
      rowReport source 1 row (also [⟨clsDegraded, 0x0A, 0x0D18, b, row % 2 ^ 32, false⟩] d)
  else
    match stackOf row with
    | none => d
    | some s =>
      let n := (rowLines row).length
      if reserveFree d (lineRegion row).2 < n then d
      else
        let d := gone (rowLines row) { d with
          integ := { d.integ with reserveUsed := modAt (· + n) (lineRegion row).2 d.integ.reserveUsed }
          gon := { d.gon with hbmRemap := satAdd d.gon.hbmRemap n } }
        rowReport source 1 row (also [⟨clsDegraded, 0x0A, 0x082C, s, 0, false⟩] d)

/-! ## Corrections (13 R383, R384) -/

/-- Lines queued for write-back in the region of a line: its SRAM bank or HBM pseudo-channel (13 R383). -/
def wbqIn (d : Dev) (line : Nat) : Nat := (d.ecc.wbq.filter fun l => lineRegion l = lineRegion line).length

/-- A correction in a row that had one before its failing line was rewritten retires the row (13 R386). -/
def rowHit (source line : Nat) (d : Dev) : Dev :=
  let row := rowOf line
  match d.ecc.rows.find? fun r => r.1 = row with
  | none => { d with ecc := { d.ecc with rows := d.ecc.rows ++ [(row, false)] } }
  | some r => if r.2 && !d.ecc.retired.contains row then retireRow source row d else d

/-- A corrected word at `a`: CORRECTED, and one event against its region (13 R384, R385). -/
def correctedRep (event a : Nat) (d : Dev) : Dev :=
  let rg := lineRegion (lineOf a)
  bucketJoin rg.1 rg.2 (fault [⟨clsCorrected, 0x09, event, rg.2, a % 2 ^ 32, false⟩] d)

/-- A read finds a single-bit error at `a`: the main path queues a write-back of its line and counts; the fall-back path, when
the queue is full, puts the line on the priority list (13 R383, R384). -/
def correct (source a : Nat) (d : Dev) : Dev :=
  let line := lineOf a
  let d := { d with ecc := { d.ecc with ce := if d.ecc.ce.contains (wordOf a) then d.ecc.ce else d.ecc.ce ++ [wordOf a] } }
  if d.ecc.defer.contains line then { d with integ := { d.integ with deferred := satAdd d.integ.deferred 1 } }
  else if d.ecc.wbq.contains line || decide (wbqIn d line < 16) then
    let d := { d with
      ecc := { d.ecc with wbq := if d.ecc.wbq.contains line then d.ecc.wbq else d.ecc.wbq ++ [line] }
      integ := { d.integ with corr := satAdd d.integ.corr 1 } }
    rowHit source line (correctedRep 0x0D04 a d)
  else
    let e := d.ecc
    let e := { e with
      defer := e.defer ++ [line]
      prioS := if decide (line < 0x60000000) && decide (e.prioS.length < 256) then e.prioS ++ [line] else e.prioS
      prioH := if decide (0x60000000 ≤ line) && decide (e.prioH.length < 256) then e.prioH ++ [line] else e.prioH }
    rowHit source line (correctedRep 0xFFFF a { d with ecc := e })

/-- CORRECTIVE_WRITE_BACK: a queued write-back is performed; a line rewritten since has left the queue (13 R383). -/
def writeBackDev (line : Nat) (d : Dev) : Dev := if d.ecc.wbq.contains line then rewriteLine line d else d

/-! ## Pseudo-channels (08 R253) -/

/-- Backed lines of pseudo-channel `p` of a stack (08 R251). -/
def pcLines (p : Nat) : Nat := if p < 24 then 9667969 else 9667968

/-- A stack whose reserve may take lines of stack `s` (08 R253). -/
def lends (d : Dev) (s t : Nat) : Bool := t ≠ s && !d.integ.stackAbsent.contains t

/-- `n` more lines used of the reserve of stack `t`, its pseudo-channels in ascending order (08 R252; log entry 25). -/
def fillReserve (t n : Nat) (used : List Nat) : List Nat :=
  ((List.range 32).foldl (fun (o : List Nat × Nat) p =>
    let take := min o.2 (pcReserve (32 * t + p) - (o.1[32 * t + p]?).getD 0)
    (modAt (· + take) (32 * t + p) o.1, o.2 - take)) (used, n)).1

/-- Free reserve lines of stack `t` where `used` are taken (08 R252). -/
def stackFree (used : List Nat) (t : Nat) : Nat :=
  (List.range 32).foldl (fun n p => n + (pcReserve (32 * t + p) - (used[32 * t + p]?).getD 0)) 0

/-- One turn over the stacks `ts`: each gives an even share of the `n` lines, as far as it has them (08 R253). -/
def reserveTurn (ts : List Nat) (o : List Nat × Nat) : List Nat × Nat :=
  let share := ceilDiv o.2 ts.length
  ts.foldl (fun o t =>
    let take := min (min share o.2) (stackFree o.1 t)
    (fillReserve t take o.1, o.2 - take)) o

/-- Takes `n` reserve lines from the stacks that lend to `s` in turn, as evenly as they hold them (08 R253). -/
def takeReserve (d : Dev) (n s : Nat) : List Nat :=
  let ts := (List.range 8).filter (lends d s)
  ((List.range 8).foldl (fun o _ => reserveTurn ts o) (d.integ.reserveUsed, n)).1

/-- Free reserve lines outside stack `s` (08 R253). -/
def freeReserve (d : Dev) (s : Nat) : Nat :=
  ((List.range 8).filter (lends d s)).foldl (fun n t => n + stackFree d.integ.reserveUsed t) 0

/-- PSEUDO_CHANNEL_FAILURE: its lines are remapped into the other stacks' reserve and marked lost, its own reserve is gone, or the stack leaves service
(08 R253; 07 R238). -/
def pcFailDev (s p : Nat) (d : Dev) : Dev :=
  if decide (8 ≤ s) || decide (32 ≤ p) || d.integ.stackAbsent.contains s || d.integ.pcFailed.contains (s, p) then d
  else if pcLines p ≤ freeReserve d s then
    let d := { d with
      ecc := markLost ⟨hbmBase s, hbmBytes, some p, []⟩ d.ecc
      integ := { d.integ with pcFailed := d.integ.pcFailed ++ [(s, p)], reserveUsed := modAt (fun _ => pcReserve (32 * s + p)) (32 * s + p) (takeReserve d (pcLines p) s) }
      gon := { d.gon with hbmRemap := satAdd d.gon.hbmRemap (pcLines p) } }
    repair ⟨0x08, s, 32 * s + p, 2, 6, hbmBase s + 256 * p, 0xFF, min 0xFFFF (freeReserve d s), 0, 0⟩
      (fault [⟨clsDegraded, 0x05, 0x082C, s, p, false⟩] d)
  else
    let d := { d with integ := { d.integ with stackAbsent := d.integ.stackAbsent ++ [s] } }
    let rep : Rep := ⟨clsDegraded, 0x05, 0xFFFF, s, p, false⟩
    let placed := match d.plan.run with
      | some r => r.body.places.any fun x => overlaps x.base x.len (hbmBase s) hbmBytes
      | none => false
    let d := repairNext ⟨0x08, s, 32 * s + p, 2, 3, hbmBase s + 256 * p, 0xFF, 0, 0, 0⟩ d
    if placed then loss [rep] 6 s d else fault [rep] d

/-! ## Control cores (13 R399) -/

/-- A control core leaves service: the spare core takes over; with no spare the masthead runs on three cores, DEGRADED; a third loss is
the safe state (13 R399; 15 R450). -/
def coreSwap (c : Nat) (d : Dev) : Dev :=
  match d.integ.cores[c]? with
  | none => d
  | some .lost => d
  | some _ =>
    if d.integ.balCore then
      let d := match d.integ.bistCmd with
        | some (8, ring, tag) => if d.integ.bistRun then completeTag ring tag 0x601 { status := stOk, data := 3 } (bistAbort d) else d
        | _ => d
      let d := moveSite 0xA c 4 { d with integ := { d.integ with balCore := false, cores := modAt (fun _ => .running) c d.integ.cores } }
      repair ⟨0x0A, c, 4, 2, 2, 0, 0xFF, 0, 0, 0⟩ (fault [⟨clsDegraded, 0x0A, 0x0D2C, 0xFFFF, c, false⟩] d)
    else
      let d := { d with integ := { d.integ with cores := modAt (fun _ => .lost) c d.integ.cores } }
      if (d.integ.cores.filter (· == .lost)).length ≤ 1 then
        repair ⟨0x0A, c, siteOf d 0xA c, 2, 3, 0, 0xFF, 0, 0, 0⟩ (fault [⟨clsDegraded, 0x0C, 0xFFFF, 0xFFFF, c, false⟩] d)
      else repair ⟨0x0A, c, siteOf d 0xA c, 2, 3, 0, 0xFF, 0, 0, 0⟩ (safeEntry 6 d)

/-- A corrected word in a core's memory: counted, CORRECTED, one event against class 6; a second overflow of that bucket within 1 s swaps
the core (13 R383 to R386). -/
def coreCorrected (c : Nat) (d : Dev) : Dev :=
  let full := bucketFull 6 c d
  let again := d.integ.coreOvf.any fun o => o.1 = c && decide (d.dbg.now < o.2 + 100000000)
  let d := bucketJoin 6 c (fault [⟨clsCorrected, 0x0C, 0x0D04, c, c, false⟩] { d with integ := { d.integ with corr := satAdd d.integ.corr 1 } })
  if !full then d
  else
    let others := d.integ.coreOvf.filter fun o => o.1 ≠ c
    if again then coreSwap c { d with integ := { d.integ with coreOvf := others } }
    else { d with integ := { d.integ with coreOvf := others ++ [(c, d.dbg.now)] } }

/-- CORE_HEARTBEAT_MISS: a core that missed two heartbeats, or whose memory holds an uncorrectable word, is replaced; a corrected word is
counted (13 R386, R387, R399). -/
def coreEventDev (c : Nat) (e : CoreEvent) (d : Dev) : Dev :=
  match d.integ.cores[c]? with
  | none => d
  | some .lost => d
  | some _ =>
    match e with
    | .missed => coreSwap c d
    | .uncorrectable => coreSwap c (countUe 1 d)
    | .corrected now => coreCorrected c (atTime now d)

/-! ## Rotation and in-service test (13 R390, R392) -/

/-- The direction of the port that a lane belongs to (09 R273, R275). -/
def laneDir (d : Dev) (lane : Nat) : Nat := ((d.tth.ports[lane / 4]?).map Port.dir).getD 6

/-- The scope whose ballast covers unit `n` of a kind, when there is one (13 R396). -/
def ballastScope (d : Dev) (kind n : Nat) : Option Nat :=
  if kind = 0 ∧ n < 160 then some (arrayScope n)
  else if kind = 1 ∧ n < 40 then some (n / 20)
  else if kind = 9 ∧ n < 64 ∧ laneDir d n < 4 then some (laneDir d n)
  else none

/-- A healthy spare of the kind is in ballast for the scope (13 R392). -/
def spareFor (d : Dev) (kind scope : Nat) : Bool :=
  ((if kind = 0 then d.integ.balArrays else if kind = 1 then d.integ.balGrams else d.integ.balLanes)[scope]?).getD false

/-- BALLAST_ROTATE: the swap is taken down for the start of the named step, or refused with a NOTE (13 R392; 14 R421). -/
def rotateDev (c : CmdRef) : Dev → Dev :=
  runCmd c 0x600 fun desc d =>
    let kind := dArg0 desc % 256
    let n := bits (dArg0 desc) 23 8
    match ballastScope d kind n with
    | none => (note 0x0A 0x0D2C n n d, refused)
    | some sc =>
      if spareFor d kind sc then
        ({ d with integ := { d.integ with rotReq := d.integ.rotReq ++ [(kind, n, dArg1 desc)] } }, {})
      else (note 0x0A 0x0D2C n n d, refused)

/-- The unit that (slice, site) names is in ballast: its kind of R394 and scope (13 R390, R392; log entry 26). -/
def ballastAt (d : Dev) (slice site : Nat) : Option (Nat × Nat) :=
  let among (kind k : Nat) : Option (Nat × Nat) :=
    ((List.range k).find? fun sc => spareFor d kind sc && ballastSite d kind sc = site).map fun sc => (kind, sc)
  if slice = 0 then among 0 8
  else if slice = 1 then among 1 2
  else if slice = 4 then (if 50 - d.integ.balBanks ≤ site ∧ site < 50 then some (6, site) else none)
  else if slice = 7 then
    match among 9 4 with
    | some x => some x
    | none => (d.integ.rotated.find? fun r => r.1 = 9 && r.2.1 = site).map fun r => (9, r.2.2)
  else if slice = 8 then (if site = 4 ∧ d.integ.balCore then some (0xA, 0) else none)
  else none

/-- BIST_RUN: a test of a unit in ballast starts, or is refused with a NOTE; one test runs at a time (13 R392; 14 R421). -/
def bistRunBoth (c : CmdRef) : Mem → Dev → Mem × Dev :=
  runCmdLong c 0x601 fun _ desc m d =>
    let site := dArg0 desc % 65536
    let slice := bits (dArg0 desc) 19 16
    if d.integ.bistRun || (ballastAt d slice site).isNone then
      (m, note 0x09 0x0D30 0xFFFF site d, some { status := stRefused, data := 2 })
    else
      (m, { d with integ := { d.integ with bistRun := true, bistSite := site, bistCmd := some (slice, c.ring, c.tag) } }, none)

/-- Tells the partners of a direction over link control that the wired ballast pair is unusable; both ends hold it so (09
R296). -/
def tellPartner (dir : Nat) (d : Dev) : Dev :=
  { d with tth := { d.tth with notices := if d.tth.notices.contains dir then d.tth.notices else d.tth.notices ++ [dir] } }

/-- A ballast lane is bad: its bit falls, DEGRADED with a repair report of ACTION 0x5 (09 R296). -/
def laneBad (source : Nat) (sig : W64) (dir : Nat) (d : Dev) : Dev :=
  let site := ballastSite d 9 dir
  let d := { d with integ := { d.integ with balLanes := modAt (fun _ => false) dir d.integ.balLanes } }
  repair ⟨0x09, 0xFFFF, site, source, 5, 0, 0xFF, 0, sig, 0⟩ (fault [⟨clsDegraded, 0x0A, 0x0D2C, 0xFFFF, dir, false⟩] d)

/-- A failed unit leaves ballast (13 R392). -/
def bistFail (sig : W64) (slice site : Nat) (d : Dev) : Dev :=
  match ballastAt d slice site with
  | none => d
  | some (kind, sc) =>
    if kind = 9 then tellPartner sc (laneBad 1 sig sc d)
    else
      let i := d.integ
      let i := if kind = 0 then { i with balArrays := modAt (fun _ => false) sc i.balArrays }
        else if kind = 1 then { i with balGrams := modAt (fun _ => false) sc i.balGrams }
        else if kind = 6 then { i with balBanks := i.balBanks - 1 } else { i with balCore := false }
      let left := if kind = 6 then i.balBanks else 0
      repair ⟨kind, 0xFFFF, site, 1, 5, 0, 0xFF, left, sig, 0⟩
        (fault [⟨clsDegraded, 0x0A, 0x0D2C, 0xFFFF, kind, false⟩] { d with integ := i })

/-- The test ends with a result; BIST_RUN completes (13 R392; 14 R421). -/
def bistEnd (result : Nat) (sig : W64) (d : Dev) : Dev :=
  if !d.integ.bistRun then d
  else
    match d.integ.bistCmd with
    | none => { d with integ := { d.integ with bistRun := false, bistResult := result } }
    | some (slice, ring, tag) =>
      let d := { d with integ := { d.integ with bistRun := false, bistResult := result, bistCmd := none } }
      let d := if result = 0 then d else bistFail sig slice d.integ.bistSite d
      completeTag ring tag 0x601 { status := stOk, data := result, cls := if result = 0 then 0 else clsDegraded } d

/-! ## The commands -/

/-- SCRUB_ENABLE (13 R389). -/
def execScrubEnable (s : State) : Out := onDev scrubEnableDev s
/-- SCRUB_DISABLE (13 R389). -/
def execScrubDisable (s : State) : Out := onDev scrubDisableDev s
/-- BKT_CFG_WRITE (13 R385). -/
def execBktCfgWrite (n : Nat) (w : W32) (s : State) : Out := onDev (bktCfgDev n w) s
/-- BUCKET_LEAK_TICK (13 R385). -/
def execBucketLeakTick (n : Nat) (s : State) : Out := onDev (leakTickDev n) s
/-- BALLAST_ROTATE (13 R392). -/
def execBallastRotate (c : CmdRef) (s : State) : Out := onDev (rotateDev c) s
/-- BIST_RUN (13 R392). -/
def execBistRun (c : CmdRef) (s : State) : Out := onBoth (bistRunBoth c) s
/-- BIST_COMPLETE (13 R392). -/
def execBistComplete (pass : Bool) (sig : W64) (s : State) : Out := onDev (bistEnd (if pass then 0 else 1) sig) s
/-- BIST_BUDGET_EXPIRY (13 R392). -/
def execBistBudgetExpiry (s : State) : Out := onDev (bistEnd 4 0) s
/-- CORRECTIVE_WRITE_BACK (13 R383). -/
def execCorrectiveWriteBack (line : Nat) (s : State) : Out := onDev (writeBackDev line) s
/-- BANK_MIGRATION_COMPLETE (13 R398). -/
def execBankMigrationComplete (b : Nat) (s : State) : Out := onDev (bankMigratedDev b) s
/-- BANK_FAILURE (13 R398). -/
def execBankFailure (b : Nat) (s : State) : Out := onDev (bankFailDev b) s
/-- CORE_HEARTBEAT_MISS (13 R399). -/
def execCoreHeartbeatMiss (c : CoreIn) (s : State) : Out := onDev (coreEventDev c.core c.event) s
/-- PSEUDO_CHANNEL_FAILURE (08 R253). -/
def execPseudoChannelFailure (stack pc : Nat) (s : State) : Out := onDev (pcFailDev stack pc) s

end Sys2Proof.Machine
end

