-- ==== Sys2Proof/Machine/Boot.lean ====
section
/-! DEFINITION. Start-up after PWROK: repairs from ballast, the boot chain, calibration and tether bring-up (15 R440, R444 to R448; 13
R391, R396). -/

namespace Sys2Proof.Machine

/-! ## Start-up repairs (13 R391, R394, R396) -/

/-- A repair at start-up: DEGRADED with its repair report. `n`: the SERVICE field. -/
def bootReport (f : UnitFail) (n site action left : Nat) (d : Dev) : Dev :=
  repair ⟨f.kind, n, site, 0, action, f.addr.getD 0, 0xFF, left, 0, 0⟩ (fault [⟨clsDegraded, 0x0A, 0x0D2C, n, f.kind, false⟩] d)

/-- A ballast unit that fails its test at start-up leaves ballast (13 R391). -/
def bootBallast (f : UnitFail) (d : Dev) : Dev :=
  let i := d.integ
  let i := if f.kind = 0 then { i with balArrays := modAt (fun _ => false) f.unit i.balArrays }
    else if f.kind = 1 then { i with balGrams := modAt (fun _ => false) f.unit i.balGrams }
    else if f.kind = 9 then { i with balLanes := modAt (fun _ => false) (f.unit - 64) i.balLanes }
    else if f.kind = 6 then { i with balBanks := i.balBanks - 1 }
    else if f.kind = 0xA then { i with balCore := false } else i
  let site := if f.kind = 0 then 160 + f.unit else if f.kind = 1 then 40 + f.unit else if f.kind = 6 then 50 - d.integ.balBanks
    else if f.kind = 0xA then 4 else f.unit
  bootReport f 0xFFFF site 5 (if f.kind = 6 then i.balBanks else 0) { d with integ := i }

/-- The spare that start-up takes for a failed unit of a kind whose ballast is whole units: its site, the spares left, and the ballast
without it; none: no spare of the scope is left (13 R391, R396). -/
def bootSpare (f : UnitFail) (d : Dev) : Option (Nat × Nat × Integ) :=
  let i := d.integ
  let dir := (d.flash.tether.dirs[f.unit / 4]?).getD 6
  if f.kind = 0 && spareFor d 0 (arrayScope f.unit) then
    some (160 + arrayScope f.unit, 0, { i with balArrays := modAt (fun _ => false) (arrayScope f.unit) i.balArrays })
  else if f.kind = 1 && spareFor d 1 (f.unit / 20) then
    some (40 + f.unit / 20, 0, { i with balGrams := modAt (fun _ => false) (f.unit / 20) i.balGrams })
  else if f.kind = 9 && decide (dir < 4) && spareFor d 9 dir then
    some (64 + dir, 0, { i with balLanes := modAt (fun _ => false) dir i.balLanes })
  else if f.kind = 6 && decide (0 < i.balBanks) then some (50 - i.balBanks, i.balBanks - 1, { i with balBanks := i.balBanks - 1 })
  else if f.kind = 0xA && i.balCore then some (4, 0, { i with balCore := false })
  else none

/-- A spare row or reserve line that start-up takes for a failed row: the spares left, and the device with it taken; none: no spare is
left in the unit (04 R153; 08 R252, R253; 13 R386, R396). -/
def bootRow (f : UnitFail) (d : Dev) : Option (Nat × Dev) :=
  let u := f.unit
  let row := f.addr.getD 0
  let count (d : Dev) : Dev := { d with integ := { d.integ with rowRetire := satAdd d.integ.rowRetire 1 } }
  let kept (d : Dev) : Dev := { d with ecc := { d.ecc with retired := d.ecc.retired ++ [rowOf row] } }
  if f.kind = 2 && f.addr.isSome then
    match d.groups[u]? with
    | some g => if g.rowsVu < 16 then some (15 - g.rowsVu, modGroup u (fun g => { g with rowsVu := g.rowsVu + 1 }) d) else none
    | none => none
  else if f.kind = 3 && f.addr.isSome then
    match d.groups[u]? with
    | some g => if g.rowsTq < 16 then some (15 - g.rowsTq, modGroup u (fun g => { g with rowsTq := g.rowsTq + 1 }) d) else none
    | none => none
  else if f.kind = 0xB then
    if 0 < carrySpares d u then some (carrySpares d u - 1, count (modArr u (fun x => { x with carryRows := x.carryRows + 1 }) d)) else none
  else if f.kind = 5 then
    let used := (d.ecc.bankRows[u]?).getD 128
    if used < 128 then some (127 - used, count (kept { d with ecc := { d.ecc with bankRows := modAt (· + 1) u d.ecc.bankRows } })) else none
  else if f.kind = 7 then
    let p := (lineRegion (rowOf row)).2
    let n := (rowLines (rowOf row)).length
    if 0 < n && decide (n ≤ reserveFree d p) then
      some (min 0xFFFF (reserveFree d p - n), kept { d with
        integ := { d.integ with reserveUsed := modAt (· + n) p d.integ.reserveUsed }
        gon := { d.gon with hbmRemap := satAdd d.gon.hbmRemap n } })
    else none
  else if f.kind = 8 then
    let s := u / 32
    if pcLines (u % 32) ≤ freeReserve d s then
      let d := { d with
        integ := { d.integ with
          pcFailed := d.integ.pcFailed ++ [(s, u % 32)]
          reserveUsed := modAt (fun _ => pcReserve u) u (takeReserve d (pcLines (u % 32)) s) }
        gon := { d.gon with hbmRemap := satAdd d.gon.hbmRemap (pcLines (u % 32)) } }
      some (min 0xFFFF (freeReserve d s), d)
    else none
  else none

/-- A start-up failure is repaired from ballast, with DEGRADED and a repair report; answers whether it was. A bank whose spare rows are
used up is replaced by a spare bank (13 R386, R391, R394). -/
def bootRepair (d : Dev) (f : UnitFail) : Dev × Bool :=
  let swapTo (f : UnitFail) (x : Nat × Nat × Integ) : Dev × Bool :=
    (moveSite f.kind f.unit x.1 (bootReport f f.unit x.1 2 x.2.1 { d with integ := x.2.2 }), true)
  if f.ballast then (bootBallast f d, true)
  else
    match bootSpare f d, bootRow f d with
    | some x, _ => swapTo f x
    | none, some x => (bootReport f f.unit (siteOf d f.kind f.unit) 1 x.1 x.2, true)
    | none, none =>
      if f.kind = 5 then
        match bootSpare { f with kind := 6 } d with
        | some x => swapTo { f with kind := 6 } x
        | none => (d, false)
      else (d, false)

/-- Start-up repairs in order; answers whether every failure was covered (13 R391). -/
def bootRepairs : List UnitFail → Dev → Dev × Bool
  | [], d => (d, true)
  | f :: fs, d =>
    let r := bootRepair d f
    let q := bootRepairs fs r.1
    (q.1, r.2 && q.2)

/-! ## PWROK -/

/-- PWROK goes high: PLLs, key zeroization, training, BIST, the boot chain, calibration, the zeroing of recorded weight
ranges, repairs and tether bring-up (15 R440, R444 to R447; 12 R377; 13 R391). -/
def pwrokRiseBoth (b : BootIn) (m : Mem) (d : Dev) : Mem × Dev :=
  if d.pins.pwrok || !d.pins.pwrEn || !d.pins.resetN || !d.pins.vddao || isSafe d then (m, d)
  else
    let d := { d with pins := { d.pins with pwrok := true, clocksOff := false, perstN := true }
                      wgt := { d.wgt with bootZero := d.wgt.recorded } }
    if !b.pllOk then (m, safeEntry 9 d)
    else
      let d := zeroizeKeys d
      match bootImage d.fuses d.flash with
      | none =>
        let d := { d with fw := { d.fw with ready := true } }
        (m, safeEntry 2 d)
      | some (i, isB, fallback) =>
        let d := { d with fw := ⟨i.line, i.minor, i.build, i.svn, isB, i.hash, true⟩ }
        let d := if fallback then note 0x0C 0xFFFF 0xFFFF 0 d else d
        if !d.flash.factoryOk then (m, safeEntry 8 d)
        else
          let d := match bootCal d.flash with
            | some r => { d with pwr := { d.pwr with cal := r, vddcOfs := calField r 200, eqOfs := (r.extractLsb' 112 64) } }
            | none => note 0x0C 0xFFFF 0xFFFF 0 d
          let f := clkCeil d
          let d := driveVid f { d with pwr := { d.pwr with clk := f } }
          let r := bootRepairs b.bist d
          if !r.2 || !b.hbmOk then (m, safeEntry 1 r.1)
          else
            let d := r.1
            (zeroRanges d.wgt.bootZero m,
             bringUp { d with
               ecc := d.wgt.bootZero.foldl freshRange d.ecc
               wgt := { d.wgt with bootZero := [], recorded := [] } })

/-- PWROK_RISE (15 R440). -/
def execPwrokRise (b : BootIn) (s : State) : Out := onBoth (pwrokRiseBoth b) s

end Sys2Proof.Machine
end

