-- ==== Sys2Proof/Machine/Counters.lean ====
section
/-! DEFINITION. What discovery counts (14 R422), DISCOVER and NFLAG_READ, and the clears of the crow's nest counters (05 R190,
06 R220, 07 R242, 08 R269, 09 R304, 10 R333, 11 R358, 12 R379, 13 R395, 14 R408, 15 R459). -/

namespace Sys2Proof.Machine

/-! ## Discovery (14 R422) -/

/-- Main array `a` is absent: lost, or its group is (03 R111; 04 R154). -/
def arrayAbsent (d : Dev) (a : Nat) : Bool := ((d.arrays[a]?).map MArr.absent).getD true || groupAbsent d (a / 4)

/-- Main arrays in service. -/
def nArrDisc (d : Dev) : Nat := ((List.range Config.nArrays).filter fun a => !arrayAbsent d a).length

/-- Spar groups, vector units and tile queues in service. -/
def nSgDisc (d : Dev) : Nat := ((List.range Config.nGroups).filter fun g => !groupAbsent d g).length

/-- Gram arrays in service. -/
def nGramDisc (d : Dev) : Nat :=
  ((List.range Config.nGroups).filter fun g => !groupAbsent d g && !((d.groups[g]?).map Group.gramAbsent).getD true).length

/-- SRAM banks in service. -/
def nBankDisc (d : Dev) : Nat := Config.nBanks - d.integ.bankAbsent.length

/-- Tether ports UP. -/
def nTpDisc (d : Dev) : Nat := (d.tth.ports.filter portUp).length

/-- Small fields packed upward, `w` bits each. -/
def packed (w : Nat) (xs : List Nat) : Nat := xs.zipIdx.foldl (fun a x => a + x.1 % 2 ^ w * 2 ^ (w * x.2)) 0

/-- The discovery record as a number (14 R422). -/
def discoveryWord (d : Dev) : Nat :=
  nArrDisc d * 2 ^ 2032 + nSgDisc d * 2 ^ 2024 + nGramDisc d * 2 ^ 2016 + nSgDisc d * 2 ^ 2008 + nSgDisc d * 2 ^ 2000
    + Config.nCtx * 2 ^ 1992 + nBankDisc d * 2 ^ 1984 + hbmDiscovered d * 2 ^ 1936 + gonWin d * unit256 * 2 ^ 1888
    + maskOf (d.tth.ports.map portUp) * 2 ^ 1872 + packed 3 (d.tth.ports.map Port.dir) * 2 ^ 1824
    + packed 2 (d.tth.ports.map Port.rate) * 2 ^ 1792
    + maskOf ((List.range Config.nArrays).map (arrayAbsent d)) * 2 ^ 1632
    + maskOf ((List.range Config.nGroups).map (groupAbsent d)) * 2 ^ 1592
    + maskOf ((List.range Config.nBanks).map d.integ.bankAbsent.contains) * 2 ^ 1544 + nTpDisc d * 2 ^ 1536

/-- DISCOVER (14 R421, R422). -/
def discoverDev (c : CmdRef) : Dev → Dev :=
  runCmd c 0x001 fun desc d => (hostBuf desc (leBytes 256 (discoveryWord d)) d, {})

/-- NFLAG_READ: the host-visible word of every engine for one context, with no clear (02 R73; 14 R421). -/
def nflagReadDev (c : CmdRef) : Dev → Dev :=
  runCmd c 0x002 fun desc d =>
    (hostBuf desc ((List.range 240).flatMap fun e => leBytes 2 (d.nflag.host.get (8 * e + dArg0 desc % 8)).toNat) d, {})

/-! ## Clears -/

/-- A write to a control register whose one field is CLR: a 1 clears (05 R190). -/
def ifClr (w : W32) (f : Dev → Dev) (d : Dev) : Dev := if w.getLsbD 0 then f d else d

/-- CRW_GEN_CTRL.CLR: CRW_RSVD_WR, the stall counters with their remainders, and the pivot counters (14 R408). -/
def clrGen (d : Dev) : Dev :=
  { d with gen := ⟨0, List.replicate 40 0, List.replicate 40 0, List.replicate 40 0⟩ }

/-- CRW_CURV_CTRL.CLR (05 R190). -/
def clrCurv (d : Dev) : Dev :=
  { d with curv := { d.curv with pub := 0, late := 0, skip := 0, aband := 0, rej := 0, tapRows := 0, gramReplay := 0 } }

/-- CRW_SOLV_CTRL.CLR (06 R220). -/
def clrSolv (d : Dev) : Dev :=
  { d with solv := { d.solv with
      done := 0, dlStop := 0, overrun := 0, brk := 0, aband := 0, piv := 0, patch := 0, prej := 0, itLost := 0 } }

/-- CRW_PLAN_CTRL.CLR (07 R242). -/
def clrPlan (d : Dev) : Dev := { d with plan := { d.plan with maxSlip := 0, late := 0, drop := 0, cont := 0, repl := 0 } }

/-- CRW_MEM_CTRL.CLR (08 R269). -/
def clrMem (d : Dev) : Dev :=
  { d with gon := { d.gon with tmo := 0, badRsp := 0, hotplug := 0, ledgerHold := 0, ledgerRestart := 0, hbmRemap := 0 } }

/-- CRW_TTH_CTRL.CLR (09 R304). -/
def clrTth (d : Dev) : Dev :=
  { d with tth := { d.tth with
      retry := 0, lswap := 0, escape := 0, rejEpoch := 0, rejWindow := 0, rejOther := 0, tmo := 0, tsat := 0 } }

/-- CRW_VRD_CTRL.CLR; CRW_VRD_TIME stays (10 R333). -/
def clrVrd (d : Dev) : Dev :=
  { d with vrd := { d.vrd with commits := 0, skips := 0, missing := 0, recon := 0, digest := 0, badRec := 0 } }

/-- CRW_SNAP_CTRL.CLR (11 R358). -/
def clrSnap (d : Dev) : Dev :=
  { d with snap := { d.snap with done := 0, skip := 0, abort := 0, hold := 0, genFix := 0, restore := 0, tackLoss := 0 } }

/-- CRW_WGT_CTRL.CLR (12 R379). -/
def clrWgt (d : Dev) : Dev :=
  { d with wgt := { d.wgt with
      chunks := 0, tagFail := 0, digFail := 0, scrubFail := 0, refetch := 0, switches := 0, sealRd := 0 } }

/-- CRW_INT_CTRL.CLR: the registers of 0x0D04 to 0x0D18, 0x0D24 and 0x0D28 (13 R395). -/
def clrInt (d : Dev) : Dev :=
  { d with integ := { d.integ with
      corr := 0, deferred := 0, ue := 0, parReplay := 0, bktOvf := 0, rowRetire := 0, passS := 0, passH := 0 } }

/-- CRW_PWR_CTRL.CLR: the registers of 0x0E20 to 0x0E28, and PEAK (15 R459). -/
def clrPwr (d : Dev) : Dev := { d with pwr := { d.pwr with sgLate := 0, clamps := 0, reefch := 0, peak := 0 } }

/-! ## The commands -/

/-- DISCOVER (14 R421, R422). -/
def execDiscover (c : CmdRef) (s : State) : Out := onDev (discoverDev c) s

/-- NFLAG_READ (02 R73; 14 R421). -/
def execNflagRead (c : CmdRef) (s : State) : Out := onDev (nflagReadDev c) s

/-- CRW_GEN_CTRL_CLR (14 R408). -/
def execCrwGenCtrlClr (w : W32) (s : State) : Out := onDev (ifClr w clrGen) s

/-- CRW_CURV_CTRL_CLR (05 R190). -/
def execCrwCurvCtrlClr (w : W32) (s : State) : Out := onDev (ifClr w clrCurv) s

/-- CRW_SOLV_CTRL_CLR (06 R220). -/
def execCrwSolvCtrlClr (w : W32) (s : State) : Out := onDev (ifClr w clrSolv) s

/-- CRW_PLAN_CTRL_CLR (07 R242). -/
def execCrwPlanCtrlClr (w : W32) (s : State) : Out := onDev (ifClr w clrPlan) s

/-- CRW_MEM_CTRL_CLR (08 R269). -/
def execCrwMemCtrlClr (w : W32) (s : State) : Out := onDev (ifClr w clrMem) s

/-- CRW_TTH_CTRL_CLR (09 R304). -/
def execCrwTthCtrlClr (w : W32) (s : State) : Out := onDev (ifClr w clrTth) s

/-- CRW_VRD_CTRL_CLR (10 R333). -/
def execCrwVrdCtrlClr (w : W32) (s : State) : Out := onDev (ifClr w clrVrd) s

/-- CRW_SNAP_CTRL_CLR (11 R358). -/
def execCrwSnapCtrlClr (w : W32) (s : State) : Out := onDev (ifClr w clrSnap) s

/-- CRW_WGT_CTRL_CLR (12 R379). -/
def execCrwWgtCtrlClr (w : W32) (s : State) : Out := onDev (ifClr w clrWgt) s

/-- CRW_INT_CTRL_CLR (13 R395). -/
def execCrwIntCtrlClr (w : W32) (s : State) : Out := onDev (ifClr w clrInt) s

/-- CRW_PWR_CTRL_CLR (15 R459). -/
def execCrwPwrCtrlClr (w : W32) (s : State) : Out := onDev (ifClr w clrPwr) s

/-- Bits of CRW_TTH_ACCFLAG that exist: INV, OVF, UNF and SAT (09 R304). -/
def accflagBits : BitVec 8 := 0xCD

/-- CRW_TTH_ACCFLAG takes a write of ones that clear, after which the flags `hw` that hardware sets in the same cycle win (00 R14;
09 R304). -/
def accflagClearDev (w hw : W32) (d : Dev) : Dev :=
  { d with tth := { d.tth with accFlag := (d.tth.accFlag &&& ~~~(w.setWidth 8) ||| hw.setWidth 8) &&& accflagBits } }

/-- ACCFLAG_CLEAR (09 R304). -/
def execAccflagClear (w hw : W32) (s : State) : Out := onDev (accflagClearDev w hw) s

end Sys2Proof.Machine
end

