-- ==== Sys2Proof/Machine/Operands.lean ====
section
/-! DEFINITION. Operand forms of the vector units: views of buffers and queue entries, queue positions, scalar words,
present vector length, and the forms of R125 (04 R112 to R125). -/

namespace Sys2Proof

open Machine

/-- TYPE is FP64: the 64-bit view. -/
def VFields.wide (f : VFields) : Bool := f.type = 1

/-- The floating-point layout of TYPE. -/
def VFields.fmt (f : VFields) : Fmt := if f.wide then fp64 else fp32

/-- Rows that an instruction acts on (04 R122). -/
def VFields.rowList (f : VFields) : List Nat := (List.range (f.rowsM1 + 1)).map (f.row0 + ·)

/-- Format code of R39 that TYPE stands for. -/
def VFields.code (f : VFields) : Nat := if f.type = 1 then 1 else if f.type = 2 then 8 else 0

end Sys2Proof

namespace Sys2Proof.Machine

/-! ## Views (04 R118) -/

/-- Lanes that an instruction acts on, in the view `v64` (04 R118). -/
def lanesOf (v64 : Bool) (vl : Nat) : Nat := if v64 then min vl 64 else vl

/-- Slot (row, col) of a tile in a view (04 R118). -/
def slotGet (v64 : Bool) (b : Sparse 32) (row col : Nat) : Nat :=
  if v64 then (b.get (128 * row + 2 * col)).toNat + 2 ^ 32 * (b.get (128 * row + 2 * col + 1)).toNat
  else (b.get (128 * row + col)).toNat

/-- Writes slot (row, col) of a tile in a view (04 R118). -/
def slotPut (v64 : Bool) (b : Sparse 32) (row col v : Nat) : Sparse 32 :=
  if v64 then (b.set (128 * row + 2 * col) (BitVec.ofNat 32 v)).set (128 * row + 2 * col + 1) (BitVec.ofNat 32 (v / 2 ^ 32))
  else b.set (128 * row + col) (BitVec.ofNat 32 v)

/-- Writes slots: (row, column, value) each. -/
def slotsPut (v64 : Bool) (b : Sparse 32) (ws : List (Nat × Nat × Nat)) : Sparse 32 :=
  ws.foldl (fun b w => slotPut v64 b w.1 w.2.1 w.2.2) b

/-! ## Sources (04 R113, R114, R123) -/

/-- A source operand: a tile, or one word in every lane and row. -/
inductive Src where
  | tile (b : Sparse 32)
  | word (w : Nat)
deriving DecidableEq, Repr

/-- The value of a source in slot (row, col). -/
def Src.at (v64 : Bool) : Src → Nat → Nat → Nat
  | .tile b, row, col => slotGet v64 b row col
  | .word w, _, _ => w

/-- Position Qn of context `c`: its (n + 1)-th oldest held entry in claim order (04 R113). -/
def Group.position (g : Group) (c n : Nat) : Option QEnt := (g.queue.filter fun q => q.ctx = c)[n]?

/-- Scalar word `i` as an instruction in view `v64` reads it (04 R123). -/
def VCtx.word (x : VCtx) (v64 : Bool) (i : Nat) : Nat := (x.scal.get i).toNat % (if v64 then 2 ^ 64 else 2 ^ 32)

/-- A source field's operand; none: it names a queue position that is not claimed, or not sealed, and the instruction waits
(04 R114, R123). -/
def srcOf (g : Group) (x : VCtx) (c : Nat) (v64 : Bool) (scal code : Nat) : Option Src :=
  if code < 6 then some (.tile ((g.bufs[code]?).getD []))
  else if code < 14 then
    match g.position c (code - 6) with
    | some q => if q.isSealed then some (.tile q.data) else none
    | none => none
  else if code = 14 then some (.word (x.word v64 scal))
  else some (.word 0)

/-! ## Instruction words (04 R122, R124, R145) -/

/-- An instruction of a vector block: its word, its extension word and the VL in force. -/
structure VIns where
  word : Nat
  ext : Option Nat
  vl : Nat
deriving DecidableEq, Repr

/-- CLASS of an instruction (04 R124). -/
def VIns.cls (i : VIns) : Nat := bits i.word 63 60

/-- OP of an instruction (04 R122). -/
def VIns.op (i : VIns) : Nat := bits i.word 59 56

/-- The fields below CLASS and OP (04 R122). -/
def VIns.f (i : VIns) : VFields :=
  let w := i.word
  { type := bits w 55 54, dst := bits w 53 50, a := bits w 49 46, b := bits w 45 42, c := bits w 41 38, axis := bit w 37
    subFlush := bit w 36, rtz := bit w 35, row0 := bits w 34 28, rowsM1 := bits w 27 21, scal := bits w 20 16, imm := bits w 15 0 }

/-- Operation `op` of class `cls`. -/
def VIns.isOp (i : VIns) (cls op : Nat) : Bool := i.cls = cls && i.op = op

/-- The extension word of a MOVE; zero where the block ends before it. -/
def VIns.e (i : VIns) : W64 := BitVec.ofNat 64 (i.ext.getD 0)

/-- Source fields that a class uses: SRC_A, SRC_B, SRC_C (04 R125 to R148). -/
def clsUses (cls : Nat) : Bool × Bool × Bool :=
  match cls with
  | 0 => (true, true, true)
  | 1 | 2 | 4 => (true, false, false)
  | 3 | 6 => (true, true, false)
  | 5 => (false, true, false)
  | _ => (false, false, false)

/-- Sources that an operation reads; in scalar mode, where DST is S, none (04 R126 to R148). -/
def opUses (cls op dst : Nat) : Bool × Bool × Bool :=
  match cls with
  | 0 =>
    if dst = 14 then (false, false, false)
    else if op = 3 ∨ op = 4 then (true, true, true)
    else if op ≤ 2 ∨ op = 5 ∨ op = 6 ∨ op = 9 then (true, true, false)
    else (true, false, false)
  | 1 | 2 | 4 => (true, false, false)
  | 3 => (true, decide (op ≤ 3), false)
  | 6 => (op = 1, op = 3, false)
  | _ => (false, false, false)

/-! ## Forms (04 R122 to R125) -/

/-- A source field: one that the operation reads names an operand, one that its class does not use is None, and any other is free (04
R125; log entry 56). -/
def srcForm (cls op : Bool) (code : Nat) : Bool := if op then decide (code ≤ 14) else cls || code = 15

/-- What R125 asks of every instruction: its sources, its rows, its TYPE, and S in at most one source. -/
def vecForm (cls op : Nat) (f : VFields) : Bool :=
  let c := clsUses cls
  let o := opUses cls op f.dst
  decide (f.type ≤ 2 ∧ f.row0 + f.rowsM1 ≤ 127 ∧ f.scal < 32 ∧ f.imm < 65536)
    && srcForm c.1 o.1 f.a && srcForm c.2.1 o.2.1 f.b && srcForm c.2.2 o.2.2 f.c
    && decide (([(o.1, f.a), (o.2.1, f.b), (o.2.2, f.c)].filter fun x => x.1 && x.2 = 14).length ≤ 1)

/-- DST is a tile buffer. -/
def dstTile (f : VFields) : Bool := decide (f.dst ≤ 5)

/-- DST of an operation that writes none, in a class that uses the field: any code but a queue position (04 R125). -/
def dstFree (f : VFields) : Bool := decide (f.dst < 6 ∨ 13 < f.dst)

/-- ARITH forms: INT32 for ADD, SUB, MUL, MIN, MAX, ABS and NEG, FP64 for all but EXP2 and LOG2; scalar mode has no sources and no rows
(04 R125, R126, R129). -/
def arithForm (op : Nat) (f : VFields) : Bool :=
  decide (op ≤ 14) && (f.type = 0 || (f.type = 1 && decide (op ≤ 12)) || (f.type = 2 && (decide (op ≤ 2) || decide (5 ≤ op ∧ op ≤ 8))))
    && !f.axis && vecForm 0 op f &&
    (if f.dst = 14 then f.a = 15 && f.b = 15 && f.c = 15 && f.row0 = 0 && f.rowsM1 = 0 else dstTile f)

/-- CVT forms; `src` is the format in OP (02 R58, R59; 04 R130). -/
def cvtForm (f : VFields) (src : Nat) : Bool :=
  dstTile f && vecForm 1 src f && f.type = 0 && decide (src ≤ 8) && ncwOk f.imm && decide (ncwDst f.imm ≤ 8) && !f.axis

/-- RED forms (04 R132). -/
def redForm (op : Nat) (f : VFields) : Bool :=
  decide (op ≤ 4) && vecForm 2 op f && (f.axis || !f.wide || decide (f.imm % 128 < 64)) && (if f.dst = 14 then !f.axis else dstTile f)

/-- PERM forms (04 R134). -/
def permForm (op : Nat) (f : VFields) : Bool :=
  decide (op ≤ 6) && dstTile f && vecForm 3 op f && !f.axis
    && (op ≠ 6 || (!f.wide && f.row0 = 0 && f.rowsM1 = 127 && decide (f.dst ≠ f.a)))

/-- SEL forms (04 R136). -/
def selForm (op : Nat) (f : VFields) : Bool :=
  decide (op ≤ 1) && dstTile f && vecForm 4 op f && !f.wide && !f.axis && decide (f.imm < 256)
    && decide (f.imm % 64 + 1 ≤ (if bit f.imm 6 then 32 else 64))

/-- Block size b that IMM[1:0] names (04 R138). -/
def pivSize (f : VFields) : Nat := if f.imm % 4 = 0 then 128 else if f.imm % 4 = 1 then 64 else 32

/-- PIV forms: SRC_B names the count buffer (04 R138). -/
def pivForm (op : Nat) (f : VFields) : Bool :=
  decide (op ≤ 3) && dstTile f && vecForm 5 op f && decide (f.b ≤ 5) && decide (f.type ≤ 1) && !f.axis
    && decide (f.imm % 4 ≠ 3) && !(f.wide && f.imm % 4 = 0) && f.row0 = 0 && f.rowsM1 = 127

/-- LD forms: the memory format widens exactly to TYPE (04 R144). -/
def ldForm (f : VFields) (ext : W64) : Bool :=
  let src := f.imm % 16
  dstTile f && vecForm 6 0 f && !f.axis && ext.toNat % 16 = 0
    && (src = f.code || widens src f.code || (src = 6 && f.code = 1))

/-- ST forms (02 R59; 04 R144). -/
def stForm (f : VFields) (ext : W64) : Bool :=
  dstFree f && vecForm 6 1 f && !f.axis && ext.toNat % 16 = 0
    && ncwOk f.imm && decide (ncwDst f.imm ≤ 8) && (decide (f.type ≤ 1) || ncwDst f.imm = 8)

/-- LDS forms (04 R144). -/
def ldsForm (f : VFields) (ext : W64) : Bool :=
  dstFree f && vecForm 6 2 f && !f.axis && ext.toNat % 16 = 0 && decide (f.scal + f.imm % 32 ≤ 31)

/-- GATH forms (04 R145). -/
def gathForm (f : VFields) (ext : W64) : Bool :=
  dstTile f && vecForm 6 3 f && !f.axis && ext.toNat % (if f.wide then 8 else 4) = 0

/-- CTRL forms: SETVL takes IMM[7:0] from 1 to 128, POP IMM[3:0] from 1 to 8 (04 R148). -/
def ctrlForm (op : Nat) (f : VFields) : Bool :=
  decide (op ≤ 3) && f.dst = 15 && vecForm 7 op f && !f.axis
    && (op ≠ 0 || decide (1 ≤ f.imm % 256 ∧ f.imm % 256 ≤ 128)) && (op ≠ 1 || decide (1 ≤ f.imm % 16 ∧ f.imm % 16 ≤ 8))

/-! ## Running one instruction (04 R113 to R122; 07 R227) -/

/-- What an instruction finds: its group and context and its three sources. -/
structure VIn where
  g : Group
  x : VCtx
  a : Src
  b : Src
  c : Src

/-- The word `k` places after the next instruction word of a context's current vector block, in the image of the plan (04 R117, R122). -/
def blockWord (m : Mem) (x : VCtx) (k : Nat) : Option Nat :=
  match x.blocks.head? with
  | some b => if x.pos + k < b.2.2 then some (m.readLE (b.2.1 + 8 * (x.pos + k)) 8) else none
  | none => none

/-- The next instruction of a context's current vector block, with its extension word where it is a MOVE (04 R122, R124, R145). -/
def nextIns (m : Mem) (x : VCtx) : Option VIns :=
  (blockWord m x 0).map fun w => let i : VIns := ⟨w, none, x.vl⟩; if i.cls = 6 then { i with ext := blockWord m x 1 } else i

/-- A source that the operation reads; one that it does not read asks for nothing. -/
def srcUsed (used : Bool) (g : Group) (x : VCtx) (c : Nat) (v64 : Bool) (scal code : Nat) : Option Src :=
  if used then srcOf g x c v64 scal code else some (.word 0)

/-- The view in which an operation reads its sources: of the 64-bit source of a CVT, else of TYPE (04 R118, R130). -/
def srcView (cls op : Nat) (f : VFields) : Bool := if cls = 1 then op = 1 else f.wide

/-- The sources of an operation; none while it waits on a queue position (04 R114). -/
def sources (g : Group) (x : VCtx) (c cls op : Nat) (f : VFields) : Option VIn :=
  let o := opUses cls op f.dst
  let v := srcView cls op f
  match srcUsed o.1 g x c v f.scal f.a, srcUsed o.2.1 g x c v f.scal f.b, srcUsed o.2.2 g x c v f.scal f.c with
  | some a, some b, some c => some ⟨g, x, a, b, c⟩
  | _, _, _ => none

/-- The context's next instruction can issue: its block has one, it waits on no queue position and on no HELD copy (04 R114, R121; 11
R340). -/
def ctxReady (m : Mem) (d : Dev) (g : Group) (c : Nat) (x : VCtx) : Bool :=
  match nextIns m x, x.blocks.head? with
  | some i, some b => (sources g x c i.cls i.op i.f).isSome && !d.tack.waits.contains b.1
  | _, _ => false

/-- Among the contexts that can issue the vector unit takes the one whose current block has the lowest SEQ (04 R121; 07 R227). -/
def ctxTurn (m : Mem) (d : Dev) (g : Group) (x : VCtx) : Bool :=
  match x.blocks.head? with
  | some b => g.ctxs.zipIdx.all fun y => match y.1.blocks.head? with
      | some e => decide (b.1 ≤ e.1) || !ctxReady m d g y.2 y.1
      | none => true
  | none => false

/-- The command is the next instruction of its context's current vector block, as the plan image holds it (01 R33, R34; 04 R122, R124). -/
def isNext (m : Mem) (x : VCtx) (cls op : Nat) (f : VFields) (ext : Option W64) : Bool :=
  match nextIns m x with
  | some i => i.cls = cls && i.op = op && i.f = f && (match ext with
      | some e => i.ext = some e.toNat
      | none => true)
  | none => false

/-- An instruction can issue: its group is in service, it stands next in its context's current block, it is the context's turn, and
every queue position it reads is sealed (04 R114, R120 to R122). -/
def vecIn (m : Mem) (d : Dev) (u : VUse) (cls op : Nat) (f : VFields) (ext : Option W64) : Option VIn :=
  match d.groups[u.group]? with
  | none => none
  | some g =>
    if ((d.gpwr[u.group]?).map GroupPwr.absent).getD true then none
    else
      match g.ctxs[u.ctx]? with
      | none => none
      | some x => if isNext m x cls op f ext && ctxTurn m d g x then sources g x u.ctx cls op f else none

/-- Changes a context of a vector unit. -/
def modCtx (u : VUse) (f : VCtx → VCtx) : Dev → Dev := modGroup u.group fun g => { g with ctxs := modAt f u.ctx g.ctxs }

/-- Stores slots in tile buffer `b` of a group. -/
def putTile (grp b : Nat) (v64 : Bool) (ws : List (Nat × Nat × Nat)) : Dev → Dev :=
  modGroup grp fun g => { g with bufs := modAt (fun t => slotsPut v64 t ws) b g.bufs }

/-- Stores a scalar word (04 R123). -/
def putScal (u : VUse) (i v : Nat) : Dev → Dev := modCtx u fun x => { x with scal := x.scal.set i (BitVec.ofNat 64 v) }

/-- Flags that an instruction sets (02 R71). -/
def vecFlags (u : VUse) (fl : Nat) : Dev → Dev := setFlags (engVu u.group) u.ctx fl

/-- The first `n` elements for which `p` holds leave a list. -/
def dropMatching {α : Type} (p : α → Bool) : Nat → List α → List α
  | 0, l => l
  | _, [] => []
  | n + 1, x :: t => if p x then dropMatching p n t else x :: dropMatching p (n + 1) t

/-- A vector block ends: its releases take effect and free entries serve waiting claims, its pivot substitutions are counted,
and its slot completes (04 R115, R141, R150). -/
def endBlock (u : VUse) (d : Dev) : Dev :=
  match (d.groups[u.group]?).bind fun g => g.ctxs[u.ctx]? with
  | none => d
  | some x =>
    let d := modGroup u.group (fun g => { g with queue := dropMatching (fun q => decide (q.ctx = u.ctx)) x.pops g.queue }) d
    let d := { d with gen := { d.gen with pivTot := modAt (fun c => satAdd c x.pivs) u.group d.gen.pivTot } }
    let d := modCtx u (fun x => { x with blocks := x.blocks.drop 1, pos := 0, pops := 0, pivs := 0, start := (x.vl, x.scal) }) d
    let d := modGroup u.group (fun g => { g with mending := g.mending.filter fun r => r.1 ≠ u.ctx }) d
    let d := grantClaims u.group 8 d
    match x.blocks.head?, d.plan.run with
    | some b, some run =>
      match inFlight run b.1 with
      | some fl => complete fl.1 b.1 d
      | none => d
    | _, _ => d

/-- The context moves past an instruction of `n` words; with the last word of its VBLOCK slot the block ends, CKPT or not (04 R150; 07 R224;
log entry 56). -/
def vecNext (u : VUse) (n : Nat) (d : Dev) : Dev :=
  match (d.groups[u.group]?).bind fun g => g.ctxs[u.ctx]? with
  | none => d
  | some x =>
    match x.blocks.head? with
    | none => d
    | some b =>
      if b.2.2 ≤ x.pos + n then endBlock u d else modCtx u (fun x => { x with pos := x.pos + n }) d

/-- Runs an instruction of good form; one that waits, or that does not stand next in its block, changes nothing. -/
def onVec (cls op : Nat) (u : VUse) (f : VFields) (form : Bool) (body : VIn → Dev → Dev) (m : Mem) (d : Dev) : Dev :=
  match vecIn m d u cls op f none with
  | some i => if form then vecNext u 1 (body i d) else d
  | none => d

end Sys2Proof.Machine
end

