-- ==== Sys2Proof/Machine/Vector.lean ====
section
/-! DEFINITION. Element-wise arithmetic and conversion on the vector units (04 R126 to R130). -/

namespace Sys2Proof.Machine

/-! ## One lane -/

/-- A floating-point operation of one operand, rounded once (04 R127). -/
def fp1 (f : VFields) (op : Num → Num × Nat) (a : Nat) : Res :=
  let x := f.fmt.flushIn f.subFlush a
  let p := op x.1
  (f.fmt.ieee f.rtz f.subFlush p.1).or (x.2 ||| p.2)

/-- A floating-point operation of two operands, rounded once (04 R127). -/
def fp2 (f : VFields) (op : Num → Num → Num × Nat) (a b : Nat) : Res :=
  let x := f.fmt.flushIn f.subFlush a
  let y := f.fmt.flushIn f.subFlush b
  let p := op x.1 y.1
  (f.fmt.ieee f.rtz f.subFlush p.1).or (x.2 ||| y.2 ||| p.2)

/-- A floating-point operation of three operands, rounded once (04 R127). -/
def fp3 (f : VFields) (op : Num → Num → Num → Num × Nat) (a b c : Nat) : Res :=
  let x := f.fmt.flushIn f.subFlush a
  let y := f.fmt.flushIn f.subFlush b
  let z := f.fmt.flushIn f.subFlush c
  let p := op x.1 y.1 z.1
  (f.fmt.ieee f.rtz f.subFlush p.1).or (x.2 ||| y.2 ||| z.2 ||| p.2)

/-- An INT32 result, saturated with OVF (04 R128). -/
def int32 (i : Int) : Res := let s := satSum i; ⟨ofSInt 32 s.1, s.2⟩

/-- The signed value of a 32-bit slot (02 R44). -/
def s32 (w : Nat) : Int := sext 32 w

/-- a - b. -/
def Num.sub (a b : Num) : Num × Nat := a.add b.neg

/-- c - a * b. -/
def Num.fnma (a b c : Num) : Num × Nat := a.neg.fma b c

/-- A choice that never fails. -/
def pure2 (op : Num → Num → Num) (a b : Num) : Num × Nat := (op a b, 0)

/-- The lane function of a two-operand operation by TYPE (04 R126, R128). -/
def lane2 (f : VFields) (fp : Num → Num → Num × Nat) (int : Int → Int → Int) (a b _c : Nat) : Res :=
  if f.type = 2 then int32 (int (s32 a) (s32 b)) else fp2 f fp a b

/-- The lane function of a one-operand operation. -/
def lane1 (f : VFields) (op : Num → Num × Nat) (a _b _c : Nat) : Res := fp1 f op a

/-- ABS: the sign bit falls; no flag but OVF of a saturated INT32 (04 R127, R128). -/
def laneAbs (f : VFields) (a _b _c : Nat) : Res :=
  if f.type = 2 then int32 (s32 a).natAbs else ⟨a % f.fmt.signBit, 0⟩

/-- NEG: the sign bit turns; no flag but OVF of a saturated INT32 (04 R127, R128). -/
def laneNeg (f : VFields) (a _b _c : Nat) : Res :=
  if f.type = 2 then int32 (-(s32 a)) else ⟨Nat.xor (a % (2 * f.fmt.signBit)) f.fmt.signBit, 0⟩

/-! ## A whole instruction -/

/-- The results of a lane function over rows and lanes: slots to write, and flags. -/
def laneAll (f : VFields) (i : VIn) (lane : Nat → Nat → Nat → Res) : List (Nat × Nat × Nat) × Nat :=
  f.rowList.foldl (fun o r => (List.range (lanesOf f.wide i.x.vl)).foldl (fun o l =>
    let v := lane (i.a.at f.wide r l) (i.b.at f.wide r l) (i.c.at f.wide r l)
    (o.1 ++ [(r, l, v.code)], o.2 ||| v.flags)) o) ([], 0)

/-- An ARITH instruction: scalar mode writes one scalar word, vector mode every active lane (04 R126, R129). -/
def arith (u : VUse) (f : VFields) (lane : Nat → Nat → Nat → Res) (i : VIn) (d : Dev) : Dev :=
  if f.dst = 14 then
    let w (k : Nat) : Nat := i.x.word f.wide k
    let v := lane (w (bits f.imm 14 10)) (w (bits f.imm 9 5)) (w (bits f.imm 4 0))
    vecFlags u v.flags (putScal u f.scal v.code d)
  else
    let o := laneAll f i lane
    vecFlags u o.2 (putTile u.group f.dst f.wide o.1 d)

/-! ## Conversion (04 R130) -/

/-- The seed and step index that fix a draw; zeros when no plan is admitted (02 R62). -/
def vecKey (d : Dev) (c stream : Nat) : DrawKey :=
  match d.plan.run with
  | some r => ⟨r.hdr.seed, r.step, c, stream⟩
  | none => ⟨0, 0, c, stream⟩

/-- The value of a slot that holds format `src`, flushed when the control word asks for it; every element of a NaN block is NaN (02
R39, R45, R68). -/
def slotValue (imm src w : Nat) : Num × Nat :=
  if src = 6 then
    let z := flushes imm && decide (w % 8 = 1 ∧ w / 2 ^ 24 % 256 ≠ 255)
    (if z then .zero (bit w 3) else fp4Value w (w / 2 ^ 24), if z then fFLS else 0)
  else match fmtOf src with
    | some f => f.flushIn (flushes imm) w
    | none => (decodeAs src w, 0)

/-- Conversion of the value of one slot to a destination other than FP4 (02 R56 to R69; 04 R130). -/
def convSlot (imm src : Nat) (scale : W32) (rnd : Rnd) (x : Num × Nat) : Res :=
  let wide := widens src (ncwDst imm) && !ncwScaled imm
  (convOne imm rnd wide (ncwScaled imm) false (applyScale imm scale x.1)).or x.2

/-- One row converted: slot words by lane, and flags. FP4 goes block by block and puts BX8 in bits [31:24] (02 R48; 03 R102). -/
def convRow (imm src : Nat) (scale : W32) (rule : Nat → Rnd) (xs : List (Num × Nat)) : List Nat × Nat :=
  if ncwDst imm = 6 then
    (List.range (xs.length / 32)).foldl (fun o k =>
      let b := convBlock (ncwSat imm) false ((List.range 32).map fun j =>
        let x := (xs[32 * k + j]?).getD (.zero false, 0)
        (applyScale imm scale x.1, rule (32 * k + j)))
      let fl := ((xs.drop (32 * k)).take 32).foldl (fun fl x => fl ||| x.2) b.flags
      (o.1 ++ b.codes.map (· + b.bx * 2 ^ 24), o.2 ||| fl)) ([], 0)
  else
    xs.zipIdx.foldl (fun o x =>
      let r := convSlot imm src scale (rule x.2) x.1
      (o.1 ++ [r.code], o.2 ||| r.flags)) ([], 0)

/-- Lanes of a conversion: 64 at most when either side is FP64 (04 R118, R130). -/
def convLanes (src dst vl : Nat) : Nat := lanesOf (src = 1 || dst = 1) vl

/-- The tensor scale of a conversion: bits [31:0] of scalar word SCAL (04 R130). -/
def VIn.scale (i : VIn) (f : VFields) : W32 := BitVec.ofNat 32 (i.x.word false f.scal)

/-- The values of the lanes of one row of a conversion's source (04 R130). -/
def cvtRow (f : VFields) (src n : Nat) (i : VIn) (r : Nat) : List (Num × Nat) :=
  (List.range n).map fun l => slotValue f.imm src (i.a.at (src = 1) r l)

/-- A stochastic conversion that names the stream of the root service's probe: no admitted plan holds one (02 R58; 05 R179). -/
def probeStream (imm stream : Nat) : Bool := ncwRnd imm = 1 && stream = 8191

/-- CVT; the amax of a narrow tensor is recorded (02 R49; 04 R130). -/
def cvtDev (u : VUse) (f : VFields) (src : Nat) (w : DrawIn) (m : Mem) (d : Dev) : Dev :=
  match vecIn m d u 1 src f none with
  | none => d
  | some i =>
    let dst := ncwDst f.imm
    let n := convLanes src dst i.x.vl
    if !cvtForm f src || (dst = 6 && i.x.vl % 32 ≠ 0) || probeStream f.imm w.stream then d
    else
      let k := vecKey d u.ctx w.stream
      let sc := narrowScale d w.amax (i.scale f)
      let o := f.rowList.foldl (fun o r =>
        let c := convRow f.imm src sc (fun l => ncwRule f.imm k (w.base + (r - f.row0) * w.pitch + l)) (cvtRow f src n i r)
        (o.1 ++ c.1.zipIdx.map fun v => (r, v.2, v.1), o.2 ||| c.2)) (([] : List (Nat × Nat × Nat)), scaleFlag f.imm sc)
      let d := recordAmax w.amax dst (f.rowList.flatMap fun r => (cvtRow f src n i r).map (·.1)) d
      vecNext u 1 (vecFlags u o.2 (putTile u.group f.dst (dst = 1) o.1 d))

/-! ## The commands -/

/-- An ARITH instruction as a command (04 R126 to R129). -/
def execArith (op : Nat) (u : VUse) (f : VFields) (lane : Nat → Nat → Nat → Res) (s : State) : Out :=
  onRead (onVec 0 op u f (arithForm op f) (arith u f lane)) s

/-- ADD (04 R126). -/
def execAdd (u : VUse) (f : VFields) (s : State) : Out := execArith 0 u f (lane2 f Num.add fun a b => a + b) s
/-- SUB (04 R126). -/
def execSub (u : VUse) (f : VFields) (s : State) : Out := execArith 1 u f (lane2 f Num.sub fun a b => a - b) s
/-- MUL (04 R126). -/
def execMul (u : VUse) (f : VFields) (s : State) : Out := execArith 2 u f (lane2 f Num.mul fun a b => a * b) s
/-- FMA (04 R126). -/
def execFma (u : VUse) (f : VFields) (s : State) : Out := execArith 3 u f (fp3 f Num.fma) s
/-- FNMA (04 R126). -/
def execFnma (u : VUse) (f : VFields) (s : State) : Out := execArith 4 u f (fp3 f Num.fnma) s
/-- MIN (04 R126). -/
def execMin (u : VUse) (f : VFields) (s : State) : Out := execArith 5 u f (lane2 f (pure2 Num.min) fun a b => if b < a then b else a) s
/-- MAX (04 R126). -/
def execMax (u : VUse) (f : VFields) (s : State) : Out := execArith 6 u f (lane2 f (pure2 Num.max) fun a b => if a < b then b else a) s
/-- ABS (04 R126). -/
def execAbs (u : VUse) (f : VFields) (s : State) : Out := execArith 7 u f (laneAbs f) s
/-- NEG (04 R126). -/
def execNeg (u : VUse) (f : VFields) (s : State) : Out := execArith 8 u f (laneNeg f) s
/-- DIV (04 R127). -/
def execDiv (u : VUse) (f : VFields) (s : State) : Out := execArith 9 u f (fun a b _ => fp2 f Num.div a b) s
/-- SQRT (04 R127). -/
def execSqrt (u : VUse) (f : VFields) (s : State) : Out := execArith 10 u f (lane1 f Num.sqrt) s
/-- RSQRT (04 R127). -/
def execRsqrt (u : VUse) (f : VFields) (s : State) : Out := execArith 11 u f (lane1 f Num.rsqrt) s
/-- RECIP (04 R127). -/
def execRecip (u : VUse) (f : VFields) (s : State) : Out := execArith 12 u f (lane1 f Num.recip) s
/-- EXP2 (04 R127). -/
def execExp2 (u : VUse) (f : VFields) (s : State) : Out := execArith 13 u f (lane1 f Num.exp2) s
/-- LOG2 (04 R127). -/
def execLog2 (u : VUse) (f : VFields) (s : State) : Out := execArith 14 u f (lane1 f Num.log2) s
/-- CVT (04 R130). -/
def execCvt (u : VUse) (f : VFields) (srcFmt : Nat) (w : DrawIn) (s : State) : Out := onRead (cvtDev u f srcFmt w) s

end Sys2Proof.Machine
end

