-- ==== Sys2Proof/Machine/Pivot.lean ====
section
/-! DEFINITION. The pivot stage: LU, Cholesky, Gauss-Jordan inversion and triangular inversion of small blocks with pivot
substitution (04 R138 to R143). Log entry 24 says how the steps of GJINV and TRINV are read. -/

namespace Sys2Proof.Machine

/-- A block as codes, row by row. -/
abbrev Block2 := List (List Nat)

/-- Entry (i, j) of a block. -/
def entry (a : Block2) (i j : Nat) : Nat := ((a[i]?).getD [])[j]?.getD 0

/-- Rebuilds a block of size `b` entry by entry, gathering flags. -/
def mapBlock (b : Nat) (h : Nat → Nat → Res) : Block2 × Nat :=
  (List.range b).foldl (fun o i =>
    let rs := (List.range b).map (h i)
    (o.1 ++ [rs.map Res.code], rs.foldl (fun fl r => fl ||| r.flags) o.2)) ([], 0)

/-- The operations of R138. -/
inductive PivOp where
  | lu | chol | gjinv | trinv
deriving DecidableEq, Repr

/-- emax of TYPE (04 R140). -/
def pivEmax (f : VFields) : Int := if f.type = 1 then 1023 else 127

/-- The smallest positive normal value of TYPE. -/
def minNormal (f : VFields) : Num := .fin false 1 f.fmt.emin

/-- The magnitude of a value. -/
def Num.mag : Num → Num
  | .fin _ m e => .fin false m e
  | .inf _ => .inf false
  | .nan => .nan

/-- The larger of two finite magnitudes; what is not finite does not count (04 R140). -/
def magMax (a x : Num) : Num :=
  match x with
  | .fin _ m e => if a.lt (.fin false m e) then .fin false m e else a
  | _ => a

/-- The threshold in use: a value that is not positive and finite gives the smallest positive normal value (04 R140). -/
def thresh (f : VFields) (w : Nat) : Num :=
  match f.fmt.decode w with
  | .fin false (m + 1) e => .fin false (m + 1) e
  | _ => minNormal f

/-- The ceiling of log2 of a positive dyadic. -/
def ceilLog2 (m : Nat) (e : Int) : Int := if m = 2 ^ Nat.log2 m then topExp m e else topExp m e + 1

/-- 2^(k * (ceil(log2 m) - emax)); zero when no value is divided (04 R140). -/
def pivFloor (f : VFields) (k : Int) : Num → Num
  | .fin _ (m + 1) e => .fin false 1 (k * (ceilLog2 (m + 1) e - pivEmax f))
  | _ => .zero false

/-- m / |d| would exceed the largest finite value of TYPE (04 R140). -/
def quotBig (f : VFields) (m d : Num) : Bool := ((f.fmt.decode f.fmt.top).mul d).1.lt m

/-- The pivot after R140: its code and whether it was substituted. `m` is the largest magnitude divided by it. -/
def pivotOf (f : VFields) (op : PivOp) (t m : Num) (w : Nat) : Nat × Bool :=
  let d := (f.fmt.flushIn f.subFlush w).1
  match d with
  | .nan => (w, false)
  | _ =>
    if op = .chol then
      if d.lt t then ((f.fmt.ieee false false (t.max (pivFloor f 2 m))).code, true) else (w, false)
    else if d.isZero || d.mag.lt t || quotBig f m d.mag then
      let v := t.max (pivFloor f 1 m)
      ((f.fmt.ieee false false (if d.isNeg && !d.isZero then v.neg else v)).code, true)
    else (w, false)

/-- The largest finite magnitude that step `j` divides by the pivot (04 R140; log entry 24). -/
def pivMax (f : VFields) (op : PivOp) (b j : Nat) (a : Block2) : Num :=
  let v (w : Nat) : Num := (f.fmt.flushIn f.subFlush w).1
  match op with
  | .lu | .chol => ((List.range b).filter fun i => decide (j < i)).foldl (fun m i => magMax m (v (entry a i j))) (.zero false)
  | .gjinv => ((List.range b).filter fun k => decide (k ≠ j)).foldl (fun m k => magMax m (v (entry a j k))) (.fin false 1 0)
  | .trinv => .fin false 1 0

/-- Division, FNMA and square root of TYPE. -/
def pDiv (f : VFields) (a b : Nat) : Res := fp2 f Num.div a b

/-- c - a * b. -/
def pFnma (f : VFields) (a b c : Nat) : Res := fp3 f Num.fnma a b c

/-- An entry that a step leaves alone. -/
def keepCode (w : Nat) : Res := ⟨w, 0⟩

/-- The code of 1 in TYPE. -/
def oneCode (f : VFields) : Nat := (f.fmt.ieee false false (.fin false 1 0)).code

/-- Step `j` of LU with pivot `p`. -/
def stepLu (f : VFields) (b j p : Nat) (a : Block2) : Block2 × Nat :=
  mapBlock b fun i k =>
    if i = j && k = j then keepCode p
    else if decide (j < i) && k = j then pDiv f (entry a i j) p
    else if decide (j < i ∧ j < k) then pFnma f (pDiv f (entry a i j) p).code (entry a j k) (entry a i k)
    else keepCode (entry a i k)

/-- Step `j` of CHOL with pivot `p`: its square root is taken (04 R138, R140). -/
def stepChol (f : VFields) (b j p : Nat) (a : Block2) : Block2 × Nat :=
  let s := fp1 f Num.sqrt p
  let l (i : Nat) : Res := pDiv f (entry a i j) s.code
  mapBlock b fun i k =>
    if i = j && k = j then s
    else if decide (j < i) && k = j then l i
    else if decide (j < k ∧ k ≤ i) then pFnma f (l i).code (l k).code (entry a i k)
    else keepCode (entry a i k)

/-- Row `j` of an inversion step: the pivot's place holds 1 and the row is divided by the pivot (log entry 24). -/
def invRow (f : VFields) (j p : Nat) (a : Block2) (k : Nat) : Res :=
  pDiv f (if k = j then oneCode f else entry a j k) p

/-- Step `j` of GJINV with pivot `p` (04 R138; log entry 24). -/
def stepGj (f : VFields) (b j p : Nat) (a : Block2) : Block2 × Nat :=
  mapBlock b fun i k =>
    if i = j then invRow f j p a k
    else pFnma f (entry a i j) (invRow f j p a k).code (if k = j then 0 else entry a i k)

/-- Step `j` of TRINV with pivot `p` (04 R138; log entry 24). -/
def stepTri (f : VFields) (b j p : Nat) (a : Block2) : Block2 × Nat :=
  mapBlock b fun i k =>
    if j < k then keepCode (entry a i k)
    else if i = j then invRow f j p a k
    else if j < i then pFnma f (entry a i j) (invRow f j p a k).code (if k = j then 0 else entry a i k)
    else keepCode (entry a i k)

/-- A block under elimination: codes, flags, substitutions. -/
structure PivSt where
  a : Block2
  flags : Nat
  count : Nat

/-- One pivot column (04 R139, R140). -/
def pivStep (f : VFields) (op : PivOp) (b : Nat) (t : Num) (s : PivSt) (j : Nat) : PivSt :=
  let p := pivotOf f op t (pivMax f op b j s.a) (entry s.a j j)
  let r := match op with
    | .lu => stepLu f b j p.1 s.a
    | .chol => stepChol f b j p.1 s.a
    | .gjinv => stepGj f b j p.1 s.a
    | .trinv => stepTri f b j p.1 s.a
  ⟨r.1, s.flags ||| r.2 ||| (if p.2 then fPIV else 0), s.count + ofBool p.2⟩

/-- One block: pivot columns in ascending order (04 R139). -/
def pivBlock (f : VFields) (op : PivOp) (b : Nat) (t : Num) (a : Block2) : PivSt :=
  (List.range b).foldl (pivStep f op b t) ⟨a, 0, 0⟩

/-- Blocks (p, q) of the tile (04 R138). -/
def pivBlocks (f : VFields) : List (Nat × Nat) :=
  let b := pivSize f
  (List.range (128 / b)).flatMap fun p => (List.range ((if f.wide then 64 else 128) / b)).map fun q => (p, q)

/-- A PIV instruction: every block of the whole tile in place, whatever VL is, the counts of substitutions beside them (04 R138, R141; log
entry 56). -/
def pivot (u : VUse) (f : VFields) (op : PivOp) (i : VIn) (d : Dev) : Dev :=
  let b := pivSize f
  let t := thresh f (i.x.word f.wide f.scal)
  let tile := (i.g.bufs[f.dst]?).getD []
  let os := (pivBlocks f).map fun pq =>
    (pq, pivBlock f op b t ((List.range b).map fun r => (List.range b).map fun c =>
      slotGet f.wide tile (b * pq.1 + r) (b * pq.2 + c)))
  let ws := os.flatMap fun o => (List.range b).flatMap fun r => (List.range b).map fun c =>
    (b * o.1.1 + r, b * o.1.2 + c, entry o.2.a r c)
  let cs := os.map fun o => (bits f.imm 8 2, 4 * o.1.1 + o.1.2, min o.2.count 2147483647)
  let n := os.foldl (fun n o => n + o.2.count) 0
  let d := putTile u.group f.b false cs (putTile u.group f.dst f.wide ws d)
  let d := modCtx u (fun x => { x with pivs := x.pivs + n }) d
  vecFlags u (os.foldl (fun fl o => fl ||| o.2.flags) 0) d

/-- A PIV instruction as a command (04 R138). -/
def execPiv (op : Nat) (u : VUse) (f : VFields) (k : PivOp) (s : State) : Out := onRead (onVec 5 op u f (pivForm op f) (pivot u f k)) s

/-- LU (04 R138). -/
def execLu (u : VUse) (f : VFields) (s : State) : Out := execPiv 0 u f .lu s
/-- CHOL (04 R138). -/
def execChol (u : VUse) (f : VFields) (s : State) : Out := execPiv 1 u f .chol s
/-- GJINV (04 R138). -/
def execGjinv (u : VUse) (f : VFields) (s : State) : Out := execPiv 2 u f .gjinv s
/-- TRINV (04 R138). -/
def execTrinv (u : VUse) (f : VFields) (s : State) : Out := execPiv 3 u f .trinv s

end Sys2Proof.Machine
end

