-- ==== Sys2Proof/Machine/Reduce.lean ====
section
/-! DEFINITION. Reductions, permutes and gathers within buffers, and top-k selection on the vector units (04 R131 to R137). -/

namespace Sys2Proof.Machine

/-! ## Reductions (04 R131 to R133) -/

/-- One level of the fixed tree: neighbours combine, an odd last value passes up (04 R133). -/
def pairUp {α : Type} (f : α → α → α) : List α → List α
  | a :: b :: t => f a b :: pairUp f t
  | l => l

/-- The fixed binary tree over at most 2^fuel values (04 R133). -/
def tree {α : Type} (f : α → α → α) : Nat → List α → List α
  | 0, l => l
  | n + 1, l => tree f n (pairUp f l)

/-- A value on its way up the tree and the flags so far: a floating-point value or an integer. -/
abbrev RVal := Acc × Nat

/-- Levels that reduce 128 values and more. -/
def treeDepth : Nat := 8

/-- NAN and INF are set only by what is written (02 R70). -/
def hush (fl : Nat) : Nat := fl &&& (fINV ||| fDZ ||| fOVF ||| fUNF ||| fFLS ||| fSCL ||| fRNG ||| fPIV)

/-- Rounds a value to TYPE on its way up (04 R131, R133). -/
def redRound (f : VFields) (x : Num) (fl : Nat) : RVal :=
  let r := f.fmt.ieee f.rtz f.subFlush x
  (.num (f.fmt.decode r.code), fl ||| hush r.flags)

/-- The operations of R131. -/
inductive RedOp where
  | sum | sumsq | max | min | amax
deriving DecidableEq, Repr

/-- The value of a slot before the tree. -/
def redIn (f : VFields) (w : Nat) : RVal :=
  if f.type = 2 then (.int (s32 w), 0) else let x := f.fmt.flushIn f.subFlush w; (.num x.1, x.2)

/-- SUMSQ squares each value first, rounded to TYPE; AMAX takes its magnitude (04 R131). -/
def redFirst (f : VFields) (op : RedOp) (x : RVal) : RVal :=
  match op, x.1 with
  | .sumsq, .num v => redRound f (v.mul v).1 x.2
  | .sumsq, .int v => let s := satSum (v * v); (.int s.1, x.2 ||| s.2)
  | .amax, .num (.fin _ m e) => (.num (.fin false m e), x.2)
  | .amax, .int v => let s := satSum v.natAbs; (.int s.1, x.2 ||| s.2)
  | _, _ => x

/-- How two values combine (04 R131, R133). -/
def redComb (f : VFields) (op : RedOp) (x y : RVal) : RVal :=
  let fl := x.2 ||| y.2
  match x.1, y.1 with
  | .int a, .int b =>
    match op with
    | .sum | .sumsq => let s := satSum (a + b); (.int s.1, fl ||| s.2)
    | .min => (.int (if b < a then b else a), fl)
    | _ => (.int (if a < b then b else a), fl)
  | .num a, .num b =>
    match op with
    | .sum | .sumsq => let s := a.add b; redRound f s.1 (fl ||| s.2)
    | .min => (.num (a.min b), fl)
    | _ => (.num (a.max b), fl)
  | _, _ => (x.1, fl)

/-- The values that take part: AMAX takes only finite ones (04 R131). -/
def redKeep (op : RedOp) (x : RVal) : Bool :=
  match op, x.1 with
  | .amax, .num (.fin ..) => true
  | .amax, .num _ => false
  | _, _ => true

/-- Reduces values in order through the fixed tree; +0 when none takes part (04 R131, R133). -/
def redTree (f : VFields) (op : RedOp) (xs : List RVal) : RVal :=
  let fl := xs.foldl (fun fl x => fl ||| x.2) 0
  match tree (redComb f op) treeDepth (xs.filter (redKeep op)) with
  | x :: _ => (x.1, x.2 ||| fl)
  | [] => (.num (.zero false), fl)

/-- A reduced value as it is written (02 R70). -/
def redOut (f : VFields) (x : RVal) : Res :=
  match x.1 with
  | .int i => ⟨ofSInt 32 i, x.2⟩
  | .num v =>
    let r := f.fmt.ieee false false v
    ⟨r.code, x.2 ||| (r.flags &&& (fNAN ||| fINF))⟩

/-- The reduction of slots of SRC_A. -/
def redSlots (f : VFields) (op : RedOp) (i : VIn) (ps : List (Nat × Nat)) : RVal :=
  redTree f op (ps.map fun p => redFirst f op (redIn f (i.a.at f.wide p.1 p.2)))

/-- A RED instruction; the column or row that IMM names is written whatever VL is (04 R132; log entry 56). -/
def reduce (u : VUse) (f : VFields) (op : RedOp) (i : VIn) (d : Dev) : Dev :=
  let lanes := List.range (lanesOf f.wide i.x.vl)
  let row (r : Nat) : RVal := redSlots f op i (lanes.map fun l => (r, l))
  if f.dst = 14 then
    let v := redOut f (redTree f op (f.rowList.map row))
    vecFlags u v.flags (putScal u f.scal v.code d)
  else
    let os : List (Nat × Nat × Res) :=
      if f.axis then lanes.map fun l => (f.imm % 128, l, redOut f (redSlots f op i (f.rowList.map fun r => (r, l))))
      else f.rowList.map fun r => (r, f.imm % 128, redOut f (row r))
    vecFlags u (os.foldl (fun fl o => fl ||| o.2.2.flags) 0)
      (putTile u.group f.dst f.wide (os.map fun o => (o.1, o.2.1, o.2.2.code)) d)

/-! ## Permutes (04 R134, R135) -/

/-- The index of row r and lane l: the low 32 bits of SRC_B's slot (04 R134). -/
def VIn.idx (i : VIn) (f : VFields) (r l : Nat) : Nat := i.b.at f.wide r l % 2 ^ 32

/-- What each lane of an instruction writes, and flags: lanes row by row. Slots move as raw bits: a NaN or infinity moved is not changed and
sets no flag (04 R134; log entry 56). -/
def perLane (u : VUse) (f : VFields) (i : VIn) (g : Nat → Nat → Option (Nat × Nat × Nat) × Nat) (d : Dev) : Dev :=
  let o := f.rowList.foldl (fun o r => (List.range (lanesOf f.wide i.x.vl)).foldl (fun (o : List (Nat × Nat × Nat) × Nat) l =>
    let v := g r l
    (o.1 ++ v.1.toList, o.2 ||| v.2)) o) (([] : List (Nat × Nat × Nat)), 0)
  vecFlags u o.2 (putTile u.group f.dst f.wide o.1 d)

/-- PERM: SRC_A[r][x], zero and RNG beyond the vector length (04 R134, R135). -/
def permLane (f : VFields) (i : VIn) (r l : Nat) : Option (Nat × Nat × Nat) × Nat :=
  let x := i.idx f r l
  if x < lanesOf f.wide i.x.vl then (some (r, l, i.a.at f.wide r x), 0) else (some (r, l, 0), fRNG)

/-- CGATH: SRC_A[ROW0 + x][l], zero and RNG beyond the rows (04 R134, R135). -/
def cgathLane (f : VFields) (i : VIn) (r l : Nat) : Option (Nat × Nat × Nat) × Nat :=
  let x := i.idx f r l
  if x < f.rowsM1 + 1 then (some (r, l, i.a.at f.wide (f.row0 + x) l), 0) else (some (r, l, 0), fRNG)

/-- SCAT: DST[r][x] takes SRC_A[r][l]; later lanes win; RNG drops (04 R134, R135). -/
def scatLane (f : VFields) (i : VIn) (r l : Nat) : Option (Nat × Nat × Nat) × Nat :=
  let x := i.idx f r l
  if x < lanesOf f.wide i.x.vl then (some (r, x, i.a.at f.wide r l), 0) else (none, fRNG)

/-- SCATADD: lanes add into DST[r][x] in ascending order, each addition rounded (04 R134, R135). -/
def scatAdd (u : VUse) (f : VFields) (i : VIn) (d : Dev) : Dev :=
  let t0 := (i.g.bufs[f.dst]?).getD []
  let o := f.rowList.foldl (fun o r => (List.range (lanesOf f.wide i.x.vl)).foldl (fun (o : Sparse 32 × Nat) l =>
    let x := i.idx f r l
    if x < lanesOf f.wide i.x.vl then
      let v := lane2 f Num.add (fun a b => a + b) (slotGet f.wide o.1 r x) (i.a.at f.wide r l) 0
      (slotPut f.wide o.1 r x v.code, o.2 ||| v.flags)
    else (o.1, o.2 ||| fRNG)) o) (t0, 0)
  vecFlags u o.2 (modGroup u.group (fun g => { g with bufs := modAt (fun _ => o.1) f.dst g.bufs }) d)

/-- XPOSE: the whole 128 x 128 tile (04 R134). -/
def xposeDev (u : VUse) (f : VFields) (i : VIn) (d : Dev) : Dev :=
  putTile u.group f.dst false
    ((List.range 128).flatMap fun j => (List.range 128).map fun r => (j, r, i.a.at false r j)) d

/-! ## Top-k (04 R136, R137) -/

/-- Value `a` ranks before value `b`: smaller, or larger when `big` (04 R136). -/
def selBefore (f : VFields) (big : Bool) (a b : Nat) : Bool :=
  let lt (a b : Nat) : Bool := if f.type = 2 then decide (s32 a < s32 b) else (fp32.decode a).lt (fp32.decode b)
  if big then lt b a else lt a b

/-- Candidate `p` = (value, index) ranks before `q`; equal values go by the lower index (04 R137). -/
def candBefore (f : VFields) (big : Bool) (p q : Nat × Nat) : Bool :=
  selBefore f big p.1 q.1 || (!selBefore f big q.1 p.1 && decide (p.2 < q.2))

/-- Enters a candidate into a ranked list. -/
def selInsert (f : VFields) (big : Bool) (p : Nat × Nat) : List (Nat × Nat) → List (Nat × Nat)
  | [] => [p]
  | q :: t => if candBefore f big p q then p :: q :: t else q :: selInsert f big p t

/-- The value of an empty place (04 R137). -/
def selEmpty (f : VFields) (big : Bool) : Nat :=
  if f.type = 2 then (if big then 0x80000000 else 0x7FFFFFFF) else (if big then 0xFF800000 else 0x7F800000)

/-- A NaN is never entered (04 R137). -/
def selNan (f : VFields) (w : Nat) : Bool := f.type ≠ 2 && fp32.decode w = .nan

/-- The merged list of one segment of row `r`: values in slots from 32 s, indices 64 above (04 R137). -/
def selSeg (f : VFields) (big : Bool) (i : VIn) (r s : Nat) (lanes : List Nat) : List (Nat × Nat × Nat) :=
  let k := f.imm % 64 + 1
  let t := (i.g.bufs[f.dst]?).getD []
  let base := i.x.word false f.scal
  let old := if bit f.imm 7 then [] else
    (List.range k).map fun j => (slotGet false t r (32 * s + j), slotGet false t r (64 + 32 * s + j))
  let new := lanes.map fun l => (i.a.at false r l, (base + l) % 2 ^ 32)
  let cs := ((old ++ new).filter fun c => !selNan f c.1).foldl (fun acc c => selInsert f big c acc) []
  (List.range k).flatMap fun j =>
    let c := (cs[j]?).getD (selEmpty f big, 2 ^ 32 - 1)
    [(r, 32 * s + j, c.1), (r, 64 + 32 * s + j, c.2)]

/-- A SEL instruction; it sets no flag (04 R137). -/
def selDev (u : VUse) (f : VFields) (big : Bool) (i : VIn) (d : Dev) : Dev :=
  let vl := i.x.vl
  putTile u.group f.dst false (f.rowList.flatMap fun r =>
    if bit f.imm 6 then
      selSeg f big i r 0 (List.range (min vl 64)) ++ selSeg f big i r 1 ((List.range vl).filter fun l => decide (64 ≤ l))
    else selSeg f big i r 0 (List.range vl)) d

/-! ## The commands -/

/-- A RED instruction as a command (04 R131, R132). -/
def execRed (op : Nat) (u : VUse) (f : VFields) (k : RedOp) (s : State) : Out := onRead (onVec 2 op u f (redForm op f) (reduce u f k)) s
/-- A PERM instruction as a command (04 R134). -/
def execPermOp (op : Nat) (u : VUse) (f : VFields) (body : VIn → Dev → Dev) (s : State) : Out :=
  onRead (onVec 3 op u f (permForm op f) body) s
/-- A SEL instruction as a command (04 R136). -/
def execSel (op : Nat) (u : VUse) (f : VFields) (big : Bool) (s : State) : Out := onRead (onVec 4 op u f (selForm op f) (selDev u f big)) s

/-- SUM (04 R131). -/
def execSum (u : VUse) (f : VFields) (s : State) : Out := execRed 0 u f .sum s
/-- SUMSQ (04 R131). -/
def execSumsq (u : VUse) (f : VFields) (s : State) : Out := execRed 1 u f .sumsq s
/-- RED MAX (04 R131). -/
def execRedMax (u : VUse) (f : VFields) (s : State) : Out := execRed 2 u f .max s
/-- RED MIN (04 R131). -/
def execRedMin (u : VUse) (f : VFields) (s : State) : Out := execRed 3 u f .min s
/-- AMAX (04 R131). -/
def execAmax (u : VUse) (f : VFields) (s : State) : Out := execRed 4 u f .amax s
/-- PERM (04 R134). -/
def execPerm (u : VUse) (f : VFields) (s : State) : Out :=
  execPermOp 0 u f (fun i => perLane u f i (permLane f i)) s
/-- SCAT (04 R134). -/
def execScat (u : VUse) (f : VFields) (s : State) : Out :=
  execPermOp 1 u f (fun i => perLane u f i (scatLane f i)) s
/-- SCATADD (04 R134). -/
def execScatadd (u : VUse) (f : VFields) (s : State) : Out := execPermOp 2 u f (scatAdd u f) s
/-- CGATH (04 R134). -/
def execCgath (u : VUse) (f : VFields) (s : State) : Out :=
  execPermOp 3 u f (fun i => perLane u f i (cgathLane f i)) s
/-- RBCAST (04 R134). -/
def execRbcast (u : VUse) (f : VFields) (s : State) : Out :=
  execPermOp 4 u f (fun i => perLane u f i fun r l => (some (r, l, i.a.at f.wide (f.imm % 128) l), 0)) s
/-- CBCAST: column IMM[6:0] is read whatever VL is (04 R134; log entry 56). -/
def execCbcast (u : VUse) (f : VFields) (s : State) : Out :=
  execPermOp 5 u f (fun i => perLane u f i fun r l => (some (r, l, i.a.at f.wide r (f.imm % 128)), 0)) s
/-- XPOSE (04 R134). -/
def execXpose (u : VUse) (f : VFields) (s : State) : Out := execPermOp 6 u f (xposeDev u f) s
/-- SEL, smallest (04 R137). -/
def execSelSmallest (u : VUse) (f : VFields) (s : State) : Out := execSel 0 u f false s
/-- SEL, largest (04 R137). -/
def execSelLargest (u : VUse) (f : VFields) (s : State) : Out := execSel 1 u f true s

end Sys2Proof.Machine
end

