-- ==== Sys2Proof/Machine/Kernels.lean ====
section
/-! DEFINITION. Matrix and vector arithmetic on codes, as the root service and the solvers run it on arrays and vector units (02 R52, R53;
04 R126, R127, R133), and the roots of damped factor blocks (05 R177 to R179). -/

namespace Sys2Proof.Machine

/-! ## Vector arithmetic -/

/-- Fields of an instruction of TYPE FP64 when `wide`, else FP32: round to nearest, subnormals kept. -/
def typeOf (wide : Bool) : VFields := ⟨if wide then 1 else 0, 0, 0, 0, 0, false, false, false, 0, 0, 0, 0⟩

/-- An operation of one operand (04 R126). -/
def op1 (wide : Bool) (f : Num → Num × Nat) (a : Nat) : Nat := (fp1 (typeOf wide) f a).code

/-- An operation of two operands (04 R126). -/
def op2 (wide : Bool) (f : Num → Num → Num × Nat) (a b : Nat) : Nat := (fp2 (typeOf wide) f a b).code

/-- An operation of three operands (04 R126). -/
def op3 (wide : Bool) (f : Num → Num → Num → Num × Nat) (a b c : Nat) : Nat := (fp3 (typeOf wide) f a b c).code

/-- The code of an exact value in FP64 when `wide`, else FP32. -/
def codeIn (wide : Bool) (x : Num) : Nat := ((typeOf wide).fmt.ieee false false x).code

/-- An FP32 code widened to FP64 (02 R56). -/
def widen (w : Nat) : Nat := codeIn true (fp32.decode w)

/-- An FP64 code rounded to FP32. -/
def narrow (w : Nat) : Nat := codeIn false (fp64.decode w)

/-- −a. -/
def negCode (wide : Bool) (a : Nat) : Nat := op1 wide (fun x => (x.neg, 0)) a

/-- The sum of values by the fixed tree; +0 of none (04 R133). -/
def sumTree (wide : Bool) (xs : List Nat) : Nat :=
  match tree (op2 wide Num.add) 64 xs with
  | x :: _ => x
  | [] => 0

/-- The products of two vectors, summed by the fixed tree (04 R131, R133). -/
def dotTree (wide : Bool) (xs ys : List Nat) : Nat := sumTree wide (List.zipWith (op2 wide Num.mul) xs ys)

/-- The 2-norm of a vector: squares, fixed tree, square root (04 R131, R133). -/
def normTree (wide : Bool) (xs : List Nat) : Nat := op1 wide Num.sqrt (dotTree wide xs xs)

/-! ## Matrices, as lists of rows of codes -/

/-- The transpose of an n by n matrix. -/
def transpose (n : Nat) (a : Block2) : Block2 := (List.range n).map fun j => (List.range n).map fun i => entry a i j

/-- An n by n matrix by its entries. -/
def matOf (n : Nat) (f : Nat → Nat → Nat) : Block2 := (List.range n).map fun i => (List.range n).map (f i)

/-- An n by n matrix from another, entry by entry. -/
def matMap (f : Nat → Nat → Nat → Nat) (a : Block2) : Block2 := a.zipIdx.map fun r => r.1.zipIdx.map fun w => f r.2 w.2 w.1

/-- One element of an FP32 GEMM: a chain of fused multiply-adds in XF32 in ascending K, drained to FP32 (02 R52, R53). -/
def macChain (xs ys : List Nat) : Nat :=
  let acc := (xs.zip ys).foldl (fun acc p => (xf32 ((fp32.decode p.1).fma (fp32.decode p.2) acc).1).1) (Num.zero false)
  (convOne 0 .rne false false true acc).code

/-- A · Bᵀ on the arrays: rows against rows (02 R53). -/
def gemmT (a bt : Block2) : Block2 := a.map fun r => bt.map (macChain r)

/-- A · B of n by n matrices on the arrays (02 R53). -/
def gemm (n : Nat) (a b : Block2) : Block2 := gemmT a (transpose n b)

/-! ## Damping (05 R177) -/

/-- p, from POW (05 R173). -/
def rootPow (r : RootRec) : Nat := if r.pow = 0 then 1 else if r.pow = 1 then 2 else 4

/-- λ: LAMBDA_ABS + LAMBDA_REL × tr(F) / n, the trace by the fixed tree (05 R177; log entry 59). -/
def rootLambda (r : RootRec) (f : Block2) : Nat :=
  let tr := sumTree false ((List.range f.length).map fun i => entry f i i)
  op2 false Num.add r.lamAbs.toNat (op2 false Num.div (op2 false Num.mul r.lamRel.toNat tr) (codeIn false (.ofInt f.length)))

/-- A = F + λI (05 R177). -/
def damped (lam : Nat) (f : Block2) : Block2 := matMap (fun i j w => if i = j then op2 false Num.add w lam else w) f

/-! ## Coupled Newton (05 R177) -/

/-- a · 2^e is at most b · 2^k. -/
def leDyadic (a : Nat) (e : Int) (b : Nat) (k : Int) : Bool :=
  if e ≤ k then decide (a ≤ b * 2 ^ (k - e).toNat) else decide (a * 2 ^ (e - k).toNat ≤ b)

/-- The starting scale: q = ⌈log2(2‖A‖ / (p + 1)) / p⌉, from the FP32 norm; 0 for a norm that is zero or not finite (05 R177). -/
def newtonScale (p : Nat) (norm : Nat) : Int :=
  match fp32.decode norm with
  | .fin _ (m + 1) e =>
    let k0 : Int := topExp (m + 1) e - 3
    let up : Nat := ((List.range 8).find? fun (i : Nat) => leDyadic (2 * (m + 1)) e (p + 1) (k0 + (i : Int))).getD 8
    Int.neg (Int.neg (k0 + (up : Int)) / (p : Int))
  | _ => 0

/-- One iteration on (X, M) (05 R177). -/
def newtonStep (p n : Nat) (s : Block2 × Block2) : Block2 × Block2 :=
  let c (k : Nat) : Nat := codeIn false (.ofInt k)
  let inv := codeIn false (.fin false 1 (if p = 1 then 0 else if p = 2 then -1 else -2))
  let t := matMap (fun i j w => op2 false Num.mul (op2 false (fun a b => a.add b.neg) (if i = j then c (p + 1) else 0) w) inv) s.2
  let x := gemm n s.1 t
  if p = 1 then (x, gemm n t s.2)
  else
    let t2 := gemm n t t
    if p = 2 then (x, gemm n t2 s.2) else (x, gemm n (gemm n t2 t2) s.2)

/-- `k` iterations. -/
def newtonLoop (p n : Nat) : Nat → Block2 × Block2 → Block2 × Block2
  | 0, s => s
  | k + 1, s => newtonLoop p n k (newtonStep p n s)

/-- X and M of the coupled Newton method after `iter` iterations (05 R177). -/
def newtonRoot (p iter : Nat) (a : Block2) : Block2 × Block2 :=
  let n := a.length
  let q := newtonScale p (normTree false a.flatten)
  let x := matOf n fun i j => if i = j then codeIn false (.fin false 1 (-q)) else 0
  let m := matMap (fun _ _ w => codeIn false ((fp32.decode w).mul (.fin false 1 (-((p : Int) * q)))).1) a
  newtonLoop p n iter (x, m)

/-! ## Cholesky (05 R177; log entry 59) -/

/-- A factored diagonal block: its factor, the inverse of that, and the pivots substituted. -/
structure Chol where
  l : Block2
  inv : Block2
  count : Nat

/-- The entries on and below the diagonal. -/
def lower (a : Block2) : Block2 := matMap (fun i j w => if j ≤ i then w else 0) a

/-- CHOL and TRINV of one block with threshold `lam` (04 R138; 05 R177, R178). -/
def cholBlock (lam : Nat) (a : Block2) : Chol :=
  let f := typeOf false
  let c := pivBlock f .chol a.length (thresh f lam) a
  let t := pivBlock f .trinv a.length (thresh f lam) c.a
  ⟨lower c.a, lower t.a, c.count + t.count⟩

/-- Tiles of a matrix by block row and block column. -/
abbrev Tiles := List ((Nat × Nat) × Block2)

/-- Tile (i, j). -/
def Tiles.at (t : Tiles) (i j : Nat) : Block2 := ((t.find? fun x => x.1 = (i, j)).map Prod.snd).getD []

/-- The 128-tiles of a matrix. -/
def tilesOf (k : Nat) (a : Block2) : Tiles :=
  (List.range k).flatMap fun i => (List.range k).map fun j =>
    ((i, j), ((a.drop (128 * i)).take 128).map fun r => (r.drop (128 * j)).take 128)

/-- A panel-wise factorisation under way: the trailing tiles, the tiles of L, the inverted diagonal blocks, the pivots substituted. -/
structure Panels where
  a : Tiles
  l : Tiles
  inv : List Block2
  count : Nat

/-- Entry-wise difference of two tiles in FP32. -/
def subTile (a b : Block2) : Block2 := List.zipWith (List.zipWith (op2 false fun x y => x.add y.neg)) a b

/-- Panel `j` of `k`: the diagonal block, the column below it, and the trailing update (05 R177). -/
def panelStep (k lam : Nat) (s : Panels) (j : Nat) : Panels :=
  let c := cholBlock lam (s.a.at j j)
  let col := ((List.range k).filter (j < ·)).map fun i => (i, gemmT (s.a.at i j) c.inv)
  let a := col.flatMap fun x => (col.filter fun y => y.1 ≤ x.1).map fun y => ((x.1, y.1), subTile (s.a.at x.1 y.1) (gemmT x.2 y.2))
  ⟨a, s.l ++ ((j, j), c.l) :: col.map (fun x => ((x.1, j), x.2)), s.inv ++ [c.inv], s.count + c.count⟩

/-- Tiles side by side, row by row. -/
def beside (ts : List Block2) : Block2 := (List.range 128).map fun r => ts.flatMap fun t => (t[r]?).getD []

/-- Column `j` of L⁻¹, tile by tile downwards (05 R177; log entry 59). -/
def invColumn (k : Nat) (p : Panels) (j : Nat) : List (Nat × Block2) :=
  ((List.range k).filter (j ≤ ·)).foldl (fun (o : List (Nat × Block2)) i =>
    if i = j then [(j, (p.inv[j]?).getD [])]
    else
      let s := gemmT (beside (o.map fun x => p.l.at i x.1)) (beside (o.map fun x => transpose 128 x.2))
      o ++ [(i, matMap (fun _ _ w => negCode false w) (gemm 128 ((p.inv[i]?).getD []) s))]) []

/-- X = L⁻ᵀ · L⁻¹ of the tiles of L⁻¹: the upper triangle, mirrored (05 R177). -/
def invProduct (k : Nat) (cols : List (List (Nat × Block2))) : Block2 :=
  let t (i j : Nat) : Block2 := (((cols[j]?).getD []).find? fun x => x.1 = i).elim [] Prod.snd
  let up : Tiles := (List.range k).flatMap fun i => ((List.range k).filter (i ≤ ·)).map fun j =>
    let ks := (List.range k).filter (j ≤ ·)
    ((i, j), gemmT (beside (ks.map fun m => transpose 128 (t m i))) (beside (ks.map fun m => transpose 128 (t m j))))
  matOf (128 * k) fun i j =>
    if i / 128 ≤ j / 128 then entry (up.at (i / 128) (j / 128)) (i % 128) (j % 128)
    else entry (up.at (j / 128) (i / 128)) (j % 128) (i % 128)

/-- A⁻¹ by Cholesky, and the pivots substituted: a block of up to 128 whole, a larger one in panels of 128 (05 R177). -/
def cholRoot (lam : Nat) (a : Block2) : Block2 × Nat :=
  let n := a.length
  if n ≤ 128 then
    let c := cholBlock lam a
    (gemm n (transpose n c.inv) c.inv, c.count)
  else
    let k := n / 128
    let p := (List.range k).foldl (panelStep k lam) ⟨tilesOf k a, [], [], 0⟩
    (invProduct k ((List.range k).map (invColumn k p)), p.count)

/-! ## The check (05 R179) -/

/-- The probe vector: the sign of element i is bit 0 of its draw on stream 8191 (05 R179). -/
def probe (seed step ctx n : Nat) : List Nat :=
  (List.range n).map fun i => codeIn true (.fin (bit (drawFor ⟨seed, step, ctx, 8191⟩ i) 0) 1 0)

/-- A matrix-vector product in FP64, each row by the fixed tree (05 R179). -/
def matVec (a : Block2) (v : List Nat) : List Nat := a.map fun r => dotTree true r v

/-- a − b of vectors in FP64. -/
def subVec (a b : List Nat) : List Nat := List.zipWith (op2 true fun x y => x.add y.neg) a b

/-- ρ of a root X of A, M being Newton's companion: rounded to FP32 (05 R179). -/
def rootResid (p : Nat) (a x : Block2) (m : Option Block2) (v : List Nat) : W32 :=
  let wide (t : Block2) : Block2 := t.map (·.map widen)
  let y := (List.range p).foldl (fun y _ => matVec (wide x) y) (matVec (wide a) v)
  let rv := op2 true Num.div (normTree true (subVec y v)) (normTree true v)
  let rm := m.map fun m =>
    op2 true Num.div (normTree true (matMap (fun i j w => op2 true (fun a b => a.add b.neg) (widen w) (codeIn true (.ofInt (ofBool (i = j))))) m).flatten)
      (op1 true Num.sqrt (codeIn true (.ofInt m.length)))
  BitVec.ofNat 32 (narrow (match rm with
    | some z => op2 true (fun a b => (a.max b, 0)) rv z
    | none => rv))

/-- A computed root: its elements, ρ, and the pivots its factorisation substituted (05 R177 to R180). -/
structure RootOut where
  x : Block2
  resid : W32
  pivs : Nat

/-- The root of a source copy under a record; `v` is the probe vector (05 R177 to R179). -/
def rootOf (r : RootRec) (f : Block2) (v : List Nat) : RootOut :=
  let lam := rootLambda r f
  let a := damped lam f
  if r.chol then
    let c := cholRoot lam a
    ⟨c.1, rootResid 1 a c.1 none v, c.2⟩
  else
    let s := newtonRoot (rootPow r) r.iter a
    ⟨s.1, rootResid (rootPow r) a s.1 (some s.2) v, 0⟩

end Sys2Proof.Machine
end

