-- ==== Sys2Proof/Machine/VecMove.lean ====
section
/-! DEFINITION. Moves between tile buffers and memory, control instructions, vector blocks, and the parity repairs of vector
units and tile queues (04 R115, R144 to R154). -/

namespace Sys2Proof.Machine

/-! ## Moves (04 R144 to R146) -/

/-- A MOVE of good form that only reads memory; it takes two words, and one that waits changes nothing. -/
def onVecRead (op : Nat) (u : VUse) (f : VFields) (ext : W64) (form : Bool) (body : VIn → Mem → Dev → Dev) (m : Mem) (d : Dev) : Dev :=
  match vecIn m d u 6 op f (some ext) with
  | some i => if form then vecNext u 2 (body i m d) else d
  | none => d

/-- STRIDE of an extension word, in bytes; 0 when rows are packed (04 R145). -/
def extPitch (ext : W64) : Nat := bits ext.toNat 63 48 * 16

/-- ADDR of an extension word (04 R145). -/
def extAddr (ext : W64) : Nat := ext.toNat % 2 ^ 48

/-- Row pitch of a move whose rows are `n` bytes wide. -/
def movePitch (ext : W64) (n : Nat) : Nat := if extPitch ext = 0 then n else extPitch ext

/-- Reads byte strings in turn for a slot of the step. -/
def readRows (m : Mem) : List (Nat × Nat) → Dev → List (List Byte) × Dev
  | [], d => ([], d)
  | p :: t, d =>
    let r := readSlot m d p.1 p.2
    let q := readRows m t r.2
    (r.1 :: q.1, q.2)

/-- Element `l` of `w` bytes in a row of bytes. -/
def rowElem (bs : List Byte) (w l : Nat) : Nat := leNat ((bs.drop (l * w)).take w)

/-- The code that an element of format `src` widens to in TYPE; one of TYPE's own format moves as it is, and none sets a flag (04 R144;
log entry 56). -/
def widenCode (f : VFields) (src w : Nat) : Nat :=
  if src = f.code then w
  else if f.type = 2 then ofSInt 32 (sext 8 w)
  else (f.fmt.ieee false false (decodeAs src w)).code

/-- LD (04 R144). -/
def ldDev (f : VFields) (ext : W64) (u : VUse) (i : VIn) (m : Mem) (d : Dev) : Dev :=
  let n := lanesOf f.wide i.x.vl
  let src := f.imm % 16
  let a := extAddr ext
  if src = 6 && i.x.vl % 32 ≠ 0 then d
  else if src = 6 then
    let pitch := movePitch ext (i.x.vl / 2)
    let xs := readRows m ((List.range (f.rowsM1 + 1)).map fun k => (a + k * pitch, n / 2)) d
    let bxs := readRows m ((List.range (f.rowsM1 + 1)).map fun k => (a + (f.rowsM1 + 1) * pitch + k * (i.x.vl / 32), n / 32)) xs.2
    let ws := (xs.1.zip bxs.1).zipIdx.flatMap fun r => (List.range n).map fun l =>
      let code := rowElem r.1.1 1 (l / 2) / (if l % 2 = 0 then 1 else 16) % 16
      (f.row0 + r.2, l, (fp64.ieee false false (fp4Value code (rowElem r.1.2 1 (l / 32)))).code)
    putTile u.group f.dst true ws bxs.2
  else
    let w := fmtBits src / 8
    let pitch := movePitch ext (n * w)
    let xs := readRows m ((List.range (f.rowsM1 + 1)).map fun k => (a + k * pitch, n * w)) d
    let ws := xs.1.zipIdx.flatMap fun r => (List.range n).map fun l => (f.row0 + r.2, l, widenCode f src (rowElem r.1 w l))
    putTile u.group f.dst f.wide ws xs.2

/-- The bytes of one row of an ST of a format other than FP4, and flags (04 R144). -/
def stRow (f : VFields) (i : VIn) (k : DrawKey) (w : DrawIn) (sc : W32) (n row : Nat) : List Nat × Nat :=
  let cs := (List.range n).map fun l => i.a.at f.wide (f.row0 + row) l
  if ncwDst f.imm = f.code then (cs, 0)
  else convRow f.imm f.code sc (fun l => ncwRule f.imm k (w.base + row * w.pitch + l)) (cs.map (slotValue f.imm f.code))

/-- What an ST writes: byte strings by address, and flags (02 R46; 04 R144). -/
def stWrites (f : VFields) (ext : W64) (w : DrawIn) (i : VIn) (sc : W32) (k : DrawKey) : List (Nat × List Byte) × Nat :=
  let n := lanesOf f.wide i.x.vl
  let a := extAddr ext
  let rows := List.range (f.rowsM1 + 1)
  let dst := ncwDst f.imm
  if dst = 6 then
    let pitch := movePitch ext (i.x.vl / 2)
    rows.foldl (fun o r =>
      let c := stRow f i k w sc n r
      let els := (List.range (n / 2)).map fun j =>
        BitVec.ofNat 8 ((c.1[2 * j]?).getD 0 % 16 + (c.1[2 * j + 1]?).getD 0 % 16 * 16)
      let bxs := (List.range (n / 32)).map fun j => BitVec.ofNat 8 ((c.1[32 * j]?).getD 0 / 2 ^ 24)
      (o.1 ++ [(a + r * pitch, els), (a + (f.rowsM1 + 1) * pitch + r * (i.x.vl / 32), bxs)], o.2 ||| c.2))
      (([] : List (Nat × List Byte)), scaleFlag f.imm sc)
  else
    let b := fmtBits dst / 8
    let pitch := movePitch ext (n * b)
    rows.foldl (fun o r =>
      let c := stRow f i k w sc n r
      (o.1 ++ [(a + r * pitch, c.1.flatMap (leBytes b))], o.2 ||| c.2))
      (([] : List (Nat × List Byte)), if dst = f.code then 0 else scaleFlag f.imm sc)

/-- Writes byte strings in turn for a slot of the step. -/
def writeRows : List (Nat × List Byte) → Mem → Dev → Mem × Dev
  | [], m, d => (m, d)
  | p :: t, m, d => let r := writeSlot m d p.1 p.2; writeRows t r.1 r.2

/-- The vector block waits on a HELD copy (11 R340). -/
def holdBlock (i : VIn) (d : Dev) : Dev :=
  match i.x.blocks.head? with
  | some b => holdSlot b.1 d
  | none => d

/-- The values that an ST stores (02 R49; 04 R144). -/
def stValues (f : VFields) (i : VIn) : List Num :=
  f.rowList.flatMap fun r => (List.range (lanesOf f.wide i.x.vl)).map fun l => (slotValue f.imm f.code (i.a.at f.wide r l)).1

/-- ST, whose write waits while it would reach a HELD copy; the amax of a narrow tensor is recorded (02 R49; 04 R144; 11 R340). -/
def stDev (u : VUse) (f : VFields) (ext : W64) (w : DrawIn) (m : Mem) (d : Dev) : Mem × Dev :=
  match vecIn m d u 6 1 f (some ext) with
  | none => (m, d)
  | some i =>
    if !stForm f ext || (ncwDst f.imm = 6 && i.x.vl % 32 ≠ 0) || probeStream f.imm w.stream then (m, d)
    else
      let o := stWrites f ext w i (narrowScale d w.amax (i.scale f)) (vecKey d u.ctx w.stream)
      if o.1.any (fun p => heldWrite d p.1 p.2.length) then (m, holdBlock i d)
      else
        let r := writeRows o.1 m (recordAmax w.amax (ncwDst f.imm) (stValues f i) d)
        (r.1, vecNext u 2 (vecFlags u o.2 r.2))

/-- LDS (04 R144). -/
def ldsDev (u : VUse) (f : VFields) (ext : W64) (m : Mem) (d : Dev) : Dev :=
  let x := readWords m 8 ((List.range (f.imm % 32 + 1)).map fun k => extAddr ext + 8 * k) d
  x.1.zipIdx.foldl (fun d w => putScal u (f.scal + w.2) w.1 d) x.2

/-- GATH: elements of a table by index; zero and RNG beyond EXTENT (04 R144, R146). -/
def gathDev (u : VUse) (f : VFields) (ext : W64) (i : VIn) (m : Mem) (d : Dev) : Dev :=
  let extent := bits ext.toNat 63 40
  let base := ext.toNat % 2 ^ 40
  let w := if f.wide then 8 else 4
  let ps := f.rowList.flatMap fun r => (List.range (lanesOf f.wide i.x.vl)).map fun l => (r, l, i.b.at f.wide r l % 2 ^ 32)
  let o := ps.foldl (fun (o : (List (Nat × Nat × Nat) × Nat) × Dev) p =>
    if p.2.2 < extent then
      let v := readSlot m o.2 (base + p.2.2 * w) w
      ((o.1.1 ++ [(p.1, p.2.1, leNat v.1)], o.1.2), v.2)
    else ((o.1.1 ++ [(p.1, p.2.1, 0)], o.1.2 ||| fRNG), o.2)) (([], 0), d)
  vecFlags u o.1.2 (putTile u.group f.dst f.wide o.1.1 o.2)

/-! ## Control (04 R115, R148, R150) -/

/-- SETVL: VL takes IMM[7:0] (04 R148). -/
def setVl (u : VUse) (f : VFields) : Dev → Dev := modCtx u fun x => { x with vl := f.imm % 256 }

/-- POP: the release takes effect at the end of the block (04 R115). -/
def popDev (u : VUse) (f : VFields) : Dev → Dev := modCtx u fun x => { x with pops := x.pops + f.imm % 16 }

/-- CKPT ends the current vector block; words of the slot after it are dropped (04 R150; log entry 56). -/
def ckptDev (u : VUse) (f : VFields) (m : Mem) (d : Dev) : Dev :=
  match vecIn m d u 7 2 f none with
  | some _ => if ctrlForm 2 f then endBlock u d else d
  | none => d

/-- A corrected scalar or instruction word of a vector unit: counted, CORRECTED, one event against class 2 (04 R149; 13 R383 to R385). -/
def scalarCorrect (g : Nat) (d : Dev) : Dev :=
  bucketJoin 2 (160 + g) (fault [⟨clsCorrected, 0x01, 0x0D04, g, 0, false⟩] { d with integ := { d.integ with corr := satAdd d.integ.corr 1 } })

/-- A scalar or instruction word that cannot be corrected: a contained data error; a scalar word reads as zero (04 R149; 13 R387). -/
def scalarLoss (u : VUse) (w : Nat) (d : Dev) : Dev :=
  let d := modCtx u (fun x => { x with scal := x.scal.set w 0 }) d
  cde 3 (repair ⟨0x02, u.group, u.group, 2, 0, w, 0xFF, 0, 0, 0⟩ (countUe 1 (newFault d)))

/-- What the code finds in the scalar bank and the instruction words of a vector block (04 R149). -/
def scalarErrors (u : VUse) (c : EccFind) (d : Dev) : Dev :=
  c.ue.foldl (fun d w => scalarLoss u w d) (c.ce.foldl (fun d _ => scalarCorrect u.group d) d)

/-- VBLOCK_SLOT: a vector block becomes issuable for its context (04 R149, R150; 07 R224). -/
def vblockIssue (scalar : EccFind) (run : Run) (s : Slot) (d : Dev) : Dev :=
  let u : VUse := ⟨s.stream - 200, s.ctx⟩
  scalarErrors u scalar (modCtx u (fun x => { x with blocks := x.blocks ++ [(s.seq, run.addr + s.payload, s.arg)] }) d)

/-! ## Parity and repair (04 R149 to R154) -/

/-- The spar group leaves service: one spar group, one vector unit, one tile queue, four main arrays and one Gram array fewer;
DEGRADED, and event 0x3 follows (04 R154; 07 R238). -/
def groupLost (g : Nat) (reps : List Rep) (d : Dev) : Dev :=
  let d := { d with gpwr := modAt (fun p => { p with absent := true }) g d.gpwr }
  let d := modGroup g (fun gr => { gr with gramAbsent := true, waiting := [] }) d
  let d := (List.range 4).foldl (fun d k => modArr (4 * g + k) (fun x => { x with absent := true, passes := [] }) d) d
  loss (reps ++ [⟨clsDegraded, 0x01, 0xFFFF, g, g, false⟩]) 3 g d

/-- The report of a parity failure of a vector unit or tile queue (04 R151, R152). -/
def vecCorrected (g : Nat) : Rep := ⟨clsCorrected, 0x01, 0x0D10, g, 0, false⟩

/-- Counts a parity restart against its bucket region (13 R385, R395). -/
def vecParity (g : Nat) (d : Dev) : Dev := bucketJoin 4 g { d with integ := { d.integ with parReplay := satAdd d.integ.parReplay 1 } }

/-- The block of a context starts again from its first instruction, with VL and the scalar words that it found (04 R151; log entry 56). -/
def restartBlock (u : VUse) : Dev → Dev :=
  modCtx u fun x => { x with pos := 0, pops := 0, pivs := 0, vl := x.start.1, scal := x.start.2 }

/-- Row `row` of KIND `kind` passed its test and its repair is not complete (04 R153). -/
def isMending (d : Dev) (u : VUse) (kind row : Nat) : Bool :=
  ((d.groups[u.group]?).map fun g => g.mending.contains (u.ctx, kind, row)).getD false

/-- Notes that a row which passed its test is being rebuilt, until the context's block ends (04 R153). -/
def mend (u : VUse) (kind row : Nat) : Dev → Dev :=
  modGroup u.group fun g => { g with mending := g.mending.filter (· ≠ (u.ctx, kind, row)) ++ [(u.ctx, kind, row)] }

/-- The row test of R153 and what follows: a row that fails it, or that passed it and fails parity again during that repair, moves to
one of 16 spares, DEGRADED after the CORRECTED report; without a spare the group leaves service. `kind` is the KIND of R394, `used` the
spares used, `take` takes one (04 R151 to R154). -/
def rowRepair (u : VUse) (kind row used : Nat) (failed : Bool) (take : Group → Group) (d : Dev) : Dev :=
  let g := u.group
  let rowBad := failed || isMending d u kind row
  let addr (action left : Nat) : Repair := ⟨kind, g, g, 2, action, row, 0xFF, left, 0, 0⟩
  if !rowBad then mend u kind row (restartBlock u (vecParity g (fault [vecCorrected g] d)))
  else if used < 16 then
    let d := fault [vecCorrected g, ⟨clsDegraded, 0x0A, 0xFFFF, g, row, false⟩] (modGroup g take d)
    restartBlock u (vecParity g (repair (addr 1 (15 - used)) d))
  else vecParity g (repair (addr 3 0) (groupLost g [vecCorrected g] d))

/-- VECTOR_BLOCK_RESTART: the failing row is tested, which leaves values the manual does not give until the repeated block
rebuilds them, and the block restarts (04 R151, R153; log entry 6). -/
def blockRestart (u : VUse) (buf row : Nat) (rowBad : Bool) (d : Dev) : Dev :=
  match d.groups[u.group]? with
  | none => d
  | some g =>
    if ((d.gpwr[u.group]?).map GroupPwr.absent).getD true || decide (6 ≤ buf) || decide (128 ≤ row) then d
    else
      let v := draw 4096 d
      let d := modGroup u.group (fun g => { g with bufs := modAt (fun t =>
        slotsPut false t ((List.range 128).map fun c => (row, c, bits v.1.toNat (32 * c + 31) (32 * c)))) buf g.bufs }) v.2
      rowRepair u 0x02 (128 * buf + row) g.rowsVu rowBad (fun g => { g with rowsVu := g.rowsVu + 1 }) d

/-- QUEUE_ENTRY_REPLAY: the producing array replays its weight set into the same entry while the spar stalls, and the block
restarts (04 R152, R153). -/
def entryReplay (u : VUse) (q row : Nat) (rowBad : Bool) (m : Mem) (d : Dev) : Dev :=
  match d.groups[u.group]? with
  | none => d
  | some g =>
    match g.position u.ctx q with
    | none => d
    | some e =>
      if ((d.gpwr[u.group]?).map GroupPwr.absent).getD true then d
      else
        let cur := match (d.arrays[e.arr]?).bind fun x => x.passes.head? with
          | some p => replayCycles p.record true p.record.rows
          | none => 0
        let own := match (d.plan.run).bind fun r => (slotOf r e.seq).map fun s => arrRecAt m (r.addr + s.payload) with
          | some r => replayCycles r true r.rows
          | none => 0
        rowRepair u 0x03 (128 * q + row) g.rowsTq rowBad (fun g => { g with rowsTq := g.rowsTq + 1 }) (stall u.group (own + cur) d)

/-! ## The commands -/

/-- LD (04 R144). -/
def execLd (u : VUse) (f : VFields) (ext : W64) (s : State) : Out :=
  onRead (onVecRead 0 u f ext (ldForm f ext) (ldDev f ext u)) s
/-- ST (04 R144). -/
def execSt (u : VUse) (f : VFields) (ext : W64) (w : DrawIn) (s : State) : Out := onBoth (stDev u f ext w) s
/-- LDS (04 R144). -/
def execLds (u : VUse) (f : VFields) (ext : W64) (s : State) : Out :=
  onRead (onVecRead 2 u f ext (ldsForm f ext) fun _ => ldsDev u f ext) s
/-- GATH (04 R146). -/
def execGath (u : VUse) (f : VFields) (ext : W64) (s : State) : Out :=
  onRead (onVecRead 3 u f ext (gathForm f ext) (gathDev u f ext)) s
/-- SETVL (04 R148). -/
def execSetvl (u : VUse) (f : VFields) (s : State) : Out :=
  onRead (onVec 7 0 u f (ctrlForm 0 f) fun _ => setVl u f) s
/-- POP (04 R115). -/
def execPop (u : VUse) (f : VFields) (s : State) : Out :=
  onRead (onVec 7 1 u f (ctrlForm 1 f) fun _ => popDev u f) s
/-- CKPT (04 R150). -/
def execCkpt (u : VUse) (f : VFields) (s : State) : Out := onRead (ckptDev u f) s
/-- NOP of the CTRL class (04 R148). -/
def execCtrlNop (u : VUse) (f : VFields) (s : State) : Out := onRead (onVec 7 3 u f (ctrlForm 3 f) fun _ d => d) s
/-- VBLOCK_SLOT (04 R150). -/
def execVblockSlot (b : VblockIn) (s : State) : Out := onDev (onSlotDev b.seq 2 (vblockIssue b.scalar)) s
/-- VECTOR_BLOCK_RESTART (04 R151). -/
def execVectorBlockRestart (u : VUse) (buf row : Nat) (rowBad : Bool) (s : State) : Out :=
  onDev (blockRestart u buf row rowBad) s
/-- QUEUE_ENTRY_REPLAY (04 R152). -/
def execQueueEntryReplay (u : VUse) (q row : Nat) (rowBad : Bool) (s : State) : Out :=
  onRead (entryReplay u q row rowBad) s

end Sys2Proof.Machine
end

