-- ==== Sys2Proof/Machine/PlanImage.lean ====
section
/-! DEFINITION. A plan set as firmware reads it from its image: header, directory, sections, variants, the records of the
RECORD section, and what the payload of each slot touches (07 R221 to R228, R238 to R245; 08 R246, R261; 09 R280, R283;
10 R311, R315, R325; 11 R334, R335; 12 R359). Every field is little-endian (07 R221). -/

namespace Sys2Proof.Machine

/-- The whole numbers of `n` bytes that follow each other from `a`, `k` of them. -/
def tableAt (m : Mem) (a n k : Nat) : List Nat := (List.range k).map fun i => m.readLE (a + n * i) n

/-! ## Header and directory (07 R221, R222, R240) -/

/-- The plan header at `a` (07 R221). -/
def hdrAt (m : Mem) (a : Nat) : PlanHdr :=
  let h := m.readLE a 128
  { crc := bits h 1023 960, planId := bits h 959 896, seed := bits h 895 832, magic := bits h 831 800
    contract := bits h 799 792, format := bits h 791 784, nVar := bits h 783 768, nArr := bits h 767 752
    nSg := bits h 751 744, nGram := bits h 743 736, nVu := bits h 735 728, nCtx := bits h 727 720
    nBank := bits h 719 712, nTp := bits h 711 704, hbm := bits h 703 656, gon := bits h 655 608
    sram := bits h 607 576, period := bits h 575 544, slipLim := bits h 543 512, stepTo := bits h 511 480
    nRank := bits h 479 448, resvZero := bits h 447 0 = 0 }

/-- A section as directory entries name it: OFFSET and LENGTH (07 R222). -/
abbrev Sect := Nat × Nat

/-- The directory of the primary (07 R222). -/
def dirAt (m : Mem) (a : Nat) : List Sect := (tableAt m (a + 128) 16 16).map fun e => (bits e 127 80, bits e 79 32)

/-- A variant directory entry: VARIANT, SECTION, OFFSET, LENGTH, and its reserved bits (07 R240). -/
structure VarEnt where
  variant : Nat
  sect : Nat
  off : Nat
  len : Nat
  resv : Nat
deriving DecidableEq, Repr

/-- Section `i` of a directory. -/
def sect (dir : List Sect) (i : Nat) : Sect := (dir[i]?).getD (0, 0)

/-- The variant directory (07 R240). -/
def varDirAt (m : Mem) (a : Nat) : List VarEnt :=
  let s := sect (dirAt m a) 10
  (tableAt m (a + s.1) 16 (s.2 / 16)).map fun e => ⟨bits e 127 112, bits e 111 108, bits e 107 60, bits e 59 12, bits e 11 0⟩

/-- The directory of a variant: the primary's with the listed sections replaced (07 R240). -/
def dirFor (m : Mem) (a v : Nat) : List Sect :=
  if v = 0 then dirAt m a
  else
    (varDirAt m a).foldl (fun d e => if e.variant = v then modAt (fun _ => (e.off, e.len)) e.sect d else d) (dirAt m a)

/-- Bytes of the image: up to the end of the last section of the primary or of a variant (07 R221; log entry 27). -/
def imageLen (m : Mem) (a : Nat) : Nat :=
  (((dirAt m a).filter (·.2 ≠ 0)).map (fun s => s.1 + s.2) ++ ((varDirAt m a).filter (·.len ≠ 0)).map (fun e => e.off + e.len)).foldl
    max 384

/-- The bytes of the image with the CRC field read as zero (07 R221). -/
def imageBytes (m : Mem) (a : Nat) : List Byte :=
  m.read a 120 ++ List.replicate 8 0 ++ m.read (a + 128) (imageLen m a - 128)

/-! ## Sections (07 R222 to R228, R238; 08 R246; 09 R280) -/

/-- A slot record (07 R224). -/
def slotOfBits (e : Nat) : Slot :=
  ⟨bits e 255 224, bits e 223 215, bits e 214 211, bits e 210 208, bit e 207, bits e 159 128, bits e 127 96, bits e 95 48,
   bits e 47 16, bits e 15 0⟩

/-- An arbitration entry with its requester list (07 R228). -/
def arbOfBits (m : Mem) (a e : Nat) : Arb :=
  ⟨bits e 127 124, bits e 123 108, bit e 107,
   (tableAt m (a + bits e 47 0) 2 (bits e 95 64)).map fun w => (bits w 15 7, bits w 6 4)⟩

/-- Inserts a slot in ascending SEQ. -/
def insertSlot (s : Slot) : List Slot → List Slot
  | [] => [s]
  | t :: ts => if s.seq < t.seq then s :: t :: ts else t :: insertSlot s ts

/-- Entries of the ARB section: requester lists may follow them within it, from the lowest list offset on (07 R228). -/
def arbsAt (m : Mem) (a : Nat) (s : Sect) : List Arb :=
  let raw := tableAt m (a + s.1) 16 (s.2 / 16)
  let cut := raw.foldl (fun c e =>
    if bits e 95 64 ≠ 0 ∧ s.1 ≤ bits e 47 0 ∧ bits e 47 0 < c then bits e 47 0 else c) (s.1 + s.2)
  (raw.take ((cut - s.1) / 16)).map (arbOfBits m a)

/-- The verdict record (10 R315). -/
def verdictOf (r : Nat) : VerdictRec :=
  ⟨bits r 511 464, bits r 463 452, bits r 451 440, bits r 439 428, bits r 427 396, bits r 395 364, bits r 227 212⟩

/-- The tack record (11 R334). -/
def tackRecOf (r : Nat) : TackRec :=
  ⟨bits r 447 445, bits r 444 429, bits r 428 413, bits r 412 397, bits r 396 381, bits r 380 365, bits r 364 333,
   bits r 332 325, bits r 324 277, bits r 276 229, bits r 228 181, bits r 180 133, bits r 132 85, bits r 84 69, bits r 68 21,
   bits r 20 5⟩

/-- Slots that a two-bit NSLOT code gives (12 R359). -/
def nslot (c : Nat) : Nat := if c = 0 then 0 else c + 1

/-- The weight-view record (12 R359). -/
def viewOf (r : Nat) : ViewRec :=
  ⟨bits r 511 464, bits r 463 416, nslot (bits r 415 414), bits r 411 364, bits r 363 316, nslot (bits r 413 412)⟩

/-- The geometry that a weight-view record gives (12 R359). -/
def geomOf (v : ViewRec) : Option (Nat × Nat × Nat × Nat × Nat × Nat) :=
  if v.bN = 0 && v.aN = 0 then none else some (v.bSlot0, v.bLen, v.bN, v.aSlot0, v.aLen, v.aN)

/-- A ledger record (08 R261). -/
def ledgerOf (r : Nat) : Ledger :=
  ⟨bits r 511 464, bits r 463 416, bits r 415 368, bits r 367 320, bits r 319 272, bits r 271 224, bits r 223 184,
   bits r 183 152, bits r 151 132 + 1, bits r 131 116, bits r 115 113 + 1, bits r 112 109⟩

/-- A tack table entry (11 R335). -/
def tackEntOf (e : Nat) : TackEnt :=
  ⟨bits e 255 240, bits e 239 238, bits e 237 235, bits e 234 219, bits e 207 160, bits e 159 112, bits e 111 64⟩

/-- A limit entry (10 R311). -/
def limitOf (e : Nat) : Limit := ⟨bits e 255 240, bits e 239 192, bits e 191 144, BitVec.ofNat 32 (bits e 143 112), bits e 111 102⟩

/-- A digest entry (10 R325). -/
def digestOf (e : Nat) : DigestEnt := ⟨bits e 255 208, bits e 207 160, bits e 159 112⟩

/-- SHARD_IDs of the LAGGED tack entries, without repeats: one ledger record each, in RECORD order from offset 192 (08 R261;
11 R335, R337; log entry 27). -/
def laggedShards (ts : List TackEnt) : List Nat :=
  ts.foldl (fun l t => if t.cls = 1 && !l.contains t.shard then l ++ [t.shard] else l) []

/-- The primary or variant `v` of the image at `a` (07 R222, R240). -/
def bodyAt (m : Mem) (a v : Nat) : PlanBody :=
  let dir := dirFor m a v
  let s (i : Nat) : Sect := sect dir i
  let rec3 := a + (s 3).1
  let vr := m.readLE rec3 64
  let tr := m.readLE (rec3 + 64) 64
  let br := if (s 7).2 < 64 then 0 else m.readLE (a + (s 7).1) 64
  let tacks := (tableAt m (a + bits tr 511 464) 32 (bits tr 463 448)).map tackEntOf
  { variant := v
    slots := ((tableAt m (a + (s 2).1) 32 ((s 2).2 / 32)).map slotOfBits).foldl (fun l x => insertSlot x l) []
    ctxs := (tableAt m (a + (s 0).1) 8 8).map fun e => (bit e 63, bits e 62 61)
    places := (tableAt m (a + (s 6).1) 16 ((s 6).2 / 16)).map fun e =>
      ⟨bits e 127 124, bits e 123 120, bits e 95 48, bits e 47 0⟩
    arbs := arbsAt m a (s 5)
    nRank := bits br 511 496
    self := bits br 495 480
    lepoch := bits br 479 464
    job := bits br 463 432
    selfNode := bits br 431 408
    hops := (tableAt m (a + (s 7).1 + 64) 16 (((s 7).2 - 64) / 16)).map fun e =>
      ⟨bits e 127 126, bits e 125 102, ofBool (bit e 101)⟩
    conts := (tableAt m (a + (s 8).1) 32 ((s 8).2 / 32)).map fun e =>
      ⟨bits e 255 252, bits e 251 236, bits e 235 220, bits e 219 172, bits e 171 140⟩
    verdict := verdictOf vr
    limits := (tableAt m (a + bits vr 363 316) 32 (bits vr 315 292)).map limitOf
    digests := (tableAt m (a + bits vr 291 244) 32 (bits vr 243 228)).map digestOf
    tack := tackRecOf tr
    tacks := tacks
    ledgers := (tableAt m (rec3 + 192) 64 (laggedShards tacks).length).map ledgerOf
    view := viewOf (m.readLE (rec3 + 128) 64) }

/-- A permutation entry (07 R239). -/
structure PermEnt where
  kind : Nat
  srcRank : Nat
  dstRank : Nat
  shard : Nat
  src : Nat
  dst : Nat
  len : Nat
  resv : Nat
deriving DecidableEq, Repr

/-- The permutation table of a contingency entry; offset 0: none (07 R238, R239). -/
def permAt (m : Mem) (a : Nat) (c : Cont) : List PermEnt :=
  if c.perm = 0 then []
  else (tableAt m (a + c.perm) 32 c.permN).map fun e =>
    ⟨bits e 255 254, bits e 253 238, bits e 237 222, bits e 221 192, bits e 191 144, bits e 143 96, bits e 95 48, bits e 47 0⟩

/-! ## Payloads -/

/-- A transfer descriptor (08 R245). -/
structure XferDesc where
  src : Nat
  dst : Nat
  rowBytes : Nat
  rows : Nat
  srcPitch : Nat
  dstPitch : Nat
  resv : Nat
deriving DecidableEq, Repr

/-- The transfer descriptor at `a` (08 R245). -/
def xferAt (m : Mem) (a : Nat) : XferDesc :=
  let e := m.readLE a 32
  ⟨bits e 255 208, bits e 207 160, bits e 159 128, bits e 127 104 + 1, bits e 103 72, bits e 71 40, bits e 39 0⟩

/-- Rows of one end of a transfer: (address, bytes) each; a pitch of 0 packs them (08 R245). -/
def xferRows (base pitch rowBytes rows : Nat) : List (Nat × Nat) :=
  (List.range rows).map fun k => (base + k * (if pitch = 0 then rowBytes else pitch), rowBytes)

/-- The record of a flag fold: the SRAM word it writes and the engines it names by FIRST_ENG number; the manual gives it no layout
(DESIGN CHOICE, log entry 31; 02 R72). -/
structure FoldRec where
  dst : Nat
  engines : List Nat
deriving DecidableEq, Repr

/-- The fold record at `a`: a destination in bits [47:0], then one bit for each engine from bit 64 (log entry 31; 02 R72). -/
def foldAt (m : Mem) (a : Nat) : FoldRec :=
  let e := m.readLE a 40
  ⟨bits e 47 0, (List.range 240).filter fun k => e.testBit (64 + k)⟩

/-- A message descriptor (09 R283). -/
structure MsgDesc where
  opc : Nat
  accOp : Nat
  fmt : Nat
  sig : Bool
  rank : Nat
  tally : Nat
  ctally : Nat
  ctEn : Bool
  len : Nat
  loc : Nat
  remote : Nat
  inc : Nat
  resv : Nat
deriving DecidableEq, Repr

/-- The message descriptor at `a`; a SIGNAL has no payload (09 R283). -/
def msgAt (m : Mem) (a : Nat) : MsgDesc :=
  let e := m.readLE a 32
  let opc := bits e 255 252
  ⟨opc, bits e 251 250, bits e 249 246, bit e 245, bits e 244 229, bits e 228 217, bits e 216 205, bit e 204,
   if opc = 3 then 0 else bits e 203 191 + 1, bits e 175 128, bits e 127 80, bits e 79 64, bits e 190 176 + bits e 63 0⟩

/-- A root-set record (05 R173). -/
def rootAt (m : Mem) (a : Nat) : RootRec :=
  let w (i : Nat) : Nat := m.readLE (a + 8 * i) 8
  { pow := bits (w 0) 63 62, chol := bit (w 0) 61, blk := bits (w 0) 60 58, iter := bits (w 0) 57 53 + 1, dim := bits (w 0) 52 38
    k := bits (w 0) 37 26 + 1, phase := bits (w 0) 25 14, win := bits (w 0) 13 2 + 1
    lamAbs := BitVec.ofNat 32 (bits (w 1) 63 32), lamRel := BitVec.ofNat 32 (bits (w 1) 31 0)
    theta := BitVec.ofNat 32 (bits (w 2) 63 32), staleLim := bits (w 2) 31 16, id := bits (w 2) 15 0, desc := bits (w 3) 47 0 }

/-- Reserved bits of the root-set record at `a` (05 R173). -/
def rootResv (m : Mem) (a : Nat) : Nat := bits (m.readLE a 8) 1 0 + bits (m.readLE (a + 24) 8) 63 48

/-- A solve record (06 R202). -/
def solveAt (m : Mem) (a : Nat) : SolveRec :=
  let e := m.readLE a 64
  { work := bits e 495 448, values := bits e 431 384, id := bits e 383 368, struct := bits e 367 320
    lmin := BitVec.ofNat 32 (bits e 319 288), lmax := BitVec.ofNat 32 (bits e 287 256), pivT := BitVec.ofNat 64 (bits e 255 192)
    period := bits e 191 160, tol := BitVec.ofNat 32 (bits e 159 128), deadline := bits e 127 96, buildDl := bits e 95 64
    method := bits e 63 60, precond := bits e 59 57, prebuild := bits e 56 55, gm := bits e 54 49 + 1, nIter := bits e 48 37
    minIt := bits e 36 25, patch := bits e 24 9 + 1 }

/-- Reserved bits of the solve record at `a` (06 R202). -/
def solveResv (m : Mem) (a : Nat) : Nat :=
  let e := m.readLE a 64
  bits e 511 496 + bits e 447 432 + bits e 8 0

/-- The header of the structure image at `a` (06 R193). -/
def structAt (m : Mem) (a : Nat) : StructHdr :=
  let e := m.readLE a 64
  ⟨bits e 511 448, bits e 447 416, bits e 415 384, bits e 383 352, bits e 351 320, bits e 319 288, bits e 287 256, bits e 255 224,
   bits e 223 192, bits e 191 160, bit e 11, if bits e 10 8 = 0 then 4 else 8⟩

end Sys2Proof.Machine
end

