-- ==== Sys2Proof/Machine/Curvature.lean ====
section
/-! DEFINITION. The root service: descriptors and root buffers, the start, checks and abandonment of refreshes, publication
and staleness (05 R173 to R190). A refresh takes its source copy when it starts, and ROOT_CHECK forms a block's root from it (log entry
59). -/

namespace Sys2Proof.Machine

/-! ## Root sets and their descriptors (05 R173, R175) -/

/-- Address of the descriptor of a block in the tack A table (05 R175). -/
def descAddr (r : RootRec) (blk : Nat) : Nat := r.desc + 64 * blk

/-- The current descriptor of a block (05 R175, R186). -/
def descNow (m : Mem) (d : Dev) (r : RootRec) (blk : Nat) : Nat := m.readLE (resolveRead d (descAddr r blk)) 64

/-- Address of buffer `b` that a descriptor names (05 R175). -/
def descBuf (x b : Nat) : Nat := bits x (64 * b + 47) (64 * b)

/-- PUB of a descriptor; 3: the identity root (05 R175). -/
def descPub (x : Nat) : Nat := bits x 193 192

/-- Every root buffer that a descriptor names: (address, bytes) (05 R175). -/
def rootBuffers (m : Mem) (d : Dev) : List (Nat × Nat) :=
  d.curv.sets.flatMap fun s =>
    (List.range (rootBlocks s.record)).flatMap fun b =>
      [0, 1, 2].map fun i => (descBuf (descNow m d s.record b) i, rootBytes s.record)

/-- A descriptor with its device-written fields replaced (05 R175). -/
def descWord (old pub gen src : Nat) (resid : W32) (pivs : Nat) : Nat :=
  bits old 47 0 + bits old 111 64 * 2 ^ 64 + bits old 175 128 * 2 ^ 128 + pub % 4 * 2 ^ 192 + gen % 2 ^ 32 * 2 ^ 224
    + src % 2 ^ 64 * 2 ^ 256 + pivs % 2 ^ 32 * 2 ^ 320 + resid.toNat * 2 ^ 352

/-- The refreshes of a set whose start lies before step `u` (05 R184). -/
def startsBefore (r : RootRec) (u : Nat) : Nat := if u ≤ r.phase then 0 else ceilDiv (u - r.phase) r.k

/-- The buffer addresses that the descriptors of the tack A table give (05 R175). -/
def bufAddrs (m : Mem) (r : RootRec) : List (List Nat) :=
  (List.range (rootBlocks r)).map fun b => [0, 1, 2].map (descBuf (m.readLE (descAddr r b) 64))

/-- A root set with every buffer FREE, before step `u` (05 R176, R184). -/
def setInit (m : Mem) (u : Nat) (r : RootRec) : RootSet :=
  { record := r, bufs := List.replicate (rootBlocks r) [.free, .free, .free], addrs := bufAddrs m r, ready := [], refresh := none
    started := startsBefore r u, staleNoted := false }

/-- The root-set records that the ROOT slots of a plan or variant name, each set once (05 R173). -/
def rootRecs (m : Mem) (a : Nat) (b : PlanBody) : List RootRec :=
  ((b.slots.filter (·.kind = 8)).map fun s => rootAt m (a + s.payload)).foldl
    (fun l r => if l.any fun x => x.id = r.id then l else l ++ [r]) []

/-- Two records describe the same descriptors and buffers (05 R189). -/
def sameSet (x y : RootRec) : Bool := x.id = y.id && x.dim = y.dim && x.blk = y.blk && x.pow = y.pow

/-- Changes the root set with SET_ID `id`. -/
def modSet (id : Nat) (f : RootSet → RootSet) (d : Dev) : Dev :=
  { d with curv := { d.curv with sets := d.curv.sets.map fun s => if s.record.id = id then f s else s } }

/-- The root set with SET_ID `id`. -/
def setAt (d : Dev) (id : Nat) : Option RootSet := d.curv.sets.find? fun s => s.record.id = id

/-- Changes the state of buffer `i` of a block. -/
def modBuf (blk i : Nat) (f : RootState → RootState) (s : RootSet) : RootSet :=
  { s with bufs := modAt (modAt f i) blk s.bufs }

/-- Descriptors of a set that starts from the identity root, in both tables: every device-written field takes its Reset value
(05 R175). `b` is the offset of the tack B table. -/
def identityDescs (r : RootRec) (m : Mem) (d : Dev) : Mem × Dev :=
  let n := rootBlocks r
  (List.range (2 * n)).foldl (fun x i =>
    let a := r.desc + 64 * i
    let w := writeMem x.1 x.2.ecc a (leBytes 64 (descWord (x.1.readLE a 64) 3 0 0 0 0))
    (w.1, { x.2 with ecc := w.2.1 })) (m, d)

/-- A set abandons the refresh in progress: its buffers, those READY but not published among them, return to FREE, counted (05 R188,
R189). -/
def refreshDrop (s : RootSet) (d : Dev) : Dev :=
  match s.refresh with
  | some f =>
    let own (y : RootReady) : Bool := !y.published && y.src = f.src.getD f.start
    let d := modSet s.record.id (fun s => (s.ready.filter own).foldl (fun s y => modBuf y.blk y.buf (fun _ => .free) s) { s with
      bufs := s.bufs.map (·.map fun b => if b = .writing then .free else b), ready := s.ready.filter (fun y => !own y), refresh := none }) d
    { d with curv := { d.curv with aband := satAdd d.curv.aband 1 } }
  | none => d

/-- Every refresh in flight is abandoned: a change of layout epoch or a replacement (05 R189). -/
def refreshDropAll (d : Dev) : Dev := d.curv.sets.foldl (fun d s => refreshDrop s d) d

/-- The root sets of a plan from step `u`: a set that matches one before it keeps its descriptors and buffers; any other starts
from the identity root (05 R189). -/
def setsTake (recs : List RootRec) (u : Nat) (m : Mem) (d : Dev) : Mem × Dev :=
  let old := d.curv.sets
  recs.foldl (fun x r =>
    match old.find? fun o => sameSet o.record r with
    | some o => (x.1, { x.2 with curv := { x.2.curv with sets := x.2.curv.sets ++ [{ o with record := r, started := startsBefore r u }] } })
    | none =>
      let y := identityDescs r x.1 x.2
      (y.1, { y.2 with curv := { y.2.curv with sets := y.2.curv.sets ++ [setInit y.1 u r] } })) (m, { d with curv := { d.curv with sets := [] } })

/-! ## Refreshes (05 R176, R177, R184, R188) -/

/-- The first FREE buffer of each block, when every block has one. -/
def freeBufs (s : RootSet) : Option (List (Nat × Nat)) :=
  let bs := s.bufs.zipIdx.map fun p => (p.2, p.1.findIdx? (· = .free))
  if bs.all fun b => b.2.isSome then some (bs.map fun b => (b.1, b.2.getD 0)) else none

/-- Bytes of the factor image of one block: 64 by 64 tiles of the upper triangle, or one matrix for B = 32 (05 R168). -/
def factorBytes (r : RootRec) : Nat :=
  let t := blockSize r / 64
  if r.blk = 0 then 4096 else t * (t + 1) / 2 * 16384

/-- Offset of element (i, j) in a factor image: tile (I, J) with I ≤ J lies at index J(J + 1)/2 + I (05 R168). -/
def factorOffset (r : RootRec) (i j : Nat) : Nat :=
  if r.blk = 0 then 4 * (32 * i + j)
  else
    let p := if i / 64 ≤ j / 64 then (i, j) else (j, i)
    let jj := p.2 / 64
    16384 * (jj * (jj + 1) / 2 + p.1 / 64) + 4 * (64 * (p.1 % 64) + p.2 % 64)

/-- The tack entries that hold the factors of the shard of set `r`, and the bytes before the set's own: a shard's factors follow each other
in the order of its descriptor entries (05 R167, R168; log entry 59). -/
def factorPlace (ts : List TackEnt) (sets : List RootRec) (r : RootRec) : List (Nat × Nat) × Nat :=
  match ts.findIdx? fun t => t.kind = 3 && inside r.desc 1 t.baseA t.len with
  | none => ([], 0)
  | some i =>
    let shard := ((ts[i]?).map TackEnt.shard).getD 0
    let own := ts.filter fun t => t.kind = 3 && t.shard = shard
    let before := own.takeWhile fun t => !inside r.desc 1 t.baseA t.len
    let sizeAt (t : TackEnt) : Nat :=
      ((sets.filter fun q => inside q.desc 1 t.baseA t.len).map fun q => rootBlocks q * factorBytes q).sum
    let peers := (sets.filter fun q => own.any fun t => inside q.desc 1 t.baseA t.len && inside r.desc 1 t.baseA t.len && decide (q.desc < r.desc))
    ((ts.filter fun t => t.kind = 2 && t.shard = shard).map fun t => (t.baseA, t.len),
      (before.map sizeAt).sum + (peers.map fun q => rootBlocks q * factorBytes q).sum)

/-- The address of byte `o` of ranges that follow each other. -/
def rangesAt : List (Nat × Nat) → Nat → Option Nat
  | [], _ => none
  | r :: t, o => if o < r.2 then some (r.1 + o) else rangesAt t (o - r.2)

/-- One block's factor read from the current tack, with what reading it does; a factor that no tack entry holds is free (05 R168, R177; log
entry 59). -/
def sourceBlock (m : Mem) (r : RootRec) (place : List (Nat × Nat) × Nat) (blk : Nat) (d : Dev) : List W32 × Dev :=
  let n := blockSize r
  let at_ (o : Nat) : Option Nat := rangesAt place.1 (place.2 + blk * factorBytes r + o)
  match at_ 0, at_ (factorBytes r - 1) with
  | some a, some _ =>
    let x := readSlot m d a (factorBytes r)
    ((List.range (n * n)).map fun k => BitVec.ofNat 32 (leNat ((x.1.drop (factorOffset r (k / n) (k % n))).take 4)), x.2)
  | _, _ => ((List.range (n * n)).map fun k => (Config.freeValue (32 * n * n) d.freeCtr).extractLsb' (32 * k) 32, (draw 32 d).2)

/-- The source copy of a set: every block's factor (05 R177). -/
def sourceCopy (m : Mem) (r : RootRec) (d : Dev) : List (List W32) × Dev :=
  let ts := ((d.plan.run).map fun q => q.body.tacks).getD []
  let place := factorPlace ts (d.curv.sets.map RootSet.record) r
  (List.range (rootBlocks r)).foldl (fun o b =>
    let x := sourceBlock m r place b o.2
    (o.1 ++ [x.1], x.2)) ([], d)

/-- A refresh that waits takes its source copy in step `u`, once every block has a FREE buffer (05 R176, R177). -/
def refreshSource (u : Nat) (m : Mem) (id : Nat) (d : Dev) : Dev :=
  match setAt d id with
  | none => d
  | some s =>
    match s.refresh, freeBufs s with
    | some f, some ws =>
      if f.src.isSome then d
      else
        let x := sourceCopy m s.record d
        modSet id (fun s => ws.foldl (fun s w => modBuf w.1 w.2 (fun _ => .writing) s)
          { s with refresh := some { f with src := some u, copy := x.1, work := ws } }) x.2
    | _, _ => d

/-- Refresh `n`, due at step `u`, starts (05 R184). -/
def refreshBegin (n u : Nat) (s : RootSet) : RootSet :=
  { s with refresh := some ⟨n, u, none, [], [], false, false⟩, started := max s.started (n + 1) }

/-- What the first start of the step with index `u` does for a set: a refresh that is due starts, or does not while one is in
progress; one that has reached s_r + 2K ends at its next boundary (05 R184, R188). -/
def refreshStep (u : Nat) (m : Mem) (s : RootSet) (d : Dev) : Dev :=
  let r := s.record
  let id := r.id
  let due := decide (r.phase ≤ u) && (u - r.phase) % r.k = 0 && decide (s.started ≤ (u - r.phase) / r.k)
  let n := (u - r.phase) / r.k
  match s.refresh with
  | none => if due then refreshSource u m id (modSet id (refreshBegin n u) d) else d
  | some f =>
    if f.start + 2 * r.k ≤ u then modSet id (fun s => { s with refresh := some { f with ending := true } }) d
    else if due then
      let d := refreshSource u m id (modSet id (fun s => { s with started := n + 1 }) d)
      note 0x02 0x050C 0xFFFF id { d with curv := { d.curv with skip := satAdd d.curv.skip 1 } }
    else refreshSource u m id d

/-- The root service at the first start of the step with index `u` (05 R184). -/
def rootsStep (u : Nat) (m : Mem) (d : Dev) : Dev := d.curv.sets.foldl (fun d s => refreshStep u m s d) d

/-- A ROOT slot: its record is taken, and a refresh that waits for buffers or must take its source copy goes on (05 R173,
R176; 07 R474). -/
def rootSlotBoth (seq : Nat) (m : Mem) (d : Dev) : Mem × Dev :=
  onSlot seq 8 (fun r sl m d =>
    (m, complete r.start seq (refreshSource r.step m (rootAt m (r.addr + sl.payload)).id d))) m d

/-- The residual check passes: ρ is finite and at most THETA (05 R180). -/
def checkPasses (rho theta : W32) : Bool :=
  match fp32.decode rho.toNat, fp32.decode theta.toNat with
  | .fin s m e, t => !t.lt (.fin s m e)
  | _, _ => false

/-- The outcome of the check of block `blk`, whose root `x` stands in buffer `buf` (05 R176, R180). -/
def rootJudge (s : RootSet) (f : Refresh) (id blk buf : Nat) (x : RootOut) (d : Dev) : Dev :=
  let left := f.work.filter fun w => w.1 ≠ blk
  let fin (s : RootSet) : RootSet := { s with refresh := if left.isEmpty then none else some { f with work := left } }
  if checkPasses x.resid s.record.theta then
    modSet id (fun s =>
      let olds := (s.ready.filter fun y => y.blk = blk).map RootReady.buf
      let s := olds.foldl (fun s b => modBuf blk b (fun _ => .free) s) s
      fin (modBuf blk buf (fun _ => .ready) { s with
        ready := s.ready.filter (fun y => y.blk ≠ blk) ++
          [⟨blk, buf, f.src.getD f.start, x.resid, x.pivs, false⟩] })) d
  else
    note 0x02 0x0514 blk (id * 65536 + blk)
      (modSet id (fun s => fin (modBuf blk buf (fun _ => .free) s))
        { d with curv := { d.curv with rej := satAdd d.curv.rej 1 } })

/-- The context of the ROOT slot of a set: that of the root service (05 R179). -/
def rootCtx (m : Mem) (r : Run) (id : Nat) : Nat :=
  ((r.body.slots.find? fun s => s.kind = 8 && (rootAt m (r.addr + s.payload)).id = id).map Slot.ctx).getD 0

/-- The root of block `blk` of a refresh, from its source copy (05 R177 to R179). -/
def rootForm (m : Mem) (run : Run) (r : RootRec) (f : Refresh) (blk : Nat) : RootOut :=
  let n := blockSize r
  let c := (f.copy[blk]?).getD []
  rootOf r ((List.range n).map fun i => ((c.drop (n * i)).take n).map BitVec.toNat)
    (probe run.hdr.seed (f.src.getD f.start) (rootCtx m run r.id) n)

/-- `a` lies in root scratch, in a word that cannot be corrected (05 R183, R189; 13 R387). -/
def scratchBad (d : Dev) (a : Nat) : Bool := wordBad d.ecc (resolveRead d a) && (placesOf d [6]).any fun p => inside (resolveRead d a) 1 p.1 p.2

/-- ROOT_CHECK: the root of one block of the refresh in progress is formed in its buffer and checked; a block whose work has met a bad word of
root scratch is not, and raises a contained data error. A block whose READY root is not yet published keeps the newer of the two (05 R177 to
R180, R189; log entries 30, 59). -/
def rootCheckBoth (id blk : Nat) (lost : Option Nat) (m : Mem) (d : Dev) : Mem × Dev :=
  match setAt d id, d.plan.run with
  | some s, some run =>
    match s.refresh with
    | none => (m, d)
    | some f =>
      match f.work.find? fun w => w.1 = blk with
      | none => (m, d)
      | some (_, buf) =>
        match lost.filter (scratchBad d) with
        | some a => (m, readLoss d a)
        | none =>
          let x := rootForm m run s.record f blk
          let y := devWrite m d (((s.addrs[blk]?).getD [])[buf]?.getD 0) (x.x.flatten.flatMap (leBytes 4))
          (y.1, rootJudge s f id blk buf x y.2)
  | _, _ => (m, d)

/-- A refresh still running at s_r + 2K is abandoned at its next boundary, and the refresh scheduled at that step starts (05
R188). -/
def refreshAbandonDev (id : Nat) (m : Mem) (d : Dev) : Dev :=
  match setAt d id with
  | some s =>
    match s.refresh, d.plan.run with
    | some f, some r =>
      if f.ending then
        let d := note 0x02 0x0510 0xFFFF id (refreshDrop s d)
        let n := f.num + 2
        let u := f.start + 2 * s.record.k
        refreshSource r.step m id (modSet id (fun s => if s.started ≤ n then
          { s with refresh := some ⟨n, u, none, [], [], false, false⟩, started := n + 1 } else s) d)
      else d
    | _, _ => d
  | none => d

/-! ## Publication (05 R184, R185) -/

/-- Writes the off-tack descriptor of one block: the READY root under the next generation, or a copy of the current one (05
R185). -/
def publishBlock (s : RootSet) (blk : Nat) (m : Mem) (d : Dev) : Mem × Dev :=
  let r := readSlot m d (descAddr s.record blk) 64
  let x := leNat r.1
  let y := match s.ready.find? fun y => y.blk = blk with
    | some y => descWord x y.buf (bits x 255 224 + 1) y.src y.resid y.pivs
    | none => x
  writeSlot m r.2 (descAddr s.record blk) (leBytes 64 y)

/-- A set at the publication point of step `u`: READY roots are published; a refresh past its due point is late, once (05 R184,
R185, R188). -/
def publishSet (u : Nat) (x : Mem × Dev) (s : RootSet) : Mem × Dev :=
  let y := (List.range (rootBlocks s.record)).foldl (fun x b => publishBlock s b x.1 x.2) x
  let d := modSet s.record.id (fun s => { s with ready := s.ready.map fun y => { y with published := true } }) y.2
  match s.refresh with
  | some f =>
    if !f.late && decide (f.start + s.record.win ≤ u + 1) then
      (y.1, note 0x02 0x0508 0xFFFF s.record.id
        (modSet s.record.id (fun s => { s with refresh := some { f with late := true } })
          { d with curv := { d.curv with late := satAdd d.curv.late 1 } }))
    else (y.1, d)
  | none => (y.1, d)

/-- The publication point (05 R184, R185). -/
def publishBoth (seq : Nat) : Mem → Dev → Mem × Dev :=
  onMarkW seq 1 (fun _ _ _ d => d.curv.sets.map fun s => (s.record.desc, 64 * rootBlocks s.record)) fun r _ m d =>
    let x := d.curv.sets.foldl (publishSet r.step) (m, d)
    (x.1, complete r.start seq x.2)

/-! ## Commit, skip and staleness (05 R185 to R187) -/

/-- A root buffer is named by the snapshot that is copying (11 R339, R342). -/
def snapNames (d : Dev) (id blk : Nat) : Bool :=
  match d.snap.drain with
  | some x => x.items.any fun i => i.1 = 1 && i.2.1 = id && i.2.2.1 = blk
  | none => false

/-- At a commit the published roots of a set become CURRENT; those they replace become FREE, or HELD while the snapshot names
them (05 R176, R185). -/
def setFlip (d : Dev) (s : RootSet) : Dev :=
  let pubs := s.ready.filter RootReady.published
  let retire (s : RootSet) (y : RootReady) : RootSet :=
    let left : RootState := if snapNames d s.record.id y.blk && !((s.bufs[y.blk]?).getD []).contains .held then .held else .free
    { s with bufs := modAt (fun bs => (bs.map fun b => if b = .current then left else b)) y.blk s.bufs }
  let s' := pubs.foldl (fun s y => modBuf y.blk y.buf (fun _ => .current) (retire s y)) s
  let d := modSet s.record.id (fun _ => { s' with ready := s.ready.filter fun y => !y.published }) d
  { d with curv := { d.curv with pub := satAdd d.curv.pub pubs.length } }

/-- Staleness of a block at step `u`: u for the identity root (05 R187). -/
def staleness (m : Mem) (d : Dev) (r : RootRec) (u blk : Nat) : Nat :=
  let x := descNow m d r blk
  if descPub x = 3 then u else u - bits x 319 256

/-- Largest staleness of a set at step `u`. -/
def setStale (m : Mem) (d : Dev) (u : Nat) (r : RootRec) : Nat := ((List.range (rootBlocks r)).map (staleness m d r u)).foldl max 0

/-- The NOTE of a set that first exceeds STALE_LIM, and its re-arming (05 R187). -/
def staleNote (m : Mem) (u : Nat) (d : Dev) (s : RootSet) : Dev :=
  let past := decide (s.record.staleLim ≠ 0 ∧ s.record.staleLim < setStale m d u s.record)
  let d' := modSet s.record.id (fun s => { s with staleNoted := past }) d
  if past && !s.staleNoted then note 0x02 0x051C 0xFFFF s.record.id d' else d'

/-- CRW_ROOT_STALE at step `u`: the largest staleness and its set, the lowest SET_ID of equals (05 R187, R190). -/
def staleSet (m : Mem) (u : Nat) (d : Dev) : Dev :=
  let xs := d.curv.sets.map fun s => (setStale m d u s.record, s.record.id)
  let w := xs.foldl (fun (b : Option (Nat × Nat)) x => match b with
    | none => some x
    | some y => if y.1 < x.1 ∨ (y.1 = x.1 ∧ x.2 < y.2) then some x else some y) none
  match w with
  | some (n, id) => { d with curv := { d.curv with staleSet := id, stale := min n 65535 } }
  | none => { d with curv := { d.curv with staleSet := 0xFFFF, stale := 0 } }

/-- The root service at the tack flip of step `u`: staleness is that of the step after it, whose descriptors now stand (05 R185, R187). -/
def rootsFlip (m : Mem) (u : Nat) (d : Dev) : Dev :=
  let d := d.curv.sets.foldl setFlip { d with curv := { d.curv with scratchLost := false } }
  staleSet m (u + 1) (d.curv.sets.foldl (staleNote m (u + 1)) d)

/-- A refresh in progress restarts from its source copy: blocks that were READY and not published are computed again (05 R189). -/
def refreshRestart (s : RootSet) : RootSet :=
  match s.refresh with
  | some f =>
    let again := s.ready.filter fun y => some y.src = f.src
    again.foldl (fun s y => modBuf y.blk y.buf (fun _ => .writing) s)
      { s with ready := s.ready.filter (fun y => some y.src ≠ f.src), refresh := some { f with work := f.work ++ again.map fun y => (y.blk, y.buf) } }
  | none => s

/-- The root service at a skip: the off-tack writes are discarded and the buffers stay READY; after a loss in scratch the refreshes in
progress restart (05 R185, R189). -/
def rootsSkip (d : Dev) : Dev :=
  let redo (s : RootSet) : RootSet := if d.curv.scratchLost then refreshRestart s else s
  { d with curv := { d.curv with
      scratchLost := false
      sets := d.curv.sets.map fun s => redo { s with ready := s.ready.map fun y => { y with published := false } } } }

/-- ROOT_SLOT (05 R173). -/
def execRootSlot (seq : Nat) (s : State) : Out := onBoth (rootSlotBoth seq) s

/-- ROOT_CHECK (05 R180). -/
def execRootCheck (set blk : Nat) (lost : Option Nat) (s : State) : Out := onBoth (rootCheckBoth set blk lost) s

/-- REFRESH_ABANDON (05 R188). -/
def execRefreshAbandon (set : Nat) (s : State) : Out := onRead (refreshAbandonDev set) s

/-- PUBLICATION_POINT (05 R185). -/
def execPublicationPoint (seq : Nat) (s : State) : Out := onBoth (publishBoth seq) s

end Sys2Proof.Machine
end

