-- ==== Sys2Proof/Machine/PortH.lean ====
section
/-! DEFINITION. Port H: link training, resets, retries, IDE and DOE (14 R401 to R405, R410), and test access (13 R393). -/

namespace Sys2Proof.Machine

/-- The modes of 14 R402 from the highest to the lowest usable bandwidth, as codes of CXL_H_STAT.MODE (log entry 17). -/
def modeOrder : List Nat := [1, 4, 2, 5, 3, 6]

/-- A mode with 256-byte flits (14 R402, R410). -/
def modeFlit256 (m : Nat) : Bool := m = 1 || m = 2

/-- A halyard reset: ID_, HLY_, IRQ_ and CXL_ registers and DBG_SCRATCH return to their reset values, the HDM mapping goes
and every open weight session ends with ABORTED. The plan, memories, tethers, bays and the crow's nest stay. Fields that
report a standing condition report it again at once (14 R405; log entry 17). -/
def halyardResetDev (d : Dev) : Dev :=
  let d := abortSessions d
  { d with
    hly := Hly.reset
    evt := { Evt.reset with fseq := d.evt.fseq, fatal := d.evt.fatal, wait := d.evt.wait, held := d.evt.held.filter fun h => recClass h = clsFatal }
    irq := { Irq.reset with sent := d.irq.sent, aer := d.irq.aer }
    cxl := { d.cxl with hRetry := 0, hIdeFail := 0, gRetry := 0, hdmBase := 0, hdmLen := 0, hdmGone := [], hdmCached := [] }
    dbg := { d.dbg with scratch := 0 }
    integ := { d.integ with bistCmd := none }
    gon := { d.gon with bays := d.gon.bays.map fun b => { b with rmCmd := none } }
    plan := { d.plan with latched := none } }

/-- Port H trains to the highest mode both ends support; with none in common the link stays down. A link that returns
after a surprise link-down has the effect of a halyard reset (14 R402, R405, R428). -/
def linkUpDev (l : LinkIn) (d : Dev) : Dev :=
  match modeOrder.find? (fun m => l.modes.contains m), decide (l.width = 4 ∨ l.width = 8 ∨ l.width = 16) with
  | some m, true =>
    let d := if d.cxl.hWasDown then halyardResetDev d else d
    let d := { d with cxl := { d.cxl with
      hMode := m, hWidth := l.width, hFlit256 := modeFlit256 m, hLopt := modeFlit256 m && l.lopt
      hCache := decide (m ≤ 3) && l.cache, hMem := decide (m ≤ 2) && l.mem, hL0p := false, hWasDown := false } }
    evtDrain d.evt.held.length (raise irqLink d)
  | _, _ => d

/-- A surprise link-down: the link's fields show it down, completions and events are lost until it returns, and host
snapshot targets fail; the plan runs on (14 R405, 11 R345). -/
def linkDownDev (d : Dev) : Dev :=
  if !hLinkUp d then d
  else
    let d := { d with cxl := { d.cxl with
      hMode := 0, hWidth := 0, hFlit256 := false, hLopt := false, hCache := false, hMem := false, hIde := [], hL0p := false
      hWasDown := true } }
    match d.plan.run with
    | some r => if bit r.body.tack.tgt 2 then targetAbort 2 d else d
    | none => d

/-- A link-layer retry counts in its register and against bucket class 7 (14 R410, 13 R385). -/
def linkRetryDev (g : Bool) (d : Dev) : Dev :=
  if g then bucketHit 7 1 { d with cxl := { d.cxl with gRetry := satAdd d.cxl.gRetry 1 } }
  else bucketHit 7 0 { d with cxl := { d.cxl with hRetry := satAdd d.cxl.hRetry 1 } }

/-- An IDE integrity failure on port H counts in CXL_H_IDEFAIL and against bucket class 7 (14 R404, R410). -/
def ideFailDev (d : Dev) : Dev :=
  if d.cxl.hIde.isEmpty then d
  else bucketHit 7 0 { d with cxl := { d.cxl with hIdeFail := satAdd d.cxl.hIdeFail 1 } }

/-- DOE mailboxes: measurements signed with the identity key, IDE keys into the key store, and CDAT (14 R403, R404; 15 R456).
A change of the IDE state sets LINK (14 R428). -/
def doeDev (x : DoeIn) (d : Dev) : Dev :=
  match x with
  | .spdm nonce => { d with cxl := { d.cxl with doeOut := d.cxl.doeOut ++ [attestBytes d nonce.toNat] } }
  | .ideKeyProg s =>
    let was := d.cxl.hIde.isEmpty
    let d := if d.cxl.hIde.contains s then d else { d with cxl := { d.cxl with hIde := d.cxl.hIde ++ [s] } }
    if was then raise irqLink d else d
  | .ideKeyStop s =>
    let d' := { d with cxl := { d.cxl with hIde := d.cxl.hIde.filter (· ≠ s) } }
    if !d.cxl.hIde.isEmpty && d'.cxl.hIde.isEmpty then raise irqLink d' else d'
  | .cdat => { d with cxl := { d.cxl with doeOut := d.cxl.doeOut ++ [Config.cdat] } }

/-- L0p in 256-byte flit modes: CXL_H_STAT.L0P changes and LINK is set (14 R403, R410, R428). -/
def l0pDev (reduced : Bool) (d : Dev) : Dev :=
  if !d.cxl.hFlit256 || d.cxl.hL0p = reduced then d
  else raise irqLink { d with cxl := { d.cxl with hL0p := reduced } }

/-- Test access enables a scan chain. One that reaches key material is preceded by the zeroization of the key store; while
the device runs it ends every session with ABORTED and puts the device in its safe state (13 R393, 14 R411). -/
def scanDev (ch : ScanChain) (d : Dev) : Dev :=
  let d := { d with dbg := { d.dbg with tapAny := true, tapNow := true } }
  match ch with
  | .ballastUnit | .other => d
  | .shroud | .keyStore | .masthead | .ioDie =>
    let d := zeroizeKeys (if d.fw.ready then abortSessions d else d)
    let d := { d with dbg := { d.dbg with tapKey := true } }
    if d.fw.ready then safeEntry 7 d else d

/-- PORT_H_LINK_UP (14 R402). -/
def execPortHLinkUp (l : LinkIn) (s : State) : Out := onDev (linkUpDev l) s
/-- HALYARD_RESET (14 R405). -/
def execHalyardReset (s : State) : Out := onDev halyardResetDev s
/-- PORT_H_LINK_DOWN (14 R405). -/
def execPortHLinkDown (s : State) : Out := onDev linkDownDev s
/-- CXL_LINK_RETRY (14 R410). -/
def execCxlLinkRetry (g : Bool) (s : State) : Out := onDev (linkRetryDev g) s
/-- IDE_INTEGRITY_FAILURE (14 R404). -/
def execIdeIntegrityFailure (s : State) : Out := onDev ideFailDev s
/-- DOE_REQUEST (14 R403). -/
def execDoeRequest (x : DoeIn) (s : State) : Out := onDev (doeDev x) s
/-- L0P_CHANGE (14 R428). -/
def execL0pChange (reduced : Bool) (s : State) : Out := onDev (l0pDev reduced) s
/-- SCAN_CHAIN_ENABLE (13 R393). -/
def execScanChainEnable (ch : ScanChain) (s : State) : Out := onDev (scanDev ch) s

end Sys2Proof.Machine
end

