-- ==== Sys2Proof/Machine/HostMem.lean ====
section
/-! DEFINITION. The host's reach into device memory: MEM_READ, MEM_WRITE, PLAN_LOAD and the host-visible range (14 R423,
R431; 12 R360, R377). -/

namespace Sys2Proof.Machine

/-- The first line of [a, a+n) that holds a bad word among those the access covers, and how many such lines (14 R423). -/
def badLines (e : Ecc) (a n : Nat) : List Nat :=
  ((List.range (ceilDiv (a % 256 + n) 256)).map fun k => lineOf a + 256 * k).filter fun l =>
    (firstBad e (max l a) (min (l + 256) (a + n) - max l a)).isSome

/-- Writes the lines of a readout into the host buffer, leaving out those that hold a bad word; a sealed range reads as
zeros (14 R423, 12 R360). -/
def readOut (m : Mem) (d : Dev) (a haddr : Nat) : Nat → Mem → Mem
  | 0, h => h
  | n + 1, h =>
    let h := if touchesSealed d a 1 then h.set haddr 0 else if (badLines d.ecc a 1).isEmpty then h.set haddr (m.get a) else h
    readOut m d (a + 1) (haddr + 1) n h

/-- A readout that touches a sealed range counts and is reported as NOTE (12 R360). -/
def sealedNote (d : Dev) (a n : Nat) : Dev :=
  if touchesSealed d a n then note 0x08 0x0C40 0xFFFF 0 { d with wgt := { d.wgt with sealRd := satAdd d.wgt.sealRd 1 } } else d

/-- The bad lines of a host access are counted and reported, one NOTE each (13 R387, 14 R423). -/
def hostUe (ls : List Nat) (d : Dev) : Dev :=
  ls.foldl (fun d l => also [⟨clsNote, 0x09, 0x0D0C, 0xFFFF, l, false⟩] (ueAt 2 l d)) d

/-- MEM_READ (14 R421, R423). -/
def memReadDev (c : CmdRef) (m : Mem) : Dev → Dev :=
  runCmd c 0x100 fun desc d =>
    let a := dArg0 desc
    let n := dLen desc
    if !rangeBacked d a n then (d, { status := stAddress })
    else
      let bad := (badLines d.ecc a n).filter fun l => !touchesSealed d (max l a) (min (l + 256) (a + n) - max l a)
      let d := { d with host := readOut m d a (dHaddr desc) n d.host }
      let d := hostUe bad (sealedNote d a n)
      match bad with
      | [] => (d, {})
      | l :: _ => (d, { status := stMemory, data := l })

/-- A host write of `bs` at `a`: line by line, the lines that fail counted and reported (13 R381, R382; 14 R423). Lines that
the host's caches may hold are snooped out first (14 R431). -/
def hostWrite (m : Mem) (d : Dev) (a : Nat) (bs : List Byte) : Mem × Dev × Ans :=
  let r := writeMem m d.ecc a bs
  let d := { d with ecc := r.2.1
                    cxl := { d.cxl with hdmCached := d.cxl.hdmCached.filter fun l => !overlaps l 256 a bs.length } }
  match r.2.2 with
  | [] => (r.1, d, {})
  | l :: t => (r.1, hostUe (l :: t) d, { status := stMemory, data := l })

/-- MEM_WRITE (14 R421, R423). -/
def memWriteBoth (c : CmdRef) (buf : List Byte) : Mem → Dev → Mem × Dev :=
  runCmdMem c 0x101 fun desc m d =>
    let a := dArg0 desc
    let n := dLen desc
    if !rangeBacked d a n then (m, d, { status := stAddress })
    else if !(hostBarred d a n).isEmpty then (m, d, refused)
    else hostWrite m d a (buf.take n)

/-- PLAN_LOAD copies an image into HBM and answers its PLAN_ID (14 R421, 07 R221). -/
def planLoadBoth (c : CmdRef) (buf : List Byte) : Mem → Dev → Mem × Dev :=
  runCmdMem c 0x200 fun desc m d =>
    let a := dArg0 desc
    let n := dLen desc
    if !rangeBacked d a n || !inHbm d a || !inHbm d (a + n - 1) then (m, d, { status := stAddress })
    else if !(hostBarred d a n).isEmpty then (m, d, refused)
    else
      let r := hostWrite m d a (buf.take n)
      (r.1, r.2.1, { r.2.2 with data := if r.2.2.status = stOk then leNat ((buf.drop 112).take 8) else r.2.2.data })

/-- HDM_MAP maps or unmaps the host-visible range (14 R421, R431). -/
def hdmMapDev (c : CmdRef) : Dev → Dev :=
  runCmd c 0x700 fun desc d =>
    let a := dArg0 desc
    let n := dArg1 desc
    let put (base len : Nat) : Dev :=
      { d with cxl := { d.cxl with hdmBase := base, hdmLen := len, hdmGone := [], hdmCached := [] } }
    if !(d.cxl.hMode = 1 || d.cxl.hMode = 2) then (d, refused)
    else if n = 0 then (put 0 0, {})
    else if a % unit256 ≠ 0 ∨ n % unit256 ≠ 0 ∨ 2 ^ 36 < n then (d, refused)
    else if !rangeBacked d a n then (d, { status := stAddress })
    else if !(hostBarred d a n).isEmpty then (d, refused)
    else (put a (n / unit256), { data := n })

/-- A host address of the range, as device address; none: outside it, in a part that was unmapped, or where a bay or stack has left
(08 R243, R253, R257; 14 R431). -/
def hdmAddr (d : Dev) (off n : Nat) : Option Nat :=
  let a := d.cxl.hdmBase + off
  if off + n ≤ d.cxl.hdmLen * unit256 ∧ 0 < n ∧ !(d.cxl.hdmGone.any fun g => overlaps a n g.1 g.2) ∧ rangeBacked d a n then some a else none

/-- A host CXL.mem read: data, poisoned where a line cannot be corrected (counted, no mark kept), all ones and poisoned
outside what is mapped (14 R431). -/
def hdmReadDev (off n : Nat) (m : Mem) (d : Dev) : Dev :=
  match hdmAddr d off n with
  | none => { d with cxl := { d.cxl with hdmOut := d.cxl.hdmOut ++ [(List.replicate n 0xFF, true)] } }
  | some a =>
    let bad := !(badLines d.ecc a n).isEmpty
    let d := (badLines d.ecc a n).foldl (fun d l => ueAt 2 l d) d
    let lines := (List.range (ceilDiv (a % 256 + n) 256)).map fun k => lineOf a + 256 * k
    { d with cxl := { d.cxl with
      hdmOut := d.cxl.hdmOut ++ [(m.read a n, bad)]
      hdmCached := d.cxl.hdmCached ++ lines.filter fun l => !d.cxl.hdmCached.contains l } }

/-- A host CXL.mem write to the mapped range is applied; outside it, it is dropped (14 R431). -/
def hdmWriteBoth (off : Nat) (bs : List Byte) (m : Mem) (d : Dev) : Mem × Dev :=
  match hdmAddr d off bs.length with
  | none => (m, d)
  | some a =>
    let r := writeMem m d.ecc a bs
    (r.1, hostUe r.2.2 { d with ecc := r.2.1 })

/-- MEM_READ (14 R423). -/
def execMemRead (c : CmdRef) (s : State) : Out := onRead (memReadDev c) s
/-- MEM_WRITE (14 R423). -/
def execMemWrite (c : CmdRef) (buf : List Byte) (s : State) : Out := onBoth (memWriteBoth c buf) s
/-- PLAN_LOAD (14 R421). -/
def execPlanLoad (c : CmdRef) (buf : List Byte) (s : State) : Out := onBoth (planLoadBoth c buf) s
/-- HDM_MAP (14 R431). -/
def execHdmMap (c : CmdRef) (s : State) : Out := onDev (hdmMapDev c) s
/-- HDM_HOST_READ (14 R431). -/
def execHdmHostRead (off n : Nat) (s : State) : Out := onRead (hdmReadDev off n) s
/-- HDM_HOST_WRITE (14 R431). -/
def execHdmHostWrite (off : Nat) (bs : List Byte) (s : State) : Out := onBoth (hdmWriteBoth off bs) s

end Sys2Proof.Machine
end

