-- ==== Sys2Proof/Machine/Gondola.lean ====
section
/-! DEFINITION. The gondola tier: bays, the interleave set and removal (08 R254 to R259). -/

namespace Sys2Proof.Machine

/-- Bay `b`. -/
def bayAt (d : Dev) (b : Nat) : Bay := (d.gon.bays[b]?).getD Bay.reset

/-- Changes bay `b`. -/
def modBay (b : Nat) (f : Bay → Bay) (d : Dev) : Dev := { d with gon := { d.gon with bays := modAt f b d.gon.bays } }

/-- Counts a bay change into ONLINE, EMPTY or GONE (08 R269). -/
def countHotplug (d : Dev) : Dev := { d with gon := { d.gon with hotplug := satAdd d.gon.hotplug 1 } }

/-- Capacity of a device in units of 256 MiB, capped at 2 TiB (08 R255). -/
def devUnits (dev : CxlDev) : Nat := min 8192 (dev.capBytes / unit256)

/-- Maps bays in ascending number until the window holds 29,802 units (08 R255): the capacity each bay gets. -/
def mapWindow : Nat → List Bay → List Bay
  | _, [] => []
  | left, b :: t =>
    let c := if b.state = .online ∨ b.state = .draining then min left b.devCap else 0
    { b with cap := c } :: mapWindow (left - c) t

/-- Remaps the window (08 R255). -/
def remap (d : Dev) : Dev := { d with gon := { d.gon with bays := mapWindow 29802 d.gon.bays } }

/-- A device appears on port G. It takes the lowest EMPTY bay into TRAINING; presented to a DRAINING bay it is latched; a
fifth device, and one that finds no EMPTY bay, is not enumerated (08 R255, R258 to R260). -/
def presenceDev (dev : CxlDev) (d : Dev) : Dev :=
  match dev.bay with
  | some b =>
    if (bayAt d b).state = .draining then modBay b (fun y => { y with restPend := some dev, restShow := true }) d
    else d
  | none =>
    match d.gon.bays.findIdx? (fun b => b.state = .empty) with
    | some b =>
      modBay b (fun y => { y with
        state := .training, switched := dev.switched, linkW := dev.linkW, gen := dev.gen, devCap := devUnits dev, cap := 0, tmo := 0 }) d
    | none => note 0x05 0xFFFF 0xFFFF 0 d

/-- Training and enumeration end: ONLINE with a NOTE, or back to EMPTY with a NOTE; capacity beyond the window is reported
as NOTE (08 R255, R258). -/
def bayTrainedDev (b : Nat) (ok : Bool) (d : Dev) : Dev :=
  if (bayAt d b).state ≠ .training then d
  else if ok then
    let d := countHotplug (remap (modBay b (fun y => { y with state := .online, restShow := false }) d))
    let d := note 0x05 (0x0804 + 4 * b) b b d
    if (bayAt d b).cap < (bayAt d b).devCap then note 0x05 0x0814 b b d else d
  else
    note 0x05 (0x0804 + 4 * b) b b (countHotplug (modBay b (fun _ => Bay.reset) d))

/-- Placement ranges of the admitted plan that lie on bay `b`, in its linear view or in an interleave set with it. -/
def placedOn (d : Dev) (b : Nat) : Bool :=
  match d.plan.run with
  | some r => r.body.places.any fun p =>
      (p.tier = 2 && overlaps p.base p.len (gonBase b) 0x20000000000)
      || (p.tier = 3 && d.gon.il.elim false fun s => s.1.contains b)
  | none => false

/-- An active snapshot target of the drain engine lies on bay `b` (08 R259). -/
def targetOn (d : Dev) (b : Nat) : Bool :=
  match d.plan.run, d.snap.drain with
  | some r, some _ =>
    (bit r.body.tack.tgt 0 && ((gonTarget d r.body.tack.gonBase).map Prod.fst = some b))
  | _, _ => false

/-- Moves the cells of a memory by an address map: the set's bytes change the address they are seen at, not their place on
the members (08 R256). -/
def rekey (f : Nat → Nat) (m : Mem) : Mem := m.foldl (fun acc c => acc.set (f c.1) c.2) []

/-- The interleaved address of a member's linear address (08 R256). -/
def linToIl (ms : List Nat) (c : Nat) (a : Nat) : Nat :=
  if gonBase 0 ≤ a ∧ a < ilBase then
    match ms.findIdx? (fun b => b = a / 0x20000000000 - 1) with
    | some i =>
      let o := a % 0x20000000000
      if o < c then ilBase + (o / 4096 * ms.length + i) * 4096 + o % 4096 else a
    | none => a
  else a

/-- The linear address of an interleaved address (08 R256). -/
def ilToLin (ms : List Nat) (c : Nat) (a : Nat) : Nat :=
  if ilBase ≤ a ∧ a < ilBase + ms.length * c then
    let g := (a - ilBase) / 4096
    match ms[g % ms.length]? with
    | some b => gonBase b + g / ms.length * 4096 + (a - ilBase) % 4096
    | none => a
  else a

/-- Dissolves the interleave set (08 R259). -/
def dissolve (m : Mem) (d : Dev) : Mem × Dev :=
  match d.gon.il with
  | some (ms, c) => (rekey (ilToLin ms c) m, { d with gon := { d.gon with il := none } })
  | none => (m, d)

/-- Members that a mask of bays names (14 R421). -/
def maskBays (k : Nat) : List Nat := (List.range 4).filter fun b => bit k b

/-- GON_CONFIGURE forms the interleave set, or is refused with a NOTE (08 R256). -/
def configureBoth (c : CmdRef) : Mem → Dev → Mem × Dev :=
  runCmdMem c 0x500 fun desc m d =>
    let ms := maskBays (dArg0 desc)
    let n := dArg1 desc
    let ok := (ms.length = 2 || ms.length = 4) && decide (0 < n) && n % unit256 = 0 && d.gon.il.isNone
      && ms.all fun b => bayOnline d b && decide (n ≤ (bayAt d b).cap * unit256) && !placedOn d b
    if ok then (rekey (linToIl ms n) m, { d with gon := { d.gon with il := some (ms, n) } }, {})
    else (m, note 0x05 0xFFFF 0xFFFF (dArg0 desc % 16) d, refused)

/-- Port G's bytes of bay `b` are gone: a device later placed there shows none of the old contents (08 R254, R255; log entry 1). -/
def emptyBay (b : Nat) (m : Mem) (d : Dev) : Mem × Dev :=
  (m.zero (gonBase b) 0x20000000000,
   { d with ecc := { d.ecc with gonLost := cutRanges d.ecc.gonLost [(gonBase b, 0x20000000000)] } })

/-- GON_REMOVE: acknowledges a GONE bay, which dissolves the set it was a member of, or starts a managed removal that ends when the bay is EMPTY, or is refused with a
NOTE (08 R259, R260). -/
def removeBoth (c : CmdRef) : Mem → Dev → Mem × Dev :=
  runCmdLong c 0x501 fun _ desc m d =>
    let b := dArg0 desc % 4
    let y := bayAt d b
    if y.state = .gone then
      let r := if d.gon.il.elim false (fun s => s.1.contains b) then dissolve m d else (m, d)
      let r := emptyBay b r.1 r.2
      (r.1, note 0x05 (0x0804 + 4 * b) b b (countHotplug (modBay b (fun _ => Bay.reset) r.2)), some {})
    else if y.state ≠ .online ∨ placedOn d b ∨ targetOn d b then (m, note 0x05 (0x0804 + 4 * b) b b d, some refused)
    else
      let r := if d.gon.il.elim false (fun s => s.1.contains b) then dissolve m d else (m, d)
      (r.1, modBay b (fun y => { y with state := .draining, rmCmd := some (c.ring, c.tag) }) r.2, none)

/-- Requests in flight on a DRAINING bay have completed: the bay is EMPTY with a NOTE and the command completes; a latched
device is enumerated at once (08 R259). -/
def drainedBoth (b : Nat) (m : Mem) (d : Dev) : Mem × Dev :=
  let y := bayAt d b
  if y.state ≠ .draining then (m, d)
  else
    let x := emptyBay b m d
    let d := x.2
    let d := note 0x05 (0x0804 + 4 * b) b b (countHotplug (remap (modBay b (fun _ => Bay.reset) d)))
    let d := match y.restPend with
      | some dev => modBay b (fun _ => { Bay.reset with
          state := .training, switched := dev.switched, linkW := dev.linkW, gen := dev.gen, devCap := devUnits dev, restShow := true }) d
      | none => d
    (x.1, match y.rmCmd with
      | some (n, tag) => completeTag n tag 0x501 {} d
      | none => d)

/-- GON_CONFIGURE (08 R256). -/
def execGonConfigure (c : CmdRef) (s : State) : Out := onBoth (configureBoth c) s
/-- GON_REMOVE (08 R259). -/
def execGonRemove (c : CmdRef) (s : State) : Out := onBoth (removeBoth c) s
/-- GONDOLA_DEVICE_PRESENCE (08 R258). -/
def execGondolaDevicePresence (dev : CxlDev) (s : State) : Out := onDev (presenceDev dev) s
/-- BAY_TRAINING_COMPLETE (08 R258). -/
def execBayTrainingComplete (b : Nat) (ok : Bool) (s : State) : Out := onDev (bayTrainedDev b ok) s
/-- BAY_DRAIN_COMPLETE (08 R259). -/
def execBayDrainComplete (b : Nat) (s : State) : Out := onBoth (drainedBoth b) s
end Sys2Proof.Machine
end

