-- ==== Sys2Proof/Machine/Ledger.lean ====
section
/-! DEFINITION. Lagged shards: ledger status, pending gradients, and sweeps from their start to their flip (08 R261 to R268). -/

namespace Sys2Proof.Machine

/-! ## Ledger status (08 R262) -/

/-- A status copy (08 R262). -/
structure LedgerStat where
  commit : Nat
  last : Nat
  first : Nat
  count : Nat
  tackB : Bool
  sweep : Nat
  pieces : Nat
deriving DecidableEq, Repr

/-- A 64-bit value of all ones: none. -/
def ones64 : Nat := 2 ^ 64 - 1

/-- The status of a shard that has committed nothing, with its current copies (08 R262). -/
def statNew (b : Bool) : LedgerStat := ⟨0, ones64, 0, 0, b, 0, 0⟩

/-- The status copy at `a` (08 R262). -/
def statAt (m : Mem) (a : Nat) : LedgerStat :=
  let x := m.readLE a 64
  ⟨bits x 511 448, bits x 447 384, bits x 383 320, bits x 319 316, bit x 315, bits x 314 313, bits x 312 293⟩

/-- The 64 bytes of a status copy (08 R262). -/
def statBytes (s : LedgerStat) : List Byte :=
  leBytes 64 (s.commit % 2 ^ 64 * 2 ^ 448 + s.last % 2 ^ 64 * 2 ^ 384 + s.first % 2 ^ 64 * 2 ^ 320 + s.count % 16 * 2 ^ 316
    + ofBool s.tackB * 2 ^ 315 + s.sweep % 4 * 2 ^ 313 + s.pieces % 2 ^ 20 * 2 ^ 293)

/-- The address of the current copy: the one with the larger COMMIT_STEP (08 R262). -/
def statNowAt (m : Mem) (l : Ledger) : Nat :=
  if (statAt m l.status).commit < (statAt m (l.status + 64)).commit then l.status + 64 else l.status

/-- The current status of a shard (08 R262). -/
def statNow (m : Mem) (l : Ledger) : LedgerStat := statAt m (statNowAt m l)

/-- Both status copies of a shard take the same content (08 R262; 11 R351). -/
def statBoth (l : Ledger) (s : LedgerStat) (m : Mem) (d : Dev) : Mem × Dev :=
  devWrite m d l.status (statBytes s ++ statBytes s)

/-- The steps whose gradients are pending, oldest first (08 R262). -/
def pendingSteps (s : LedgerStat) : List Nat := (List.range s.count).map fun k => s.first + k

/-! ## Sweeps (08 R264, R266 to R268) -/

/-- The ranges that piece `j` of a sweep writes, by tack A address: its part of the state in the gondola tier, and its even share of the
weights (08 R261, R264; log entry 58). -/
def pieceRanges (ts : List TackEnt) (l : Ledger) (j : Nat) : List (Nat × Nat) :=
  let own := ts.filter fun t => t.cls = 1 && t.shard = l.shard
  let at_ (b : Nat) := (own.filter fun t => t.baseA = b).map fun t => (t.baseA, t.len)
  meetRanges [(l.gonA + j * l.pieceBytes, l.pieceBytes)] (at_ l.gonA)
    ++ (at_ l.wA).map fun w => (w.1 + w.2 * j / l.nPiece, w.2 * (j + 1) / l.nPiece - w.2 * j / l.nPiece)

/-- Pieces of a shard's running sweep that are written, in ascending order (08 R262, R264). -/
def piecesDone (d : Dev) (l : Ledger) : Nat :=
  let ts := ((d.plan.run).map fun r => r.body.tacks).getD []
  let ws := ((d.tack.swept.find? fun s => s.1 = l.shard).map Prod.snd).getD []
  ((List.range l.nPiece).takeWhile fun j => (cutRanges (pieceRanges ts l j) ws).isEmpty).length

/-- Every shard with a pending gradient and no sweep starts the sweep of its oldest one (08 R264). -/
def sweepsStart (m : Mem) (d : Dev) : Dev :=
  (ledgersOf d).foldl (fun d l =>
    if (sweepOf d l.shard).isNone && decide (0 < (statNow m l).count) then
      { d with tack := { d.tack with
          sweeps := d.tack.sweeps ++ [(l.shard, (statNow m l).first, 0)], swept := d.tack.swept.filter fun s => s.1 ≠ l.shard } }
    else d) d

/-- The vote finds the complete sweeps of this attempt (08 R266; 10 R310). -/
def sweepsVote (d : Dev) : Dev :=
  { d with tack := { d.tack with sweeps := d.tack.sweeps.map fun s => if s.2.2 = 1 then (s.1, s.2.1, 2) else s } }

/-- A shard's status at the commit of step `n`, with the sweep's flip when the vote found it complete (08 R262, R263, R266).
`pieces`: those the running sweep has written. -/
def statCommit (s : LedgerStat) (l : Ledger) (sw : Option (Nat × Nat)) (n pieces : Nat) : LedgerStat :=
  let flips := (sw.map Prod.snd) = some 2
  let left := s.count - ofBool flips
  { commit := n + 1
    last := if flips then (sw.map Prod.fst).getD s.last else s.last
    first := if left = 0 then n else s.first + ofBool flips
    count := left + 1
    tackB := s.tackB != flips
    sweep := match sw with
      | some (_, 0) => 1
      | some (_, 1) => 2
      | _ => 0
    pieces := match sw with
      | some (_, 0) => pieces
      | some (_, 1) => l.nPiece
      | _ => 0 }

/-- A current copy that a flip replaces: OFF, or HELD while the drain still copies it (11 R339). -/
def retireCopy (c : CopyState) : CopyState := if c = .source then .held else .off

/-- The two copies of an entry after its flip; `b`: tack B was current (11 R339). -/
def flipCopies (b : Bool) (c : CopyState × CopyState) : CopyState × CopyState :=
  if b then (.current, retireCopy c.2) else (retireCopy c.1, .current)

/-- The tack entries that satisfy `p` flip: their selectors toggle and their copies change state (11 R338, R339). -/
def flipEntries (p : TackEnt → Bool) (d : Dev) : Dev :=
  let hit := ((d.plan.run.map fun r => r.body.tacks).getD []).map p
  { d with tack := { d.tack with
      sel := (d.tack.sel.zip hit).map fun x => x.1 != x.2
      copies := ((d.tack.sel.zip d.tack.copies).zip hit).map fun x => if x.2 then flipCopies x.1.1 x.1.2 else x.1.2 } }

/-- One shard at the commit of step `n`: its status is written, and a sweep that flips turns the selectors of the shard's LAGGED
entries (08 R262, R266; 11 R338). -/
def ledgerCommit (n : Nat) (x : Mem × Dev) (l : Ledger) : Mem × Dev :=
  let sw := sweepOf x.2 l.shard
  let y := devWrite x.1 x.2 (l.status + 64 * (x.2.tack.commits % 2)) (statBytes (statCommit (statNow x.1 l) l sw n (piecesDone x.2 l)))
  if (sw.map Prod.snd) = some 2 then
    let d := flipEntries (fun t => t.cls = 1 && t.shard = l.shard) y.2
    (y.1, { d with tack := { d.tack with
        sweeps := d.tack.sweeps.filter (fun s => s.1 ≠ l.shard), swept := d.tack.swept.filter fun s => s.1 ≠ l.shard } })
  else y

/-- Every lagged shard at the commit of step `n` (08 R262). -/
def ledgersFlip (n : Nat) (m : Mem) (d : Dev) : Mem × Dev :=
  let x := (ledgersOf d).foldl (ledgerCommit n) (m, d)
  (x.1, { x.2 with tack := { x.2.tack with commits := x.2.tack.commits + 1 } })

/-- Lagged shards at a skip: a complete sweep waits for the next commit, and one whose data met an uncorrectable error starts
over, counted (08 R268). -/
def ledgersSkip (d : Dev) : Dev :=
  let hit := d.tack.sweeps.filter fun s => d.tack.bad.contains s.1
  { d with
    tack := { d.tack with
      sweeps := d.tack.sweeps.map fun s => if d.tack.bad.contains s.1 then (s.1, s.2.1, 0) else if s.2.2 = 2 then (s.1, s.2.1, 1) else s
      swept := d.tack.swept.filter fun s => !d.tack.bad.contains s.1
      bad := [] }
    gon := { d.gon with ledgerRestart := satAdd d.gon.ledgerRestart hit.length } }

/-! ## Admission, replacement and restart (08 R262, R268; 11 R338, R351) -/

/-- The ledgers of a plan that starts afresh: both status copies take their Reset values, with tack A current (08 R262). -/
def ledgersNew (m : Mem) (d : Dev) : Mem × Dev :=
  (ledgersOf d).foldl (fun x l => statBoth l (statNew false) x.1 x.2) (m, { d with tack := { d.tack with sweeps := [], bad := [], swept := [] } })

/-- The same SHARD_ID, LAG_M1, PIECE_BYTES, N_PIECE_M1 and addresses (08 R268). -/
def sameLedger (x y : Ledger) : Bool := decide ({ x with gFmt := 0, slotBytes := 0 } = { y with gFmt := 0, slotBytes := 0 })

/-- The ledgers of a plan that replaces another: a shard described as before keeps its ledger and sweep; any other starts from the
current tacks, and pending gradients are discarded with a NOTE (08 R268). -/
def ledgersReplace (old : List Ledger) (m : Mem) (d : Dev) : Mem × Dev :=
  let kept (l : Ledger) : Bool := old.any fun o => sameLedger o l
  let lost := old.filter fun o => !((ledgersOf d).any fun l => sameLedger o l)
  let d := lost.foldl (fun d o =>
    let d := { d with tack := { d.tack with
      sweeps := d.tack.sweeps.filter (fun s => s.1 ≠ o.shard), swept := d.tack.swept.filter fun s => s.1 ≠ o.shard } }
    if 0 < (statNow m o).count then note 0x05 0xFFFF 0xFFFF o.shard d else d) d
  let selOf (l : Ledger) : Bool :=
    let ts := (d.plan.run.map fun r => r.body.tacks).getD []
    match ts.findIdx? fun t => t.cls = 1 && t.shard = l.shard with
    | some i => (d.tack.sel[i]?).getD false
    | none => false
  (ledgersOf d).foldl (fun x l => if kept l then x else statBoth l (statNew (selOf l)) x.1 x.2) (m, d)

/-! ## Commands -/

/-- Every piece of a shard's running sweep is written. -/
def sweepWhole (d : Dev) (shard : Nat) : Bool := (ledgersOf d).any fun l => l.shard = shard && piecesDone d l = l.nPiece

/-- Every piece's writes of a running sweep are acknowledged: the sweep awaits its flip, and what readiness waited for is not repeated
(08 R264, R267). -/
def sweepCompleteDev (shard : Nat) (d : Dev) : Dev :=
  if !sweepWhole d shard then d
  else
    let held := readinessHeld d
    let d := { d with tack := { d.tack with
      sweeps := d.tack.sweeps.map fun s => if s.1 = shard && s.2.2 = 0 then (s.1, s.2.1, 1) else s } }
    if held && !readinessHeld d then
      modRun (fun r =>
        let rest := r.sweepSlots.filter fun q => !r.issued.contains q
        { r with issued := r.issued ++ rest, done := r.done ++ rest }) d
    else d

/-- SWEEP_COMPLETE (08 R264). -/
def execSweepComplete (shard : Nat) (s : State) : Out := onDev (sweepCompleteDev shard) s

end Sys2Proof.Machine
end

