-- ==== Sys2Proof/Machine/SolveMath.lean ====
section
/-! DEFINITION. The arithmetic of the sparse solver: its structure image, the effective matrix and its product (06 R192 to R196, R205), the
preconditioners (06 R211, R212), and the four methods (06 R208 to R210). Everything works on codes of the solver's precision; scalars of
the global reductions are FP64. Log entry 60 names the orders of rounding that the manual leaves open. -/

namespace Sys2Proof.Machine

/-! ## The structure image (06 R193, R194) -/

/-- Rounds up to 256 bytes. -/
def up256 (n : Nat) : Nat := ceilDiv n 256 * 256

/-- Bytes of a structure image, each section rounded up to 256 (06 R196). -/
def structBytes (h : StructHdr) : Nat :=
  256 + up256 (8 * h.nblk) + up256 (8 * h.ngs) + up256 (4 * h.nbrl) + up256 (4 * h.nsrl) + up256 (16 * h.nlev) + up256 (32 * h.nnb)
    + up256 (4 * h.nsend)

/-- The tables of a structure image (06 R194): blocks as (BI, BJ), entries as (ROW, COL, PAD), the two row lists, levels, halo records
and the send list. -/
structure Struct where
  blocks : List (Nat × Nat)
  entries : List (Nat × Nat × Bool)
  blockRows : List Nat
  scalarRows : List Nat
  levels : List Nat
  halo : List Nat
  send : List Nat

/-- Starts of the sections of a structure image (06 R194). -/
def sectionsOf (h : StructHdr) (a : Nat) : List Nat :=
  ([8 * h.nblk, 8 * h.ngs, 4 * h.nbrl, 4 * h.nsrl, 16 * h.nlev, 32 * h.nnb].foldl
    (fun (o : List Nat) n => o ++ [(o.getLast?).getD 0 + up256 n]) [a + 256])

/-- Reads a structure image (06 R194). -/
def structRead (m : Mem) (h : StructHdr) (a : Nat) : Struct :=
  let s (i : Nat) : Nat := ((sectionsOf h a)[i]?).getD 0
  { blocks := (tableAt m (s 0) 8 h.nblk).map fun e => (bits e 63 44, bits e 43 23)
    entries := (tableAt m (s 1) 8 h.ngs).map fun e => (bits e 63 38, bits e 37 12, bit e 0)
    blockRows := tableAt m (s 2) 4 h.nbrl
    scalarRows := tableAt m (s 3) 4 h.nsrl
    levels := tableAt m (s 4) 16 h.nlev
    halo := tableAt m (s 5) 32 h.nnb
    send := tableAt m (s 6) 4 h.nsend }

/-- A level's part of the block-row list (06 R194). -/
def Struct.levelBlocks (t : Struct) (l : Nat) : List Nat := (t.blockRows.drop (bits l 127 96)).take (bits l 95 64)

/-- A level's part of the scalar-row list (06 R194). -/
def Struct.levelRows (t : Struct) (l : Nat) : List Nat := (t.scalarRows.drop (bits l 63 32)).take (bits l 31 0)

/-- Fields of a halo record (06 R194). -/
structure Halo where
  rank : Nat
  tallyIn : Nat
  tallyOut : Nat
  sendFirst : Nat
  sendCount : Nat
  recvFirst : Nat
  recvCount : Nat
  pstride : Nat
  remote : Nat

/-- A halo record read from its word (06 R194). -/
def haloOf (e : Nat) : Halo :=
  ⟨bits e 255 240, bits e 239 224, bits e 223 208, bits e 207 176, bits e 175 144, bits e 143 112, bits e 111 80, bits e 79 48, bits e 47 0⟩

/-! ## Words -/

/-- `n` codes of `w` bytes each. -/
def codesOf (w : Nat) : Nat → List Byte → List Nat
  | 0, _ => []
  | n + 1, bs => leNat (bs.take w) :: codesOf w n (bs.drop w)

/-- `k` rows of `n`. -/
def rowsOf {α : Type} (n : Nat) : Nat → List α → List (List α)
  | 0, _ => []
  | k + 1, xs => xs.take n :: rowsOf n k (xs.drop n)

/-- Bytes of codes of `w` bytes each. -/
def codeBytes (w : Nat) (xs : List Nat) : List Byte := xs.flatMap (leBytes w)

/-- An FP64 code in the solver's precision. -/
def toPrec (wide : Bool) (c : Nat) : Nat := if wide then c else narrow c

/-- A code of the solver's precision, widened exactly to FP64 (06 R205). -/
def toWide (wide : Bool) (c : Nat) : Nat := if wide then c else widen c

/-- The rows of an array's columns: `c` columns of a matrix as rows. -/
def flipped (c : Nat) (a : Block2) : Block2 := (List.range c).map fun j => a.map fun r => (r[j]?).getD 0

/-- One element of a product on the block path: a chain of multiply-adds in the accumulator of its precision, drained to it (02 R52,
R53; 06 R205). -/
def chain (wide : Bool) (xs ys : List Nat) : Nat :=
  if wide then (xs.zip ys).foldl (fun acc p => op3 true Num.fma p.1 p.2 acc) 0 else macChain xs ys

/-- A · Bᵀ on the arrays, rows against rows. -/
def mulT (wide : Bool) (a bt : Block2) : Block2 := a.map fun r => bt.map (chain wide r)

/-- a − b, entry by entry. -/
def minus (wide : Bool) (a b : List Nat) : List Nat := List.zipWith (op2 wide fun x y => x.add y.neg) a b

/-- a·x + y. -/
def axpy (wide : Bool) (a : Nat) (xs ys : List Nat) : List Nat := List.zipWith (op3 wide Num.fma a) xs ys

/-- y − a·x. -/
def axmy (wide : Bool) (a : Nat) (xs ys : List Nat) : List Nat := List.zipWith (op3 wide Num.fnma a) xs ys

/-- a·x. -/
def scaled (wide : Bool) (a : Nat) (xs : List Nat) : List Nat := xs.map (op2 wide Num.mul a)

/-- This chip's FP64 partial of a dot product: products of the widened values by the fixed tree (06 R205). -/
def partialDot (wide : Bool) (xs ys : List Nat) : Nat := dotTree true (xs.map (toWide wide)) (ys.map (toWide wide))

/-- `xs` with the words from `i` replaced by `ys`. -/
def splice (i : Nat) (ys xs : List Nat) : List Nat := xs.take i ++ ys ++ xs.drop (i + ys.length)

/-! ## The effective matrix (06 R196, R205) -/

/-- Values at the places of a pattern: dense blocks by block row and column, scattered entries by row and column. -/
structure Pattern where
  blocks : List ((Nat × Nat) × Block2)
  entries : List ((Nat × Nat) × Nat)

/-- The value at row `i`, column `j`; none outside the pattern. -/
def Pattern.at (p : Pattern) (i j : Nat) : Option Nat :=
  match p.blocks.find? fun b => b.1 = (i / 32, j / 32) with
  | some b => some (entry b.2 (i % 32) (j % 32))
  | none => (p.entries.find? fun e => e.1 = (i, j)).map Prod.snd

/-- A matrix as the solver uses it: A = s·V + d·I (06 R196). -/
structure Matrix where
  wide : Bool
  nloc : Nat
  v : Pattern
  s : Nat
  d : Nat

/-- The values image over a structure: padding entries contribute nothing (06 R194, R196). -/
def patternOf (t : Struct) (w : Nat) (blocks entries : List Byte) : Pattern :=
  { blocks := t.blocks.zip ((rowsOf 1024 t.blocks.length (codesOf w (1024 * t.blocks.length) blocks)).map (rowsOf 32 32))
    entries := ((t.entries.zip (codesOf w t.entries.length entries)).filter fun e => !e.1.2.2).map fun e => ((e.1.1, e.1.2.1), e.2) }

/-- The value of A at (i, j), with s and d applied (06 R196). -/
def Matrix.at (a : Matrix) (i j : Nat) : Option Nat :=
  (a.v.at i j).map fun v => if i = j then op3 a.wide Num.fma a.s v a.d else op2 a.wide Num.mul a.s v

/-- Element `i` of y = A·x: the dense blocks of the row in ascending block column, then its scattered entries in list order, each one
FMA, and last s·y + d·x by one FMA (06 R205). -/
def Matrix.mulRow (a : Matrix) (x : List Nat) (i : Nat) : Nat :=
  let bs := (a.v.blocks.filter fun b => b.1.1 = i / 32).map fun b => chain a.wide ((x.drop (32 * b.1.2)).take 32) ((b.2[i % 32]?).getD [])
  let y := match bs with
    | [] => 0
    | b :: bs => bs.foldl (op2 a.wide Num.add) b
  let y := (a.v.entries.filter fun e => e.1.1 = i).foldl (fun y e => op3 a.wide Num.fma e.2 ((x[e.1.2]?).getD 0) y) y
  op3 a.wide Num.fma a.s y (op2 a.wide Num.mul a.d ((x[i]?).getD 0))

/-- y = A·x; `x` holds the local unknowns and the halo copies after them (06 R192, R205). -/
def Matrix.mul (a : Matrix) (x : List Nat) : List Nat := (List.range a.nloc).map (a.mulRow x)

/-! ## Preconditioners (06 R211, R212) -/

/-- A pivot outside the pivot stage, substituted as R140 says for LU: `m` is the largest magnitude divided by it (06 R212). -/
def barePivot (wide : Bool) (t : Num) (m : Num) (w : Nat) : Nat × Bool := pivotOf (typeOf wide) .lu t m w

/-- The threshold PIV_T, rounded to the precision (06 R202, R212). -/
def pivThresh (wide : Bool) (t : W64) : Num := thresh (typeOf wide) (toPrec wide t.toNat)

/-- The diagonal inverse and the substitutions it took (06 R211, R212). -/
def diagInverse (a : Matrix) (t : Num) : List Nat × Nat :=
  let ps := (List.range a.nloc).map fun i => barePivot a.wide t (.fin false 1 0) ((a.at i i).getD 0)
  (ps.map fun p => op2 a.wide Num.div (codeIn a.wide (.fin false 1 0)) p.1, ps.foldl (fun n p => n + ofBool p.2) 0)

/-- A unit of elimination: its first row and its number of rows, 32 for a block row and 1 for a scalar row (06 R194). -/
abbrev Elim := Nat × Nat

/-- The units of a structure, level by level (06 R194, R211). -/
def unitsOf (t : Struct) : List Elim :=
  t.levels.flatMap fun l => (t.levelBlocks l).map (fun i => (32 * i, 32)) ++ (t.levelRows l).map fun r => (r, 1)

/-- The tile of rows `u` and columns `v`; none where the pattern holds nothing of it. -/
def tileAt (f : Nat → Nat → Option Nat) (u v : Elim) : Option Block2 :=
  let rs := (List.range u.2).map fun i => (List.range v.2).map fun j => f (u.1 + i) (v.1 + j)
  if rs.any (·.any Option.isSome) then some (rs.map (·.map (·.getD 0))) else none

/-- A tile with zeros outside the pattern: no fill (06 R211). -/
def noFill (f : Nat → Nat → Option Nat) (u v : Elim) (b : Block2) : Block2 :=
  b.zipIdx.map fun r => r.1.zipIdx.map fun w => if (f (u.1 + r.2) (v.1 + w.2)).isSome then w.1 else 0

/-- A factorisation under way: the tiles of its factors, the inverses of its dense diagonal blocks by first row, the units done, and the
substitutions. -/
structure Factor where
  tiles : List ((Elim × Elim) × Block2)
  inv : List (Nat × List Block2)
  done : List Elim
  count : Nat

/-- A tile of the factors. -/
def Factor.tile (o : Factor) (u v : Elim) : Option Block2 := (o.tiles.find? fun t => t.1 = (u, v)).map Prod.snd

/-- A tile less the products of the units done: `l w` times `r w` transposed, in their order (06 R211). -/
def reduceTile (wide : Bool) (l r : Elim → Option Block2) (ws : List Elim) (s : Block2) : Block2 :=
  ws.foldl (fun s w => match l w, r w with
    | some x, some y => List.zipWith (minus wide) s (mulT wide x y)
    | _, _ => s) s

/-- The largest finite magnitude of tiles (04 R140). -/
def tileMax (wide : Bool) (bs : List Block2) : Num :=
  (bs.flatMap List.flatten).foldl (fun m w => magMax m ((typeOf wide).fmt.decode w)) (.zero false)

/-- Rows of a tile, each element divided by `p`. -/
def tileDiv (wide : Bool) (p : Nat) (b : Block2) : Block2 := b.map (·.map fun w => op2 wide Num.div w p)

/-- One unit of IC(0): its column of the lower factor (06 R211). -/
def icStep (wide : Bool) (t : Num) (f : Nat → Nat → Option Nat) (us : List Elim) (o : Factor) (u : Elim) : Factor :=
  let s (v : Elim) : Option Block2 :=
    (tileAt f v u).map fun b => noFill f v u (reduceTile wide (o.tile v) (o.tile u) o.done b)
  let below := us.filterMap fun v => if u.1 < v.1 then (s v).map fun b => (v, b) else none
  let diag := (s u).getD []
  let put (l : Block2) (inv : List (Nat × List Block2)) (col : Block2 → Block2) (n : Nat) : Factor :=
    ⟨o.tiles ++ ((u, u), l) :: below.map (fun v => ((v.1, u), noFill f v.1 u (col v.2))), o.inv ++ inv, o.done ++ [u], o.count + n⟩
  if u.2 = 32 then
    let k := typeOf wide
    let c := pivBlock k .chol 32 t diag
    let i := pivBlock k .trinv 32 t c.a
    put (lower c.a) [(u.1, [lower i.a])] (fun b => mulT wide b (lower i.a)) (c.count + i.count)
  else
    let p := barePivot wide t (tileMax wide (below.map Prod.snd)) (entry diag 0 0)
    let l := op1 wide Num.sqrt p.1
    put [[l]] [] (tileDiv wide l) (ofBool p.2)

/-- The unit lower triangle of an LU block. -/
def unitLower (wide : Bool) (a : Block2) : Block2 :=
  matMap (fun i j w => if j < i then w else if i = j then codeIn wide (.fin false 1 0) else 0) a

/-- The upper triangle of a block. -/
def upper (a : Block2) : Block2 := matMap (fun i j w => if i ≤ j then w else 0) a

/-- One unit of ILU(0): its column of L and its row of U (06 R211). -/
def iluStep (wide : Bool) (t : Num) (f : Nat → Nat → Option Nat) (us : List Elim) (o : Factor) (u : Elim) : Factor :=
  let flip (w : Elim) (b : Block2) : Block2 := flipped w.2 b
  let s (v w : Elim) : Option Block2 :=
    (tileAt f v w).map fun b => noFill f v w (reduceTile wide (o.tile v) (fun x => (o.tile x w).map (flip w)) o.done b)
  let below := us.filterMap fun v => if u.1 < v.1 then (s v u).map fun b => (v, b) else none
  let right := us.filterMap fun v => if u.1 < v.1 then (s u v).map fun b => (v, b) else none
  let diag := (s u u).getD []
  let put (lu : Block2) (inv : List (Nat × List Block2)) (col row : Elim → Block2 → Block2) (n : Nat) : Factor :=
    ⟨o.tiles ++ ((u, u), lu) :: (below.map (fun v => ((v.1, u), noFill f v.1 u (col v.1 v.2)))
        ++ right.map fun v => ((u, v.1), noFill f u v.1 (row v.1 v.2))), o.inv ++ inv, o.done ++ [u], o.count + n⟩
  if u.2 = 32 then
    let k := typeOf wide
    let c := pivBlock k .lu 32 t diag
    let il := pivBlock k .trinv 32 t (unitLower wide c.a)
    let iu := pivBlock k .trinv 32 t (flipped 32 (upper c.a))
    let li := lower il.a
    let ut := lower iu.a
    put c.a [(u.1, [li, flipped 32 ut])] (fun _ b => mulT wide b ut) (fun v b => mulT wide li (flip v b))
      (c.count + il.count + iu.count)
  else
    let p := barePivot wide t (tileMax wide (below.map Prod.snd)) (entry diag 0 0)
    put [[p.1]] [] (fun _ b => tileDiv wide p.1 b) (fun _ b => b) (ofBool p.2)

/-- The values of A with local columns; for IC(0) of the lower part only (06 R192, R211). -/
def Matrix.inner (a : Matrix) (low : Bool) (i j : Nat) : Option Nat :=
  if decide (j < a.nloc) && (!low || decide (j ≤ i)) then a.at i j else none

/-- IC(0) (`low`) or ILU(0) of A, level by level (06 R211). -/
def factorise (a : Matrix) (low : Bool) (t : Num) (us : List Elim) : Factor :=
  us.foldl (if low then icStep a.wide t (a.inner true) us else iluStep a.wide t (a.inner false) us) ⟨[], [], [], 0⟩

/-- The factors' value at (i, j). -/
def Factor.at (o : Factor) (i j : Nat) : Nat :=
  match o.tiles.find? fun t => decide (t.1.1.1 ≤ i ∧ i < t.1.1.1 + t.1.1.2 ∧ t.1.2.1 ≤ j ∧ j < t.1.2.1 + t.1.2.2) with
  | some t => entry t.2 (i - t.1.1.1) (j - t.1.2.1)
  | none => 0

/-- The dense blocks of the local pattern, or of its lower part (06 R211). -/
def localBlocks (t : Struct) (nloc : Nat) (low : Bool) : List (Nat × Nat) :=
  t.blocks.filter fun b => decide (b.2 < nloc / 32) && (!low || decide (b.2 ≤ b.1))

/-- The scattered entries of the local pattern, or of its lower part (06 R211). -/
def localEntries (t : Struct) (nloc : Nat) (low : Bool) : List (Nat × Nat) :=
  (t.entries.filter fun e => !e.2.2 && decide (e.2.1 < nloc) && (!low || decide (e.2.1 ≤ e.1))).map fun e => (e.1, e.2.1)

/-- The codes of a slot of IC(0) or ILU(0): the pattern's values as the values image orders them, then the inverses by block-row list (06
R211; log entry 60). -/
def factorCodes (t : Struct) (nloc : Nat) (low : Bool) (o : Factor) : List Nat :=
  ((localBlocks t nloc low).flatMap fun b => (List.range 32).flatMap fun i => (List.range 32).map fun j => o.at (32 * b.1 + i) (32 * b.2 + j))
    ++ ((localEntries t nloc low).map fun e => o.at e.1 e.2)
    ++ t.blockRows.flatMap fun b => (((o.inv.find? fun x => x.1 = 32 * b).map Prod.snd).getD []).flatMap List.flatten

/-- The codes of a Block-Jacobi slot, the inverses of the dense diagonal blocks by block-row list, and the substitutions (06 R211, R212). -/
def blockInverses (a : Matrix) (t : Num) (rows : List Nat) : List Nat × Nat :=
  rows.foldl (fun o b =>
    let s := pivBlock (typeOf a.wide) .gjinv 32 t ((List.range 32).map fun i => (List.range 32).map fun j => (a.at (32 * b + i) (32 * b + j)).getD 0)
    (o.1 ++ s.a.flatten, o.2 + s.count)) ([], 0)

/-- A preconditioner as a solve applies it: PRECOND, the diagonal inverse, the factors' pattern, the inverses by first row, and the units
(06 R211). -/
structure Precond where
  kind : Nat
  diag : List Nat
  pat : Pattern
  inv : List (Nat × List Block2)
  units : List Elim

/-- Reads a slot of a preconditioner from its codes (06 R211). -/
def precondOf (kind : Nat) (t : Struct) (nloc : Nat) (diag codes : List Nat) : Precond :=
  let low := decide (kind = 3)
  let bs := if kind = 2 then [] else localBlocks t nloc low
  let es := if kind = 2 then [] else localEntries t nloc low
  let per := if kind = 4 then 2 else 1
  let rest := codes.drop (1024 * bs.length + es.length)
  { kind := kind, diag := diag
    pat := ⟨bs.zip ((rowsOf 1024 bs.length codes).map (rowsOf 32 32)), es.zip (codes.drop (1024 * bs.length))⟩
    inv := t.blockRows.zipIdx.map fun b => (32 * b.1, (rowsOf 1024 per (rest.drop (1024 * per * b.2))).map (rowsOf 32 32))
    units := unitsOf t }

/-- Inverse `k` of the dense diagonal block at row `r`. -/
def Precond.invAt (p : Precond) (r k : Nat) : Block2 := (((p.inv.find? fun x => x.1 = r).map Prod.snd).getD [])[k]?.getD []

/-- A tile times a part of a vector. -/
def tileVec (wide : Bool) (b : Block2) (x : List Nat) : List Nat := b.map (chain wide x)

/-- The part of a vector that belongs to a unit. -/
def partOf (u : Elim) (x : List Nat) : List Nat := (x.drop u.1).take u.2

/-- The forward sweep: units in ascending level, each after those before it (06 R211). -/
def Precond.forward (p : Precond) (wide : Bool) (r : List Nat) : List Nat :=
  p.units.foldl (fun y u =>
    let s := p.units.foldl (fun s w => if w.1 < u.1 then
      match tileAt p.pat.at u w with
      | some b => minus wide s (tileVec wide b (partOf w y))
      | none => s else s) (partOf u r)
    let z := if u.2 = 32 then tileVec wide (p.invAt u.1 0) s
      else if p.kind = 3 then s.map fun w => op2 wide Num.div w ((p.pat.at u.1 u.1).getD 0)
      else s
    splice u.1 z y) (r.map fun _ => 0)

/-- The backward sweep: units in descending level (06 R211). -/
def Precond.backward (p : Precond) (wide : Bool) (y : List Nat) : List Nat :=
  p.units.reverse.foldl (fun z u =>
    let s := p.units.reverse.foldl (fun s w => if u.1 < w.1 then
      match if p.kind = 3 then (tileAt p.pat.at w u).map (flipped u.2) else tileAt p.pat.at u w with
      | some b => minus wide s (tileVec wide b (partOf w z))
      | none => s else s) (partOf u y)
    let x := if u.2 = 32 then tileVec wide (if p.kind = 3 then flipped 32 (p.invAt u.1 0) else p.invAt u.1 1) s
      else s.map fun w => op2 wide Num.div w ((p.pat.at u.1 u.1).getD 0)
    splice u.1 x z) (y.map fun _ => 0)

/-- pre(r) (06 R209, R211). -/
def Precond.apply (p : Precond) (wide : Bool) (r : List Nat) : List Nat :=
  match p.kind with
  | 0 => r
  | 1 => List.zipWith (op2 wide Num.mul) p.diag r
  | 2 =>
    p.inv.foldl (fun z b => splice b.1 (tileVec wide ((b.2[0]?).getD []) ((r.drop b.1).take 32)) z)
      (List.zipWith (op2 wide Num.mul) p.diag r)
  | _ => p.backward wide (p.forward wide r)

/-! ## Products and reductions of a job (06 R207, R208) -/

/-- What other chips give a solve as it runs: halo words by product, partials of the other ranks by reduction; the receive areas of both
parities; this chip's rank and the job's ranks; the products begun and the vectors they multiplied; a global scalar was not finite. -/
structure Net where
  halos : List (List Nat)
  areas : List (List Nat)
  reds : List (List (Nat × List Nat))
  rank : Nat
  ranks : Nat
  sent : List (List Nat)
  bad : Bool

/-- Product n: the multiplied vector is sent, the halo of its parity is taken (06 R207). -/
def Net.mul (a : Matrix) (x : List Nat) (t : Net) : List Nat × Net :=
  let n := t.sent.length
  let h := (t.halos[n]?).getD ((t.areas[n % 2]?).getD [])
  (a.mul (x ++ h), { t with sent := t.sent ++ [x] })

/-- An FP64 code is finite. -/
def finite64 (c : Nat) : Bool :=
  match fp64.decode c with
  | .fin .. => true
  | _ => false

/-- A global reduction of FP64 partials, in ascending rank order (06 R208; 09 R293). -/
def Net.reduce (own : List Nat) (t : Net) : List Nat × Net :=
  let others := (t.reds.head?).getD []
  let ps := (List.range (max t.ranks (t.rank + 1))).filterMap fun k =>
    if k = t.rank then some own else (others.find? fun p => p.1 = k).map Prod.snd
  let s := match ps with
    | [] => own
    | p :: ps => ps.foldl (List.zipWith (op2 true Num.add)) p
  (s, { t with reds := t.reds.drop 1, bad := t.bad || s.any fun c => !finite64 c })

/-! ## Methods (06 R209, R210) -/

/-- A solve under way: x, the method's other vectors, its scalars, and for GMRES the rotated columns, the rotations and g. -/
structure Work where
  x : List Nat
  vs : List (List Nat)
  sc : List Nat
  cols : List (List Nat)
  rots : List (Nat × Nat)
  g : List Nat
  net : Net

/-- What a solve works with: matrix, preconditioner, b, METHOD, m, and the bounds widened to FP64 (06 R202, R209). -/
structure Sys where
  a : Matrix
  p : Precond
  b : List Nat
  method : Nat
  gm : Nat
  lmin : Nat
  lmax : Nat

/-- What one iteration gave: the work after it, the norm it notes, and the flags BREAKDOWN and exact (06 R209, R210). -/
structure Turn where
  w : Work
  norm : Nat
  brk : Bool
  exact : Bool

/-- FP64 arithmetic of the scalars. -/
def mul64 (a b : Nat) : Nat := op2 true Num.mul a b
/-- FP64 quotient. -/
def div64 (a b : Nat) : Nat := op2 true Num.div a b
/-- FP64 difference. -/
def sub64 (a b : Nat) : Nat := op2 true (fun x y => x.add y.neg) a b
/-- FP64 root. -/
def sqrt64 (a : Nat) : Nat := op1 true Num.sqrt a
/-- An FP64 code is zero. -/
def zero64 (c : Nat) : Bool := (fp64.decode c).isZero
/-- An FP64 code is zero or below. -/
def atMost0 (c : Nat) : Bool := zero64 c || (fp64.decode c).lt (Num.zero false)

/-- pre(·) of a system. -/
def Sys.pre (y : Sys) (r : List Nat) : List Nat := y.p.apply y.a.wide r

/-- This chip's partial of a dot product. -/
def Sys.dot (y : Sys) (u v : List Nat) : Nat := partialDot y.a.wide u v

/-- An FP64 scalar as a vector operation takes it. -/
def Sys.lit (y : Sys) (c : Nat) : Nat := toPrec y.a.wide c

/-- Vector `i` of the method. -/
def Work.vec (w : Work) (i : Nat) : List Nat := (w.vs[i]?).getD []

/-- Scalar `i` of the method. -/
def Work.scal (w : Work) (i : Nat) : Nat := (w.sc[i]?).getD 0

/-- r = b − A·x (06 R209). -/
def Sys.residual (y : Sys) (x : List Nat) (t : Net) : List Nat × Net :=
  let q := t.mul y.a x
  (minus y.a.wide y.b q.1, q.2)

/-- CG before its first iteration: vectors r, z, p, q and scalar rho (06 R209). -/
def cgBegin (y : Sys) (x : List Nat) (t : Net) : Work × Nat :=
  let r := y.residual x t
  let z := y.pre r.1
  let g := r.2.reduce [y.dot r.1 z, y.dot r.1 r.1]
  (⟨x, [r.1, z, z, []], [(g.1[0]?).getD 0], [], [], [], g.2⟩, sqrt64 ((g.1[1]?).getD 0))

/-- One iteration of CG (06 R209, R210). -/
def cgStep (y : Sys) (w : Work) : Turn :=
  let wide := y.a.wide
  let p := w.vec 2
  let q := w.net.mul y.a p
  let pq := q.2.reduce [y.dot p q.1]
  let d := (pq.1[0]?).getD 0
  if atMost0 d then ⟨{ w with vs := [w.vec 0, w.vec 1, p, q.1], net := pq.2 }, 0, true, false⟩
  else
    let al := y.lit (div64 (w.scal 0) d)
    let x := axpy wide al p w.x
    let r := axmy wide al q.1 (w.vec 0)
    let z := y.pre r
    let g := pq.2.reduce [y.dot r z, y.dot r r]
    let rho := (g.1[0]?).getD 0
    ⟨{ w with x := x, vs := [r, z, axpy wide (y.lit (div64 rho (w.scal 0))) p z, q.1], sc := [rho], net := g.2 },
      sqrt64 ((g.1[1]?).getD 0), false, false⟩

/-- BiCGStab before its first iteration: vectors r, rh, p, ph, v, s, sh, t and scalar rho (06 R209). -/
def bicgBegin (y : Sys) (x : List Nat) (t : Net) : Work × Nat :=
  let r := y.residual x t
  let g := r.2.reduce [y.dot r.1 r.1, y.dot r.1 r.1]
  (⟨x, [r.1, r.1, r.1, [], [], [], [], []], [(g.1[0]?).getD 0], [], [], [], g.2⟩, sqrt64 ((g.1[1]?).getD 0))

/-- One iteration of BiCGStab (06 R209, R210). -/
def bicgStep (y : Sys) (w : Work) : Turn :=
  let wide := y.a.wide
  let r := w.vec 0
  let rh := w.vec 1
  let p := w.vec 2
  let ph := y.pre p
  let v := w.net.mul y.a ph
  let g0 := v.2.reduce [y.dot rh v.1]
  let d0 := (g0.1[0]?).getD 0
  let stop (t : Net) (vs : List (List Nat)) : Turn := ⟨{ w with vs := [r, rh, p, ph] ++ vs, net := t }, 0, true, false⟩
  if zero64 d0 then stop g0.2 [v.1, w.vec 5, w.vec 6, w.vec 7]
  else
    let al := div64 (w.scal 0) d0
    let s := axmy wide (y.lit al) v.1 r
    let sh := y.pre s
    let t := g0.2.mul y.a sh
    let g1 := t.2.reduce [y.dot t.1 s, y.dot t.1 t.1]
    let ts := (g1.1[0]?).getD 0
    let tt := (g1.1[1]?).getD 0
    let om := div64 ts tt
    if zero64 tt || zero64 om then stop g1.2 [v.1, s, sh, t.1]
    else
      let x := axpy wide (y.lit om) sh (axpy wide (y.lit al) ph w.x)
      let r' := axmy wide (y.lit om) t.1 s
      let g2 := g1.2.reduce [y.dot rh r', y.dot r' r']
      let rho := (g2.1[0]?).getD 0
      let be := mul64 (div64 rho (w.scal 0)) (div64 al om)
      ⟨{ w with x := x, vs := [r', rh, axpy wide (y.lit be) (axmy wide (y.lit om) v.1 p) r', ph, v.1, s, sh, t.1], sc := [rho], net := g2.2 },
        sqrt64 ((g2.1[1]?).getD 0), false, false⟩

/-- A cycle of GMRES begins: vectors w, v1 and on (06 R209). -/
def gmBegin (y : Sys) (x : List Nat) (t : Net) : Work × Nat :=
  let r := y.residual x t
  let g := r.2.reduce [y.dot r.1 r.1]
  let be := sqrt64 ((g.1[0]?).getD 0)
  (⟨x, [r.1, r.1.map fun c => op2 y.a.wide Num.div c (y.lit be)], [], [], [], [be], g.2⟩, be)

/-- A rotation on two neighbours of a column (06 R209). -/
def rotate (c s a b : Nat) : Nat × Nat := (op3 true Num.fma c a (mul64 s b), op3 true Num.fnma s a (mul64 c b))

/-- The rotations so far on a column, from its first place (06 R209). -/
def rotateAll : List (Nat × Nat) → List Nat → List Nat
  | k :: ks, a :: b :: xs =>
    let r := rotate k.1 k.2 a b
    r.1 :: rotateAll ks (r.2 :: xs)
  | _, xs => xs

/-- One inner step of GMRES: Gram-Schmidt twice, then the Givens rotations of its column (06 R209, R210). -/
def gmStep (y : Sys) (w : Work) : Turn :=
  let wide := y.a.wide
  let basis := w.vs.drop 1
  let a := w.net.mul y.a (y.pre ((basis.getLast?).getD []))
  let less (hs : List Nat) (u : List Nat) : List Nat := (basis.zip hs).foldl (fun u v => axmy wide (y.lit v.2) v.1 u) u
  let h1 := a.2.reduce (basis.map fun v => y.dot v a.1)
  let w1 := less h1.1 a.1
  let h2 := h1.2.reduce (basis.map fun v => y.dot v w1)
  let w2 := less h2.1 w1
  let g := h2.2.reduce [y.dot w2 w2]
  let hn := sqrt64 ((g.1[0]?).getD 0)
  let col := rotateAll w.rots (List.zipWith (op2 true Num.add) h1.1 h2.1)
  let e := (col.getLast?).getD 0
  let den := sqrt64 (op3 true Num.fma e e (mul64 hn hn))
  let c := div64 e den
  let s := div64 hn den
  let gl := (w.g.getLast?).getD 0
  let gs := w.g.dropLast ++ [mul64 c gl, negCode true (mul64 s gl)]
  ⟨{ w with vs := w2 :: basis ++ [w2.map fun q => op2 wide Num.div q (y.lit hn)], cols := w.cols ++ [col.dropLast ++ [den]]
            rots := w.rots ++ [(c, s)], g := gs, net := g.2 },
    op1 true (fun x => (x.mag, 0)) (mul64 s gl), false, zero64 hn⟩

/-- The triangular system of GMRES, from its last row up (06 R209). -/
def backSolve (cols : List (List Nat)) (g : List Nat) : List Nat :=
  (List.range cols.length).reverse.foldl (fun ys k =>
    let r (l : Nat) : Nat := (((cols[l]?).getD [])[k]?).getD 0
    let s := (ys.zipIdx.map fun y => (y.1, r (k + 1 + y.2))).foldl (fun s y => op3 true Num.fnma y.2 y.1 s) ((g[k]?).getD 0)
    div64 s (r k) :: ys) []

/-- GMRES forms x at the end of a cycle or where it stops (06 R209). -/
def gmForm (y : Sys) (w : Work) : Work :=
  let wide := y.a.wide
  let ys := backSolve w.cols w.g
  let v := ((w.vs.drop 1).zip ys).foldl (fun u p => axpy wide (y.lit p.2) p.1 u) (w.x.map fun _ => 0)
  { w with x := axpy wide (codeIn wide (.fin false 1 0)) (y.pre v) w.x }

/-- th, de and sg of Chebyshev (06 R209). -/
def chebScal (y : Sys) : Nat × Nat × Nat :=
  let two := codeIn true (.ofInt 2)
  let th := div64 (op2 true Num.add y.lmax y.lmin) two
  let de := div64 (sub64 y.lmax y.lmin) two
  (th, de, div64 th de)

/-- Chebyshev before its first iteration: vectors r, d, z and scalar rh (06 R209). -/
def chebBegin (y : Sys) (x : List Nat) (t : Net) : Work × Nat :=
  let k := chebScal y
  let r := y.residual x t
  let g := r.2.reduce [y.dot r.1 r.1]
  let z := y.pre r.1
  (⟨x, [r.1, z.map fun c => op2 y.a.wide Num.div c (y.lit k.1), z], [div64 (codeIn true (.ofInt 1)) k.2.2], [], [], [], g.2⟩,
    sqrt64 ((g.1[0]?).getD 0))

/-- One iteration of Chebyshev (06 R209). -/
def chebStep (y : Sys) (w : Work) : Turn :=
  let wide := y.a.wide
  let k := chebScal y
  let two := codeIn true (.ofInt 2)
  let d := w.vec 1
  let x := axpy wide (codeIn wide (.fin false 1 0)) d w.x
  let q := w.net.mul y.a d
  let r := minus wide (w.vec 0) q.1
  let g := q.2.reduce [y.dot r r]
  let rh := div64 (codeIn true (.ofInt 1)) (sub64 (mul64 two k.2.2) (w.scal 0))
  let z := y.pre r
  let d' := axpy wide (y.lit (mul64 rh (w.scal 0))) d (scaled wide (y.lit (div64 (mul64 two rh) k.2.1)) z)
  ⟨{ w with x := x, vs := [r, d', z], sc := [rh], net := g.2 }, sqrt64 ((g.1[0]?).getD 0), false, false⟩

/-- A method before its first iteration: its work and the norm of the starting iterate (06 R209). -/
def Sys.begin (y : Sys) (x : List Nat) (t : Net) : Work × Nat :=
  match y.method with
  | 0 => cgBegin y x t
  | 1 => bicgBegin y x t
  | 2 => gmBegin y x t
  | _ => chebBegin y x t

/-- One iteration of a method (06 R209). -/
def Sys.turn (y : Sys) (w : Work) : Turn :=
  match y.method with
  | 0 => cgStep y w
  | 1 => bicgStep y w
  | 2 => gmStep y w
  | _ => chebStep y w

end Sys2Proof.Machine
end

