-- ==== Sys2Proof/Machine/Solver.lean ====
section
/-! DEFINITION. The sparse solver: its workspace, value patches, preconditioner builds, the start and the end of a solve, its
result record (06 R191 to R219), and PATCH_POST (14 R421). SOLVE_STOP runs the whole solve from the values image, the workspace and what
other chips sent: products, reductions, iterations, the stop, the best iterate and the return tail. -/

namespace Sys2Proof.Machine

/-! ## Solvers of a plan -/

/-- The number one in a solver's precision (06 R196). -/
def oneOf (w : Nat) : W64 := if w = 4 then 0x3F800000 else 0x3FF0000000000000

/-- A solver as an admission leaves it (06 R196, R197, R213). -/
def solverInit (m : Mem) (rec : SolveRec) : Solver :=
  let h := structAt m rec.struct
  { record := rec, hdr := h, k := 0, s := oneOf h.w, d := 0, changed := true, valGen := 0, posted := [false, false], touched := []
    slot := none, preGen := 0, run := none, waiting := none, t0 := none, offTack := false, tackB := false, solved := false
    patched := none, x0 := [], diagOk := false, sent := [], valLost := false, strLost := false }

/-- The solve records that the SOLVE slots of a plan or variant name (06 R191, R202). -/
def solveRecs (m : Mem) (a : Nat) (b : PlanBody) : List SolveRec :=
  (b.slots.filter (·.kind = 9)).map fun s => solveAt m (a + s.payload)

/-- The solvers of a plan or variant. One that has the SOLVER_ID, STRUCT and structure CRC of a solver before it keeps its
values, s, d, preconditioner slots and solution under the new record; a solve in flight is abandoned, and a lost structure is reloaded
(06 R219). -/
def solversOf (m : Mem) (a : Nat) (b : PlanBody) (old : List Solver) : List Solver :=
  (solveRecs m a b).map fun rec =>
    let new := solverInit m rec
    match old.find? fun o => o.record.id = rec.id && o.record.struct = rec.struct && o.hdr.crc = new.hdr.crc with
    | some o => { o with record := rec, hdr := new.hdr, run := none, offTack := false, waiting := none, strLost := false }
    | none => new

/-- Changes the solver with SOLVER_ID `id`. -/
def modSolver (id : Nat) (f : Solver → Solver) (d : Dev) : Dev :=
  { d with solv := { d.solv with solvers := d.solv.solvers.map fun s => if s.record.id = id then f s else s } }

/-- The solver with SOLVER_ID `id`. -/
def solverAt (d : Dev) (id : Nat) : Option Solver := d.solv.solvers.find? fun s => s.record.id = id

/-! ## Workspace (06 R196) -/

/-- Bytes of one patch buffer (06 R196, R202). -/
def patchBytes (s : Solver) : Nat := s.record.patch * 65536

/-- Patch buffer `b` (06 R196). -/
def patchBuf (s : Solver) (b : Nat) : Nat := s.record.work + 256 + b * patchBytes s

/-- Vectors of the method's own (06 R209). -/
def methodVecs (r : SolveRec) : Nat :=
  match r.method with
  | 0 => 7
  | 1 => 11
  | 2 => r.gm + 5
  | _ => 6

/-- First byte of vector `i`: the method's own, b first and x second, then the diagonal inverse and the two copies of the
solution (06 R196, R209; log entry 28). -/
def vecAt (s : Solver) (i : Nat) : Nat := s.record.work + 256 + 2 * patchBytes s + i * (s.hdr.w * s.hdr.nloc)

/-- Bytes of one vector. -/
def vecBytes (s : Solver) : Nat := s.hdr.w * s.hdr.nloc

/-- The copy of the solution that is current, or the other (06 R216). -/
def solutionAt (s : Solver) (b : Bool) : Nat := vecAt s (methodVecs s.record + 1 + ofBool b)

/-- The copy of the result record (06 R196, R216). -/
def recordAt (s : Solver) (b : Bool) : Nat := s.record.work + 64 * ofBool b

/-- Where the current copy (`off` false) or the off-tack copy of the solution or record at `f` is reached: through the tacked
view where the tack table names it, else by the solver's own mark (06 R216; 11 R335, R336). -/
def copyAt (d : Dev) (s : Solver) (f : Bool → Nat) (off : Bool) : Nat :=
  if (tackAt d (f false)).isSome then f false else f (s.tackB != off)

/-- Bytes of the dense blocks of the values image (06 R196). -/
def blockBytes (s : Solver) : Nat := 1024 * s.hdr.w * s.hdr.nblk

/-- Bytes of the values image, each part rounded up to 256 (06 R196). -/
def valuesBytes (s : Solver) : Nat := up256 (blockBytes s) + up256 (s.hdr.w * s.hdr.ngs)

/-- Address of value `i` of the values image (06 R196, R199). -/
def valueAt (s : Solver) (i : Nat) : Nat := s.record.values + s.hdr.w * i

/-- Values that a preconditioner slot holds of the pattern: dense blocks and scalar entries with local columns, for IC(0) those
of the lower part (06 R211). -/
def patternValues (m : Mem) (r : SolveRec) (h : StructHdr) (lower : Bool) : Nat :=
  let blocks := (tableAt m (r.struct + 256) 8 h.nblk).filter fun e =>
    decide (bits e 43 23 < h.nloc / 32) && (!lower || decide (bits e 43 23 ≤ bits e 63 44))
  let entries := (tableAt m (r.struct + 256 + up256 (8 * h.nblk)) 8 h.ngs).filter fun e =>
    !bit e 0 && decide (bits e 37 12 < h.nloc) && (!lower || decide (bits e 37 12 ≤ bits e 63 38))
  1024 * blocks.length + entries.length

/-- Bytes of one preconditioner slot (06 R211). -/
def preBytes (m : Mem) (r : SolveRec) (h : StructHdr) : Nat :=
  match r.precond with
  | 2 => 1024 * h.w * h.nbrl
  | 3 => h.w * patternValues m r h true + 1024 * h.w * h.nbrl
  | 4 => h.w * patternValues m r h false + 2 * 1024 * h.w * h.nbrl
  | _ => 0

/-- Bytes of a workspace (06 R196). -/
def workBytes (m : Mem) (r : SolveRec) (h : StructHdr) : Nat :=
  256 + 2 * (r.patch * 65536) + up256 ((methodVecs r + 3) * (h.w * h.nloc)) + up256 (2 * h.w * h.nhalo) + up256 (2 * preBytes m r h)

/-- The halo receive area of a parity (06 R196, R207). -/
def haloAt (s : Solver) (b : Nat) : Nat :=
  s.record.work + 256 + 2 * patchBytes s + up256 ((methodVecs s.record + 3) * vecBytes s) + b * (s.hdr.w * s.hdr.nhalo)

/-- Preconditioner slot `b` (06 R196, R213). -/
def preSlotAt (m : Mem) (s : Solver) (b : Nat) : Nat :=
  s.record.work + 256 + 2 * patchBytes s + up256 ((methodVecs s.record + 3) * vecBytes s) + up256 (2 * s.hdr.w * s.hdr.nhalo)
    + b * preBytes m s.record s.hdr

/-- The diagonal inverse, after the method's own vectors (06 R196). -/
def diagAt (s : Solver) : Nat := vecAt s (methodVecs s.record)

/-- The best vector, the last of the method's own (06 R209, R215). -/
def bestAt (s : Solver) : Nat := vecAt s (methodVecs s.record - 1)

/-- The precision is FP64. -/
def Solver.wide (s : Solver) : Bool := s.hdr.w = 8

/-- The structure image of a solver (06 R194). -/
def Solver.struct (m : Mem) (s : Solver) : Struct := structRead m s.hdr s.record.struct

/-- Codes of the solver's precision at `a`, as the running plan reads them. -/
def codesAt (m : Mem) (d : Dev) (s : Solver) (a n : Nat) : List Nat := codesOf s.hdr.w n (readResolved m d a (s.hdr.w * n))

/-- A vector of the workspace. -/
def vecCodes (m : Mem) (d : Dev) (s : Solver) (a : Nat) : List Nat := codesAt m d s a s.hdr.nloc

/-- The effective matrix (06 R196). -/
def Solver.matrix (m : Mem) (d : Dev) (s : Solver) : Matrix :=
  { wide := s.wide, nloc := s.hdr.nloc, s := s.s.toNat, d := s.d.toNat
    v := patternOf (s.struct m) s.hdr.w (readResolved m d s.record.values (blockBytes s))
      (readResolved m d (s.record.values + up256 (blockBytes s)) (s.hdr.w * s.hdr.ngs)) }

/-! ## Posting a patch (06 R197; 14 R421) -/

/-- PATCH_POST: the patch goes into the buffer that its SOLVE names, and is posted. -/
def patchPostBoth (c : CmdRef) (buf : List Byte) : Mem → Dev → Mem × Dev :=
  runCmdMem c 0x204 fun desc m d =>
    match solverAt d (dArg0 desc) with
    | none => (m, d, refused)
    | some s =>
      let bs := buf.take (dLen desc)
      let k := leNat ((bs.drop 20).take 4)
      if bs.length < 32 || decide (patchBytes s < bs.length) then (m, d, badDesc)
      else
        let r := hostWrite m d (patchBuf s (k % 2)) bs
        if r.2.2.status = stOk then
          (r.1, modSolver s.record.id (fun s => { s with posted := modAt (fun _ => true) (k % 2) s.posted }) r.2.1, { data := k })
        else r

/-- A peer's PUT has reached [a, a+n): patch buffers it overlaps are touched by that rank (06 R197). -/
def patchTouch (a n rank : Nat) (d : Dev) : Dev :=
  { d with solv := { d.solv with solvers := d.solv.solvers.map fun s =>
      let hit := [0, 1].filter fun b => overlaps a n (patchBuf s b) (patchBytes s) && !s.touched.contains (b, rank)
      { s with touched := s.touched ++ hit.map fun b => (b, rank) } } }

/-- A SIGNAL of `rank`, or a SIG that follows its data, posts the buffers it has touched (06 R197; log entry 28). -/
def patchSignal (rank : Nat) (d : Dev) : Dev :=
  { d with solv := { d.solv with solvers := d.solv.solvers.map fun s =>
      { s with
        posted := s.posted.zipIdx.map fun p => p.1 || s.touched.contains (p.2, rank)
        touched := s.touched.filter fun t => t.2 ≠ rank } } }

/-! ## Applying a patch (06 R198 to R201) -/

/-- What the records of a patch do, in order: writes of (address, bytes), s and d, and whether values changed, all values were
given, and a starting iterate was given. -/
structure PatchFx where
  writes : List (Nat × List Byte)
  s : W64
  d : W64
  changed : Bool
  full : Bool
  x0 : Bool

/-- The value in an 8-byte slot, in the solver's precision (06 R199). -/
def patchValue (s : Solver) (bs : List Byte) (o : Nat) : List Byte := (bs.drop o).take s.hdr.w

/-- The pairs of an ENTRIES or RHS_ENTRIES record: index and value (06 R199). -/
def patchPairs (s : Solver) (pl : List Byte) (c : Nat) : List (Nat × List Byte) :=
  (List.range c).map fun i => (leNat ((pl.drop (16 * i)).take 8), patchValue s pl (16 * i + 8))

/-- Bytes of the payload of a record before its padding; none for a reserved TYPE (06 R199). -/
def patchLen (s : Solver) (ty c : Nat) : Option Nat :=
  match ty with
  | 0 => some (1024 * s.hdr.w)
  | 1 => some (16 * c)
  | 2 => some 16
  | 3 => some (vecBytes s)
  | 4 => some (16 * c)
  | 5 => some (vecBytes s)
  | 6 => some 0
  | 7 => some (valuesBytes s)
  | _ => none

/-- One record: none when an index is out of range or the TYPE is reserved (06 R199, R200). -/
def patchRecord (s : Solver) (ty arg c : Nat) (pl : List Byte) (x : PatchFx) : Option PatchFx :=
  match ty with
  | 0 =>
    if arg < s.hdr.nblk then
      some { x with writes := x.writes ++ [(valueAt s (1024 * arg), pl)], changed := true }
    else none
  | 1 =>
    let ps := patchPairs s pl c
    if ps.all fun p => decide (p.1 < 1024 * s.hdr.nblk + s.hdr.ngs) then
      some { x with writes := x.writes ++ ps.map (fun p => (valueAt s p.1, p.2)), changed := true }
    else none
  | 2 =>
    let s' := BitVec.ofNat 64 (leNat (patchValue s pl 0))
    let d' := BitVec.ofNat 64 (leNat (patchValue s pl 8))
    some { x with s := s', d := d', changed := x.changed || s' ≠ x.s || d' ≠ x.d }
  | 3 => some { x with writes := x.writes ++ [(vecAt s 0, pl)] }
  | 4 =>
    let ps := patchPairs s pl c
    if ps.all fun p => decide (p.1 < s.hdr.nloc) then
      some { x with writes := x.writes ++ ps.map (fun p => (vecAt s 0 + s.hdr.w * p.1, p.2)) }
    else none
  | 5 => some { x with writes := x.writes ++ [(vecAt s 1, pl)], x0 := true }
  | 6 => some { x with writes := x.writes ++ [(vecAt s 1, List.replicate (vecBytes s) 0)], x0 := true }
  | 7 => some { x with writes := x.writes ++ [(s.record.values, pl)], changed := true, full := true }
  | _ => none

/-- The records of a patch in order; none when one of them is at fault or reaches beyond LEN (06 R199, R200). -/
def patchRecords (s : Solver) : Nat → List Byte → PatchFx → Option PatchFx
  | 0, _, x => some x
  | n + 1, bs, x =>
    let h := leNat (bs.take 16)
    let ty := bits h 127 124
    let c := bits h 63 32
    match patchLen s ty c with
    | none => none
    | some len =>
      if bs.length < 16 + len then none
      else
        match patchRecord s ty (bits h 95 64) c ((bs.drop 16).take len) x with
        | none => none
        | some x => patchRecords s n (bs.drop (16 + ceilDiv len 16 * 16)) x

/-- The effect of the patch image `bs` of a buffer; none: it is rejected whole (06 R198, R200). -/
def patchFx (s : Solver) (bs : List Byte) : Option PatchFx :=
  let len := leNat ((bs.drop 8).take 4)
  if decide (len < 32 ∨ patchBytes s < len) then none
  else if leNat ((bs.drop 24).take 8) ≠ crc64 ((bs.take 24) ++ List.replicate 8 0 ++ (bs.take len).drop 32) then none
  else
    patchRecords s (leNat ((bs.drop 12).take 4)) ((bs.take len).drop 32) ⟨[], s.s, s.d, false, false, false⟩

/-- Writes pieces one after another for the running step. -/
def writeAll (ws : List (Nat × List Byte)) (m : Mem) (d : Dev) : Mem × Dev :=
  ws.foldl (fun r w => writeSlot r.1 r.2 w.1 w.2) (m, d)

/-- STATUS bits of 06 R217. -/
def stBit (n : Nat) (b : Bool) : Nat := if b then 2 ^ n else 0

/-- The solver looks for its patch of solve k: a stale one is discarded and counted; one for k is applied whole or rejected with
a NOTE; none is found otherwise. Answers the STATUS bits (06 R200). -/
def applyPatch (s : Solver) (m : Mem) (d : Dev) : Mem × Dev × Nat :=
  let b := s.k % 2
  let r := readSlot m d (patchBuf s b) (patchBytes s)
  let bs := r.1
  let k := leNat ((bs.drop 20).take 4)
  let drop (d : Dev) : Dev := modSolver s.record.id (fun s => { s with posted := modAt (fun _ => false) b s.posted }) d
  let count (d : Dev) : Dev := { d with solv := { d.solv with prej := satAdd d.solv.prej 1 } }
  if !(s.posted[b]?).getD false || decide (s.k < k) then (m, d, 512)
  else if k < s.k then (m, count (drop r.2), 512)
  else
    match patchFx s bs with
    | none => (m, note 0x03 0x0620 0xFFFF s.record.id (count (drop r.2)), 1024)
    | some x =>
      let w := writeAll x.writes m (drop r.2)
      let d := modSolver s.record.id (fun s => { s with
        s := x.s, d := x.d, changed := s.changed || x.changed, diagOk := s.diagOk && !x.changed, valGen := leNat ((bs.drop 16).take 4)
        x0 := if x.x0 then readResolved w.1 w.2 (vecAt s 1) (vecBytes s) else []
        valLost := s.valLost && !x.full }) w.2
      (w.1, { d with solv := { d.solv with patch := satAdd d.solv.patch 1 } }, 0)

/-! ## The patch point (06 R200, R201, R211 to R213) -/

/-- The scheduled start of the solve to come, of a solver reached at `now`: with PERIOD, T0 + k * PERIOD, T0 being `now` when this is the
first scheduled start; without it, `now` (06 R202, R218; log entry 60). -/
def schedOf (s : Solver) (now : Nat) : Nat :=
  if s.record.period = 0 then now else (s.t0.map fun t => t + s.k * s.record.period).getD now

/-- Whether PREBUILD asks for a build at this patch point; "when the effective values changed" is since the last completed build (06 R203,
R213; log entry 60). -/
def wantsBuild (s : Solver) : Bool :=
  decide (2 ≤ s.record.precond) &&
    ((s.k = 0 && s.slot.isNone) || s.record.prebuild = 1 || (s.record.prebuild = 2 && s.changed))

/-- The diagonal inverse is recomputed when the effective values changed and a preconditioner may use it (06 R211, R213; log entry 60). -/
def wantsDiag (s : Solver) : Bool := decide (s.record.precond ≠ 0) && !s.diagOk

/-- Adds a build's substitutions to the crow's nest (06 R212, R220). -/
def countPivs (n : Nat) (d : Dev) : Dev := { d with solv := { d.solv with piv := satAdd d.solv.piv n } }

/-- The diagonal inverse is written into the workspace; answers its substitutions (06 R211, R212). -/
def buildDiag (s : Solver) (m : Mem) (d : Dev) : Mem × Dev × Nat :=
  let x := diagInverse (s.matrix m d) (pivThresh s.wide s.record.pivT)
  let w := writeSlot m d (diagAt s) (codeBytes s.hdr.w x.1)
  (w.1, modSolver s.record.id (fun s => { s with diagOk := true }) w.2, x.2)

/-- The codes of a newly built slot, and the substitutions of its dense blocks and scalar rows (06 R211, R212). -/
def slotCodes (s : Solver) (m : Mem) (d : Dev) : List Nat × Nat :=
  let a := s.matrix m d
  let t := s.struct m
  let th := pivThresh s.wide s.record.pivT
  if s.record.precond = 2 then blockInverses a th t.blockRows
  else
    let o := factorise a (decide (s.record.precond = 3)) th (unitsOf t)
    (factorCodes t s.hdr.nloc (decide (s.record.precond = 3)) o, o.count)

/-- The slot that a build writes: the one that is not current (06 R213). -/
def otherSlot (s : Solver) : Nat := if s.slot = some 0 then 1 else 0

/-- The build at a patch point: the diagonal inverse where it is due; then the slot, not started after BUILD_DL, abandoned where a check
finds it passed, or written and made current (06 R211 to R213). Answers the STATUS bits and PIVCNT. -/
def buildBoth (s : Solver) (now : Nat) (b : BuildIn) (m : Mem) (d : Dev) : Mem × Dev × Nat × Nat :=
  let g := if wantsDiag s then buildDiag s m d else (m, d, 0)
  let piv (st n : Nat) (m : Mem) (d : Dev) : Mem × Dev × Nat × Nat := (m, countPivs n d, st ||| stBit 8 (n ≠ 0), n)
  if !wantsBuild s then
    piv 0 g.2.2 g.1 (modSolver s.record.id (fun s => { s with changed := s.changed && decide (2 ≤ s.record.precond) }) g.2.1)
  else
    let dl := schedOf s now + s.record.buildDl
    if (now :: b.checks).any fun t => decide (dl < t) then
      piv 64 g.2.2 g.1 { g.2.1 with solv := { g.2.1.solv with aband := satAdd g.2.1.solv.aband 1 } }
    else
      let x := slotCodes s g.1 g.2.1
      let w := writeSlot g.1 g.2.1 (preSlotAt m s (otherSlot s)) (codeBytes s.hdr.w x.1)
      piv 0 (g.2.2 + x.2) w.1 (modSolver s.record.id (fun v => { v with
        slot := some (otherSlot s), preGen := (v.preGen + 1) % 2 ^ 32, changed := false }) w.2)

/-- The starting iterate: the patch's, which a retry takes again; else the current solution, or zero before the first commit (06 R201,
R216). -/
def startIterate (s : Solver) (m : Mem) (d : Dev) : Mem × Dev :=
  if !s.x0.isEmpty then writeSlot m d (vecAt s 1) s.x0
  else if s.solved then
    let r := readSlot m d (copyAt d s (solutionAt s) false) (vecBytes s)
    writeSlot m r.2 (vecAt s 1) r.1
  else writeSlot m d (vecAt s 1) (List.replicate (vecBytes s) 0)

/-- A patch-point mark that may issue, or whether one has issued in this step start (07 R224). -/
def patchMark (d : Dev) (r : Run) : Option Nat × Bool :=
  let marks := r.body.slots.filter fun s => s.kind = 7 && s.arg = 0
  ((marks.find? (slotReady d r)).map Slot.seq, marks.any fun s => r.issued.contains s.seq)

/-- The solve in progress starts at `now`: its scheduled start is fixed, and with it T0 (06 R217, R218). -/
def solveBegin (now : Nat) (s : Solver) : Solver :=
  match s.run with
  | some v =>
    let t := v.sched.getD (schedOf s now)
    { s with
      t0 := if s.record.period ≠ 0 && s.t0.isNone then some (t - s.k * s.record.period) else s.t0
      waiting := none
      run := some { v with sched := some t, start := some now, status := v.status ||| stBit 11 (decide (t < now)) } }
  | none => s

/-- A solver is reached, at its patch point or its slot: its solve starts, unless its scheduled start lies ahead and has not arrived (06
R200, R202, R218; log entry 60). -/
def solveReached (now : Nat) (s : Solver) : Solver :=
  match s.run with
  | none => s
  | some v =>
    if v.start.isSome then s
    else if v.sched.getD (schedOf s now) ≤ now || s.waiting.isSome then solveBegin now s
    else { s with run := some { v with sched := some (v.sched.getD (schedOf s now)) } }

/-- A solver's patch is looked for: once for a solve index, and again where a retry finds the values lost and a new patch posted (06 R200,
R216, R219). -/
def takePatch (s : Solver) (m : Mem) (d : Dev) : Mem × Dev × Nat :=
  match s.patched with
  | some st => if s.valLost && (s.posted[s.k % 2]?).getD false then applyPatch s m d else (m, d, st)
  | none => applyPatch s m d

/-- The patch point of a solver: its solve begins (06 R200). A retried solve finds its patch applied (06 R216). -/
def patchPointBoth (id now : Nat) (b : BuildIn) (m : Mem) (d : Dev) : Mem × Dev :=
  match d.plan.run, solverAt d id with
  | some r, some s =>
    let k := patchMark d r
    if s.run.isSome || (k.1.isNone && !k.2) then (m, d)
    else
      let d := atTime now d
      let d := match k.1 with
        | some seq => complete r.start seq (issue seq d)
        | none => d
      let p := takePatch s m d
      let q := startIterate ((solverAt p.2.1 id).getD s) p.1 p.2.1
      let u := buildBoth ((solverAt q.2 id).getD s) now b q.1 q.2
      (u.1, modSolver id (fun s => solveReached now { s with
        patched := if bit p.2.2 9 then none else some p.2.2
        run := some ⟨s.k, none, none, p.2.2 ||| u.2.2.1, u.2.2.2, r.start⟩ }) u.2.1)
  | _, _ => (m, d)

/-! ## Starts (06 R202, R213, R218, R219) -/

/-- The first bad word of [a, a+n) as the solver reads it. -/
def rangeBad (d : Dev) (a n : Nat) : Option Nat := badResolved d a n

/-- What the solver finds when it reads its images: a word of the structure, the values or the workspace that cannot be
corrected raises a CDE; the structure or the values are then marked lost (06 R219). -/
def solveReads (s : Solver) (wb : Nat) (d : Dev) : Dev :=
  let d := match rangeBad d s.record.struct (structBytes s.hdr) with
    | some a => modSolver s.record.id (fun s => { s with strLost := true }) (readLoss d a)
    | none => d
  let d := match rangeBad d s.record.values (valuesBytes s) with
    | some a => modSolver s.record.id (fun s => { s with valLost := true }) (readLoss d a)
    | none => d
  match rangeBad d s.record.work wb with
  | some a => readLoss d a
  | none => d

/-- A SOLVE slot: its record is taken. Without the values or the structure the solve is skipped as CONTAINED (06 R202, R219). A
solve whose step has no patch point begins here with PATCH_NONE and without a build (log entry 60). -/
def solveSlotBoth (seq now : Nat) : Mem → Dev → Mem × Dev :=
  onSlotW seq 9 (fun r sl m d => match solverAt d (solveAt m (r.addr + sl.payload)).id with
      | some s => [(copyAt d s (solutionAt s) true, vecBytes s), (copyAt d s (recordAt s) true, 64)]
      | none => []) fun r sl m d =>
    let d := atTime now d
    let id := (solveAt m (r.addr + sl.payload)).id
    match solverAt d id with
    | none => (m, complete r.start seq d)
    | some s =>
      let d := solveReads s (workBytes m s.record s.hdr) d
      let lost := ((solverAt d id).map fun s => s.valLost || s.strLost).getD false
      if lost then (m, complete r.start seq (cdeNew 3 (modSolver id (fun s => { s with run := none }) d)))
      else
        let q := if s.run.isSome then (m, d) else startIterate s m d
        (q.1, modSolver id (fun s => solveReached now
          (if s.run.isSome then s else { s with run := some ⟨s.k, none, none, 512, 0, r.start⟩ })) q.2)

/-- The SOLVE slot of a solver has issued in this step start. -/
def solveIssued (m : Mem) (r : Run) (id : Nat) : Option Nat :=
  (r.body.slots.find? fun s => s.kind = 9 && r.issued.contains s.seq && (solveAt m (r.addr + s.payload)).id = id).map Slot.seq

/-- A scheduled start arrives: the first one fixes T0; the solve that has been reached starts; one still to be reached, or held back by
the solve in progress, starts when it is reached (06 R218; log entry 60). -/
def solveSchedDev (id now : Nat) (d : Dev) : Dev :=
  match d.plan.run, solverAt d id with
  | some _, some s =>
    if s.record.period = 0 then d
    else
      let due := schedOf s now
      let wait (s : Solver) : Solver := { s with
        t0 := if s.t0.isNone then some (now - s.k * s.record.period) else s.t0
        waiting := if due ≤ now then some now else s.waiting }
      let d := modSolver id wait (atTime now d)
      match s.run with
      | some v => if v.start.isNone && decide (v.sched.getD due ≤ now) then modSolver id (solveBegin now) d else d
      | none => d
  | _, _ => d

/-! ## The end of a solve (06 R208 to R217) -/

/-- The residual norm is at or below TOL times the norm of b; a TOL of 0 is none (06 R202, R214). -/
def tolMet (tol : W32) (norm bnorm : Nat) : Bool :=
  tol ≠ 0 && finite64 norm && !(((fp32.decode tol.toNat).mul (fp64.decode bnorm)).1.lt (fp64.decode norm))

/-- The bit with which iteration `i` stops the solve, in its priority; none: it goes on. `o` are the other chips' flags; `bad`: a global
scalar was not finite; `late`: this chip raises D (06 R208, R210, R214, R217). -/
def stopBit (r : SolveRec) (bnorm i : Nat) (t : Turn) (bad late : Bool) (o : Nat) : Option Nat :=
  if bad || bit o 2 then some 5
  else if t.brk || bit o 1 then some 4
  else if t.exact || tolMet r.tol t.norm bnorm || bit o 0 then some 1
  else if (late || bit o 3) && decide (r.minIt ≤ i) then some 2
  else if r.nIter ≤ i then some 0
  else none

/-- An iterate that has been noted: its iteration, its norm and its codes (06 R209, R215). -/
structure IterNote where
  it : Nat
  norm : Nat
  x : List Nat
deriving DecidableEq, Repr

/-- Notes an iterate: the smaller norm is best, a tie keeps the earlier, and a norm that is not finite is never best (06 R215). -/
def noteIterate (y : IterNote) (best : Option IterNote) : Option IterNote :=
  if !finite64 y.norm then best
  else
    match best with
    | some b => if (fp64.decode y.norm).lt (fp64.decode b.norm) then some y else some b
    | none => some y

/-- How far a solve came: its work, the iterations run, the bit that stopped it, and its best iterate. -/
structure SolveWalk where
  w : Work
  iters : Nat
  stop : Option Nat
  best : Option IterNote

/-- GMRES(m) starts a cycle with iteration `i` + 1 (06 R209). -/
def restarts (y : Sys) (i : Nat) : Bool := decide (y.method = 2) && decide (0 < i) && decide (i % y.gm = 0)

/-- Iteration `i` + 1 at `end`: the restart of GMRES before it, the iteration, its flags, and the iterates noted. GMRES forms and notes
an iterate at the end of a cycle or where it stops, and notes it again with the norm of its restart; an iteration that breaks down
applies no update and notes nothing (06 R208 to R210, R214, R215). -/
def walkStep (r : SolveRec) (y : Sys) (bnorm : Nat) (dl : Nat) (nom : Nat × Nat) (s : SolveWalk) (e : Nat × Nat) : SolveWalk :=
  let b := gmBegin y s.w.x s.w.net
  let again := restarts y s.iters
  let w := if again then b.1 else s.w
  let best := if again then noteIterate ⟨s.iters, b.2, w.x⟩ s.best else s.best
  let t := y.turn w
  let i := s.iters + 1
  let stop := stopBit r bnorm i t t.w.net.bad (decide (dl < e.1 + nom.1 + nom.2)) e.2
  let form := decide (y.method = 2) && (stop.isSome || restarts y i)
  let w := if form then gmForm y t.w else t.w
  ⟨w, i, stop, if !t.brk && (form || decide (y.method ≠ 2)) then noteIterate ⟨i, t.norm, w.x⟩ best else best⟩

/-- The iterations of a solve, as far as their ends are given, up to its stop (06 R209, R214). -/
def walkIters (r : SolveRec) (y : Sys) (bnorm dl : Nat) (nom : Nat × Nat) (s : SolveWalk) (es : List (Nat × Nat)) : SolveWalk :=
  es.foldl (fun s e => if s.stop.isSome then s else walkStep r y bnorm dl nom s e) s

/-- The deadline had passed when the solve started, and MIN_IT is 0: it runs no iteration (06 R218). -/
def startsPast (s : Solver) (v : Solve) : Bool :=
  decide (v.sched.getD 0 + s.record.deadline < v.start.getD 0) && decide (s.record.minIt = 0)

/-- The preconditioner that a solve applies: its current slot, or the Jacobi preconditioner where it has none (06 R211, R213). -/
def Solver.precond (m : Mem) (d : Dev) (s : Solver) : Precond :=
  let diag := vecCodes m d s (diagAt s)
  let jacobi : Precond := ⟨min s.record.precond 1, diag, ⟨[], []⟩, [], []⟩
  match s.slot with
  | some k => if 2 ≤ s.record.precond then
      precondOf s.record.precond (s.struct m) s.hdr.nloc diag (codesAt m d s (preSlotAt m s k) (preBytes m s.record s.hdr / s.hdr.w))
    else jacobi
  | none => jacobi

/-- The system that a solver solves (06 R202, R209). -/
def Solver.sys (m : Mem) (d : Dev) (s : Solver) : Sys :=
  { a := s.matrix m d, p := s.precond m d, b := vecCodes m d s (vecAt s 0), method := s.record.method, gm := s.record.gm
    lmin := widen s.record.lmin.toNat, lmax := widen s.record.lmax.toNat }

/-- What other chips gave a solve (06 R207, R208). -/
def netOf (m : Mem) (d : Dev) (s : Solver) (b : PlanBody) (e : SolveEnd) : Net :=
  { halos := e.halos.map (·.map BitVec.toNat), areas := [0, 1].map fun p => codesAt m d s (haloAt s p) s.hdr.nhalo
    reds := e.reds.map (·.map fun p => (p.1, p.2.map BitVec.toNat)), rank := b.self, ranks := b.nRank, sent := [], bad := false }

/-- A solve that has ended: its work, its iterations, its ending bit, its best iterate if one was noted, and the norms of b and of the
return tail (06 R214, R215, R217). -/
structure SolveDone where
  w : Work
  iters : Nat
  stop : Nat
  best : Option IterNote
  bnorm : Nat
  trueRes : Nat

/-- The return tail: one product, r = b − A·x_best, and its global norm (06 R215). -/
def returnTail (y : Sys) (x : List Nat) (t : Net) : Nat × Net :=
  let r := y.residual x t
  let g := r.2.reduce [y.dot r.1 r.1]
  (sqrt64 ((g.1[0]?).getD 0), g.2)

/-- A solve runs: the norm of b, the method's start, its iterations, and the return tail; none: it has not stopped. One that runs no
iteration returns the iterate it started from (06 R209, R214, R215, R218). -/
def runSolve (s : Solver) (v : Solve) (y : Sys) (x : List Nat) (t : Net) (nom : Nat × Nat) (es : List (Nat × Nat)) : Option SolveDone :=
  let gb := t.reduce [y.dot y.b y.b]
  let bn := sqrt64 ((gb.1[0]?).getD 0)
  let b := y.begin x gb.2
  let first : IterNote := ⟨0, b.2, x⟩
  let past := startsPast s v
  let halo := bit v.status 12
  let w := walkIters s.record y bn (v.sched.getD 0 + s.record.deadline) nom ⟨b.1, 0, none, noteIterate first none⟩ (if past then [] else es)
  let best := if w.iters = 0 then some first else w.best
  let stop := match w.stop with
    | some k => some (if halo && k ≠ 5 && k ≠ 4 then 12 else k)
    | none => if halo then some 12 else if past then some 2 else none
  stop.map fun k =>
    let r := returnTail y ((best.map IterNote.x).getD w.w.x) w.w.net
    ⟨{ w.w with net := r.2 }, w.iters, k, best, bn, r.1⟩

/-- The best iterate; where no norm was finite the spec names none, and what is returned is free (06 R215; log entry 28). -/
def bestOrFree (s : Solver) (best : Option IterNote) (d : Dev) : IterNote × Dev :=
  match best with
  | some b => (b, d)
  | none =>
    let i := draw 12 d
    let n := draw 64 i.2
    let x := draw (8 * vecBytes s) n.2
    (⟨i.1.toNat, n.1.toNat, codesOf s.hdr.w s.hdr.nloc (leBytes (vecBytes s) x.1.toNat)⟩, x.2)

/-- The result record (06 R217). -/
def resultWord (s : Solver) (v : Solve) (o : SolveDone) (now status : Nat) (b : IterNote) : Nat :=
  let sched := v.sched.getD 0
  let start := v.start.getD 0
  v.k % 2 ^ 32 * 2 ^ 480 + s.record.id % 2 ^ 16 * 2 ^ 464 + status % 2 ^ 16 * 2 ^ 448 + o.iters % 2 ^ 12 * 2 ^ 436
    + b.it % 2 ^ 12 * 2 ^ 424 + v.pivs % 2 ^ 32 * 2 ^ 384 + s.preGen % 2 ^ 32 * 2 ^ 352 + s.valGen % 2 ^ 32 * 2 ^ 320
    + o.bnorm % 2 ^ 64 * 2 ^ 256 + b.norm % 2 ^ 64 * 2 ^ 192 + o.trueRes % 2 ^ 64 * 2 ^ 128 + (now - sched) % 2 ^ 32 * 2 ^ 96
    + (start - sched) % 2 ^ 32 * 2 ^ 64

/-- The halo messages of a solve: before product n the listed unknowns of its vector go to every neighbour's area of parity n mod 2, then
a FENCE, then one SIGNAL, under the job's layout epoch (06 R207). -/
def haloMsgs (s : Solver) (t : Struct) (lepoch : Nat) (sent : List (List Nat)) : List HaloMsg :=
  sent.zipIdx.flatMap fun x => t.halo.map fun e =>
    let h := haloOf e
    ⟨h.rank, h.remote + x.2 % 2 * h.pstride,
      codeBytes s.hdr.w (((t.send.drop h.sendFirst).take h.sendCount).map fun u => (x.1[u]?).getD 0), h.tallyOut, lepoch⟩

/-- The tallies of the neighbours have reached `n`: the halo of product n − 1 has arrived (06 R207). -/
def haloReady (m : Mem) (d : Dev) (s : Solver) (n : Nat) : Bool :=
  (s.struct m).halo.all fun e => decide (n ≤ (d.tth.cur.get (haloOf e).tallyIn).toNat)

/-- Counts what a solve that ended with `bit` adds to the counters (06 R220). -/
def solveCount (s : Solver) (iters stop : Nat) (past : Bool) (d : Dev) : Dev :=
  let c := d.solv
  { d with solv := { c with
    done := satAdd c.done 1
    dlStop := satAdd c.dlStop (ofBool (stop = 2))
    overrun := satAdd c.overrun (ofBool past)
    brk := satAdd c.brk (ofBool (stop = 4 || stop = 5))
    itLost := satAdd c.itLost (if stop = 2 then s.record.nIter - iters else 0) } }

/-- The method's vectors as a solve leaves them in the workspace: x, the others in the order of R209, and the best vector (06 R196, R215;
log entry 60). -/
def workWrites (s : Solver) (o : SolveDone) (best : List Nat) : List (Nat × List Byte) :=
  ((o.w.x :: o.w.vs).take (methodVecs s.record - 2)).zipIdx.map (fun v => (vecAt s (1 + v.2), codeBytes s.hdr.w v.1))
    ++ [(bestAt s, codeBytes s.hdr.w best)]

/-- A solve that ran writes its vectors, and off-tack the best iterate and the record; it is counted, and its slot completes (06 R214 to
R217, R220). -/
def solveFinish (r : Run) (s : Solver) (v : Solve) (o : SolveDone) (now : Nat) (m : Mem) (d : Dev) : Mem × Dev :=
  let past := decide (v.sched.getD 0 + s.record.deadline < now)
  let st := (v.status ||| 2 ^ o.stop) ||| stBit 3 past ||| stBit 7 (decide (2 ≤ s.record.precond) && s.slot.isNone)
  let st := if o.stop = 12 then st else st &&& 0xEFFF
  let b := bestOrFree s o.best d
  let w := writeAll (workWrites s o b.1.x) m b.2
  let w := writeSlot w.1 w.2 (copyAt d s (solutionAt s) true) (codeBytes s.hdr.w b.1.x)
  let w := writeSlot w.1 w.2 (copyAt d s (recordAt s) true) (leBytes 64 (resultWord s v o now st b.1))
  let sent := haloMsgs s (s.struct m) r.body.lepoch o.w.net.sent
  let d := modSolver s.record.id (fun s => { s with offTack := true, run := none, sent := sent }) (solveCount s o.iters o.stop past w.2)
  (w.1, match solveIssued m r s.record.id with
    | some seq => complete r.start seq d
    | none => d)

/-- A solve whose slot has issued runs and stops, once the halos of its products have arrived; a word of its images that cannot be
corrected ends it with a CDE instead (06 R207, R214, R219). -/
def solveStopBoth (id : Nat) (e : SolveEnd) (m : Mem) (d : Dev) : Mem × Dev :=
  match d.plan.run, solverAt d id with
  | some r, some s =>
    match s.run.filter fun v => v.start.isSome && (solveIssued m r id).isSome with
    | none => (m, d)
    | some v =>
      let lost := solveReads s (workBytes m s.record s.hdr) (atTime e.now d)
      if (badResolved d s.record.struct (structBytes s.hdr) <|> badResolved d s.record.values (valuesBytes s)
          <|> badResolved d s.record.work (workBytes m s.record s.hdr)).isSome then
        (m, modSolver id (fun s => { s with run := none }) (match solveIssued m r id with
          | some seq => complete r.start seq lost
          | none => lost))
      else
        match runSolve s v (s.sys m d) (vecCodes m d s (vecAt s 1)) (netOf m d s r.body e)
            (Config.nominalTimes s.hdr.crc s.record.method s.record.precond)
            (e.ends.zipIdx.map fun t => (t.1, (e.flags[t.2]?).getD 0)) with
        | some o =>
          if o.stop = 12 || haloReady m d s o.w.net.sent.length then solveFinish r s v o e.now m (atTime e.now d) else (m, d)
        | none => (m, d)
  | _, _ => (m, d)

/-- The halo of product `n` is still short at the deadline: the chip stops waiting and its step takes a CDE (06 R207, R219). -/
def haloTimeoutDev (id n now : Nat) (m : Mem) (d : Dev) : Dev :=
  match solverAt d id with
  | some s =>
    match s.run with
    | some v =>
      if v.start.isSome && decide (v.sched.getD 0 + s.record.deadline ≤ now) && !haloReady m d s (n + 1) then
        cdeNew 6 (modSolver id (fun s => { s with run := some { v with status := v.status ||| 4096 } }) (atTime now d))
      else d
    | none => d
  | none => d

/-- A committed step: solutions and records written off-tack become current, and the next solve has the next index (06 R216). -/
def solversFlip (d : Dev) : Dev :=
  { d with solv := { d.solv with solvers := d.solv.solvers.map fun s =>
      if s.offTack then
        { s with offTack := false, tackB := !s.tackB, solved := true, k := s.k + 1, patched := none, x0 := [], run := none }
      else s } }

/-- A skipped step leaves the previous solution and record current; the retry solves again with its patch applied (06 R216). -/
def solversSkip (d : Dev) : Dev :=
  { d with solv := { d.solv with solvers := d.solv.solvers.map fun s => { s with offTack := false, run := none } } }

/-- PATCH_POST (06 R197; 14 R421). -/
def execPatchPost (c : CmdRef) (buf : List Byte) (s : State) : Out := onBoth (patchPostBoth c buf) s

/-- PATCH_POINT (06 R200). -/
def execPatchPoint (id now : Nat) (b : BuildIn) (s : State) : Out := onBoth (patchPointBoth id now b) s

/-- SOLVE_SLOT (06 R202). -/
def execSolveSlot (seq now : Nat) (s : State) : Out := onBoth (solveSlotBoth seq now) s

/-- SOLVE_SCHEDULED_START (06 R218). -/
def execSolveScheduledStart (id now : Nat) (s : State) : Out := onDev (solveSchedDev id now) s

/-- SOLVE_STOP (06 R214). -/
def execSolveStop (id : Nat) (e : SolveEnd) (s : State) : Out := onBoth (solveStopBoth id e) s

/-- HALO_TIMEOUT (06 R219). -/
def execHaloTimeout (h : HaloLate) (s : State) : Out := onRead (haloTimeoutDev h.id h.n h.now) s

end Sys2Proof.Machine
end

