-- ==== Sys2Proof/Machine/PlanUse.lean ====
section
/-! DEFINITION. What validation follows through a plan set: the vector words of each block, the ranges of memory that each
slot names, the order its waits and streams give, and where the bytes of weight slots can go (04 R116, R120, R122, R145; 07
R224, R226, R235; 12 R360). -/

namespace Sys2Proof.Machine

/-! ## A body under validation -/

/-- What a check sees: memory and device, where the image lies, its header, one body with its directory, and the body in
force when the set is to replace one (07 R235, R237). -/
structure Img where
  m : Mem
  d : Dev
  addr : Nat
  hdr : PlanHdr
  dir : List Sect
  b : PlanBody
  old : Option PlanBody

/-- A failure: its section, and the SEQ of the slot that fails where one does (07 R235). -/
abbrev Fail := Nat × Option Nat

/-- A failure of section `i` when `bad`. -/
def failIf (i : Nat) (bad : Bool) : List Fail := if bad then [(i, none)] else []

/-- The slots for which `bad` holds, failing in section `i`. -/
def failSlots (i : Nat) (ss : List Slot) (bad : Slot → Bool) : List Fail := (ss.filter bad).map fun s => (i, some s.seq)

/-- The SEQs of a list, failing in section `i`. -/
def failSeqs (i : Nat) (l : List Nat) : List Fail := l.map fun q => (i, some q)

/-- The slots of a KIND. -/
def Img.kind (x : Img) (k : Nat) : List Slot := x.b.slots.filter (·.kind = k)

/-- The array record of a slot. -/
def Img.arr (x : Img) (s : Slot) : ArrRec := arrRecAt x.m (x.addr + s.payload)

/-- The Gram record of a slot. -/
def Img.gram (x : Img) (s : Slot) : GramRec := gramRecAt x.m (x.addr + s.payload)

/-- The transfer descriptor of a slot. -/
def Img.xfer (x : Img) (s : Slot) : XferDesc := xferAt x.m (x.addr + s.payload)

/-- The message descriptor of a slot. -/
def Img.msg (x : Img) (s : Slot) : MsgDesc := msgAt x.m (x.addr + s.payload)

/-- The root-set record of a slot. -/
def Img.root (x : Img) (s : Slot) : RootRec := rootAt x.m (x.addr + s.payload)

/-- The solve record of a slot. -/
def Img.solve (x : Img) (s : Slot) : SolveRec := solveAt x.m (x.addr + s.payload)

/-! ## Vector words (04 R122, R145) -/

/-- The vector length after an instruction: SETVL takes IMM[7:0] (04 R148). -/
def setlOf (i : VIns) : Nat := if i.isOp 7 0 && decide (1 ≤ i.f.imm % 256 ∧ i.f.imm % 256 ≤ 128) then i.f.imm % 256 else i.vl

/-- The instructions of a list of words, from vector length `vl` on; and the vector length after them (04 R144, R148). -/
def insWalk : List Nat → Nat → List VIns × Nat
  | [], vl => ([], vl)
  | [w], vl =>
    let i : VIns := ⟨w, none, vl⟩
    ([i], setlOf i)
  | w :: e :: t, vl =>
    let i : VIns := ⟨w, none, vl⟩
    if i.cls = 6 then
      let r := insWalk t vl
      ({ i with ext := some e } :: r.1, r.2)
    else
      let r := insWalk (e :: t) (setlOf i)
      (i :: r.1, r.2)

/-- The vector blocks of a body in slot order with their instructions; VL runs on per unit and context from 128 at admission
(04 R117, R119; 07 R224). -/
def Img.blocks (x : Img) : List (Slot × List VIns) :=
  ((x.kind 2).foldl (fun (o : List (Slot × List VIns) × List ((Nat × Nat) × Nat)) s =>
    let vl := ((o.2.find? fun e => e.1 = (s.stream, s.ctx)).map (·.2)).getD 128
    let r := insWalk (tableAt x.m (x.addr + s.payload) 8 s.arg) vl
    (o.1 ++ [(s, r.1)], ((s.stream, s.ctx), r.2) :: o.2)) ([], [])).1

/-- Ranges that rows of a MOVE touch, in the layout of R144: one for each row, and for FP4 one for each row of the block-exponent
image. -/
def moveRows (i : VIns) (fmt : Nat) : List (Nat × Nat) :=
  let n := lanesOf i.f.wide i.vl
  let a := extAddr i.e
  let rows := List.range (i.f.rowsM1 + 1)
  if fmt = 6 then
    let p := movePitch i.e (i.vl / 2)
    rows.map (fun k => (a + k * p, n / 2)) ++ rows.map fun k => (a + rows.length * p + k * (i.vl / 32), n / 32)
  else
    let w := n * (fmtBits fmt / 8)
    rows.map fun k => (a + k * movePitch i.e w, w)

/-- Ranges that a MOVE reads (04 R144, R145). -/
def VIns.reads (i : VIns) : List (Nat × Nat) :=
  if i.isOp 6 0 then moveRows i (i.f.imm % 16)
  else if i.isOp 6 2 then [(extAddr i.e, 8 * (i.f.imm % 32 + 1))]
  else if i.isOp 6 3 then [(i.e.toNat % 2 ^ 40, bits i.e.toNat 63 40 * (if i.f.wide then 8 else 4))]
  else []

/-- Ranges that a MOVE writes (04 R144). -/
def VIns.writes (i : VIns) : List (Nat × Nat) := if i.isOp 6 1 then moveRows i (ncwDst i.f.imm) else []

/-! ## What each slot touches -/

/-- A range that a slot names: the slot, the range, whether it is written, and whether it must lie in local SRAM (01 R33). -/
structure Touch where
  slot : Slot
  addr : Nat
  len : Nat
  write : Bool
  sram : Bool
deriving DecidableEq, Repr

/-- Touches of a slot. -/
def touches (s : Slot) (write sram : Bool) (rs : List (Nat × Nat)) : List Touch :=
  (rs.filter (·.2 ≠ 0)).map fun r => ⟨s, r.1, r.2, write, sram⟩

/-- The rows that a tap writes: (ring row, range) each (05 R157). -/
def tapWrites (r : ArrRec) : List (Nat × Nat × Nat) :=
  let t := r.tap
  if !t.en || t.div = 0 then []
  else
    ((List.range r.rows).filter fun m => (t.rowBase + m) % t.div = t.phase).map fun m =>
      let q := t.rowBase + m
      (q, t.base + 256 * t.pitch * (q / t.div % (t.ringM1 + 1)) + 64 * t.colOff, 2 * paneEdge r.mode)

/-- What an array record reads: weights, activations, block exponents and the tile of a carry fill (03 R90, R91, R99; log entry
21). -/
def ArrRec.reads (r : ArrRec) : List (Nat × Nat) :=
  let e := paneEdge r.mode
  let rows := if r.wFmt = 6 ∨ r.xload then r.nImg else r.kImg
  let cols := if r.wFmt = 6 ∨ !r.xload then (if r.wFmt = 6 then r.kImg else r.nImg) else r.kImg
  let per := if r.aFmt = 6 then 1 else fmtBits r.aFmt / 8
  let wide := if r.acc = .int then 1 else 2
  let tile := if r.mode = 0 then 128 else e
  (r.panes.flatMap fun p => (List.range rows).map fun k => (r.wAddr + (p * e + k) * r.wPitch, cols * weightBytes r.wFmt))
  ++ (r.panes.flatMap fun p => (List.range r.rows).map fun m => (r.aAddr + m * r.aPitch + p * e * per, r.kImg * per))
  ++ (if r.wFmt = 6 then
        r.panes.flatMap fun p => (List.range r.nImg).map fun j => (r.wbxAddr + (p * e + j) * (r.wPitch / 16), r.kImg / 16)
      else [])
  ++ (if r.aFmt = 6 then
        r.panes.flatMap fun p => (List.range r.rows).map fun m => (r.abxAddr + m * (r.aPitch / 16) + p * (e / 16), r.kImg / 16)
      else [])
  ++ (if r.preload = 1 ∧ r.cfill ≠ 0 then [(r.cfill, ceilDiv r.rows tile * wide * 65536)] else [])

/-- Ring rows that a Gram record reads (05 R161). -/
def GramRec.ringRows (r : GramRec) : List Nat := (List.range r.rows).map fun n => (r.row0 + n) % (r.ringM1 + 1)

/-- Ranges of the ring that a Gram record reads: 64 elements on the row side, and on the column side of an off-diagonal record
(05 R161, R163). -/
def GramRec.ringReads (r : GramRec) : List (Nat × Nat) :=
  r.ringRows.flatMap fun q =>
    let a := r.base + 256 * r.pitch * q
    (a + 128 * r.iOff, 128) :: (if r.diag then [] else [(a + 128 * r.jOff, 128)])

/-- A drain slot: the engine supplies its transfer (11 R344). -/
def isDrainSlot (s : Slot) : Bool := bits s.arg 31 28 = 0xD

/-- Both ends of a transfer slot: source rows and destination rows (08 R245). -/
def Img.xferEnds (x : Img) (s : Slot) : List (Nat × Nat) × List (Nat × Nat) :=
  if isDrainSlot s then ([], [])
  else
    let t := x.xfer s
    (xferRows t.src t.srcPitch t.rowBytes t.rows, xferRows t.dst t.dstPitch t.rowBytes t.rows)

/-- The structure header that a solve record names (06 R193). -/
def Img.hdrOf (x : Img) (r : SolveRec) : StructHdr := structAt x.m r.struct

/-- Bytes of a values image (06 R196). -/
def valuesLen (h : StructHdr) : Nat := up256 (1024 * h.w * h.nblk) + up256 (h.w * h.ngs)

/-- Everything a body's slots touch but what their vector words do (01 R33; 03 R91; 05 R157, R161, R173; 06 R191; 08 R245; 09
R283; 02 R72). -/
def Img.slotTouches (x : Img) (s : Slot) : List Touch :=
  match s.kind with
  | 0 =>
    let r := x.arr s
    touches s false true r.reads ++ touches s true true ((tapWrites r).map (·.2))
  | 1 =>
    let r := x.gram s
    touches s false true r.ringReads ++ (if r.pre = 1 then touches s false true [(r.tile, 16384)] else [])
      ++ (if r.spill then touches s true true [(r.tile, 16384)] else [])
  | 3 => let e := x.xferEnds s; touches s false false e.1 ++ touches s true false e.2
  | 4 =>
    let g := x.msg s
    if isDrainSlot s || decide (3 ≤ g.opc) then [] else touches s (g.opc = 1) false [(g.loc, g.len)]
  | 7 =>
    if s.arg = 3 then touches s true true [((foldAt x.m (x.addr + s.payload)).dst, 2)]
    else if s.arg = 1 then
      touches s true false ((x.kind 8).map fun t => ((x.root t).desc, 64 * rootBlocks (x.root t))).eraseDups
    else []
  | 8 => let r := x.root s; touches s false false [(r.desc, 64 * rootBlocks r)]
  | 9 =>
    let r := x.solve s
    let h := x.hdrOf r
    touches s false false [(r.struct, structBytes h)] ++ touches s true false [(r.values, valuesLen h), (r.work, workBytes x.m r h)]
  | _ => []

/-- Everything a body touches (07 R235). -/
def Img.touches (x : Img) : List Touch :=
  x.b.slots.flatMap x.slotTouches
    ++ x.blocks.flatMap fun b => b.2.flatMap fun i => Machine.touches b.1 false false i.reads ++ Machine.touches b.1 true false i.writes

/-- The slots of the service contexts that touch a shard's ledger, state pieces or weights: its sweep slots (07 R223; 08 R264, R267). -/
def Img.sweeps (x : Img) : List Nat :=
  let own := x.b.ledgers.flatMap fun l =>
    let n := l.nPiece * l.pieceBytes
    (l.ledger, (l.lag + 1) * l.slotBytes) :: (l.gonA, n) :: (x.b.tacks.filter fun t => t.cls = 1 && t.shard = l.shard).map fun t => (t.baseA, t.len)
  let service (s : Slot) : Bool := ((x.b.ctxs[s.ctx]?).map Prod.snd) = some 2 && decide (s.kind ≤ 3)
  ((x.touches.filter fun t => service t.slot && own.any fun r => overlaps t.addr t.len r.1 r.2).map fun t => t.slot.seq).eraseDups

/-! ## Placement (03 R3; 08 R246) -/

/-- [a, a+n) lies in ranges of the placement map that satisfy `p`. -/
def Img.owned (x : Img) (p : Place → Bool) (a n : Nat) : Bool :=
  (cutRanges [(a, n)] ((x.b.places.filter p).map fun e => (e.base, e.len))).isEmpty

/-- A bit mask of the tier an address lies in: 1 local SRAM, 2 HBM, 4 gondola, 0 a hole (08 R243). -/
def tierOf (d : Dev) (a : Nat) : Nat := if inSram d a then 1 else if inHbm d a then 2 else if inGon d a then 4 else 0

/-- [a, a+n) is backed, and lies in one of the tiers of the mask (08 R243, R244). -/
def Img.inTiers (x : Img) (mask a n : Nat) : Bool :=
  rangeBacked x.d a n && tierOf x.d a &&& mask ≠ 0 && tierOf x.d a = tierOf x.d (a + n - 1)

/-- The lines of [a, a+n) lie in the tacked view: a read and a write of one line reach different copies (11 R336). -/
def Img.tacked (x : Img) (a n : Nat) : Bool := (cutRanges [(a, n)] (x.b.tacks.map fun t => (t.baseA, t.len))).isEmpty

/-! ## Order (04 R120; 07 R225, R226) -/

/-- SEQs that a wait word names: the slot awaited, or the local producers of a tally that has to reach all their counts. -/
def Img.waitPreds (x : Img) (w : Nat) : List Nat :=
  match bits w 31 30 with
  | 1 =>
    let ps := (x.kind 4).filter fun s => (x.msg s).ctEn && (x.msg s).ctally = bits w 29 18
    if decide (ps.length ≤ bits w 17 0) then ps.map Slot.seq else []
  | 2 => [w % 2 ^ 30]
  | _ => []

/-- Earlier slots of a slot's own stream. -/
def Img.earlier (x : Img) (s : Slot) : List Slot :=
  x.b.slots.filter fun t => t.stream = s.stream && t.ctx = s.ctx && decide (t.seq < s.seq)

/-- The waits and stream orders of one chip (07 R226, R235). -/
def Img.issueGraph (x : Img) : List (Nat × List Nat) :=
  x.b.slots.map fun s => (s.seq, x.waitPreds s.waitA ++ x.waitPreds s.waitB ++ (x.earlier s).map Slot.seq)

/-- Slots that have completed before a slot issues: those it waits for, and earlier ones of its stream, but that a message
completes in its stream's order only at a FENCE; transfers of one queue complete in slot order (08 R245; 09 R290). -/
def Img.doneGraph (x : Img) : List (Nat × List Nat) :=
  x.b.slots.map fun s =>
    let own := (x.earlier s).filter fun t => t.kind ≠ 4 ∨ s.kind = 6
    let queue := if 256 ≤ s.stream ∧ s.stream ≤ 264 then x.b.slots.filter fun t => t.stream = s.stream && decide (t.seq < s.seq) else []
    (s.seq, x.waitPreds s.waitA ++ x.waitPreds s.waitB ++ (own ++ queue).map Slot.seq)

/-- The predecessors of some nodes of a graph. -/
def predsOf (g : List (Nat × List Nat)) (ns : List Nat) : List Nat := ns.flatMap fun n => ((g.find? (·.1 = n)).map (·.2)).getD []

/-- The nodes reached backwards from `new`, `fuel` steps at most. -/
def reachBack (g : List (Nat × List Nat)) : Nat → List Nat → List Nat → List Nat
  | 0, _, seen => seen
  | fuel + 1, new, seen =>
    let next := ((predsOf g new).filter fun n => !seen.contains n).eraseDups
    if next.isEmpty then seen else reachBack g fuel next (seen ++ next)

/-- Every node that comes before `n` in a graph; `n` itself where it lies on a cycle. -/
def ancestors (g : List (Nat × List Nat)) (n : Nat) : List Nat := reachBack g (g.length + 1) [n] []

/-- Slots that lie on a cycle of a graph. -/
def onCycle (g : List (Nat × List Nat)) : List Nat := (g.map (·.1)).filter fun n => (ancestors g n).contains n

/-! ## Traced copies (12 R360) -/

/-- Some part of [a, a+n) lies in the ranges. -/
def meets (rs : List (Nat × Nat)) (a n : Nat) : Bool := rs.any fun r => overlaps a n r.1 r.2

/-- One instruction of a block carries traced bytes on: the tile rows that hold them (buffer, row) and the ranges they reach. Results
other than those of LD and CVT are not traced. -/
def traceIns (o : List (Nat × Nat) × List (Nat × Nat)) (i : VIns) : List (Nat × Nat) × List (Nat × Nat) :=
  let f := i.f
  let rows := f.rowList
  let kept := o.1.filter fun t => !(t.1 = f.dst && rows.contains t.2)
  if i.isOp 6 1 then
    let n := rows.length
    let out := (moveRows i (ncwDst f.imm)).zipIdx.filterMap fun r => if o.1.contains (f.a, f.row0 + r.2 % n) then some r.1 else none
    (o.1, o.2 ++ out.filter fun r => !o.2.contains r)
  else if i.isOp 6 0 then
    let n := rows.length
    (kept ++ ((moveRows i (f.imm % 16)).zipIdx.filterMap fun r =>
      if meets o.2 r.1.1 r.1.2 then some (f.dst, f.row0 + r.2 % n) else none).eraseDups, o.2)
  else if i.cls = 1 then (kept ++ (rows.filterMap fun r => if o.1.contains (f.a, r) then some (f.dst, r) else none), o.2)
  else if f.dst ≤ 5 then (kept, o.2)
  else o

/-- One pass over the slots: transfers and vector blocks carry traced bytes on. -/
def Img.tracePass (x : Img) (rs : List (Nat × Nat)) : List (Nat × Nat) :=
  let viaXfer := (x.kind 3).flatMap fun s =>
    let e := x.xferEnds s
    ((e.1.zip e.2).filter fun p => meets rs p.1.1 p.1.2).map (·.2)
  let rs := rs ++ viaXfer.filter fun r => !rs.contains r
  x.blocks.foldl (fun rs b => (b.2.foldl traceIns ([], rs)).2) rs

/-- Passes until nothing new is traced, `fuel` at most. -/
def Img.traceLoop (x : Img) : Nat → List (Nat × Nat) → List (Nat × Nat)
  | 0, rs => rs
  | fuel + 1, rs => let n := x.tracePass rs; if n.length = rs.length then rs else x.traceLoop fuel n

/-- The slots of both views of a weight-view record (12 R359). -/
def viewSlots (v : ViewRec) : List (Nat × Nat) :=
  ((List.range v.bN).map fun k => (v.bSlot0 + k * v.bLen, v.bLen)) ++ (List.range v.aN).map fun k => (v.aSlot0 + k * v.aLen, v.aLen)

/-- The ranges that bytes of a slot can reach, the slots left out (12 R360). -/
def Img.traced (x : Img) : List (Nat × Nat) :=
  let slots := viewSlots x.b.view
  if slots.isEmpty then []
  else (x.traceLoop (x.b.slots.length + 1) slots).drop slots.length

/-- A body of the image at `a` as the checks see it. -/
def imgAt (m : Mem) (d : Dev) (a v : Nat) (old : Option PlanBody) : Img := ⟨m, d, a, hdrAt m a, dirFor m a v, bodyAt m a v, old⟩

/-- The sweep slots of a body of the image at `a` (08 R264). -/
def sweepSlotsOf (m : Mem) (d : Dev) (a : Nat) (b : PlanBody) : List Nat :=
  if b.ledgers.isEmpty then [] else ({ imgAt m d a b.variant none with b := b } : Img).sweeps

/-- Traced copies of a body of the image at `a` (12 R360). -/
def tracedOf (m : Mem) (d : Dev) (a : Nat) (b : PlanBody) : List (Nat × Nat) :=
  ({ imgAt m d a b.variant none with b := b } : Img).traced

end Sys2Proof.Machine
end

