-- ==== Sys2Proof/Machine/CheckForm.lean ====
section
/-! DEFINITION. Checks 0x01 to 0x05 of 07 R235: FORMAT, CONTRACT, SHORTFALL, CAPACITY and ADDRESS. -/

namespace Sys2Proof.Machine

/-! ## FORMAT (07 R221 to R228, R238 to R240, R474) -/

/-- The entries of `n` bytes of section `i`. -/
def Img.table (x : Img) (i n : Nat) : List Nat := let s := sect x.dir i; tableAt x.m (x.addr + s.1) n (s.2 / n)

/-- Pairs of positions of a list whose later element fails against the earlier. -/
def clashes {α : Type} (bad : α → α → Bool) : List α → Bool
  | [] => false
  | a :: t => t.any (bad a) || clashes bad t

/-- Header, CRC, directory and the reserved bits of the set's own tables (07 R221, R222, R240). -/
def formatSet (x : Img) : List Fail :=
  failIf 0 (decide (crc64 (imageBytes x.m x.addr) ≠ x.hdr.crc ∨ x.hdr.format ≠ 1) || !x.hdr.resvZero
      || (tableAt x.m (x.addr + 128) 16 16).any fun e => decide (bits e 31 0 ≠ 0))
    ++ failIf 10 ((varDirAt x.m x.addr).any fun e => decide (e.resv ≠ 0))

/-- Sections: their place, their bounds, no overlap; those from 0xB on are empty (07 R221, R222). -/
def formatSects (x : Img) : List Fail :=
  let used := x.dir.zipIdx.filter fun s => s.1.2 ≠ 0
  used.flatMap fun s =>
    failIf s.2 (decide (11 ≤ s.2 ∨ s.1.1 % 256 ≠ 0 ∨ s.1.1 < 384 ∨ imageLen x.m x.addr < s.1.1 + s.1.2)
      || used.any fun t => decide (t.2 < s.2) && overlaps s.1.1 s.1.2 t.1.1 t.1.2)

/-- The stream directory names every slot record once, under its own STREAM and CTX (07 R222). -/
def formatStreams (x : Img) : List Fail :=
  let es := x.table 1 16
  let raw := (x.table 2 32).map slotOfBits
  let run (e : Nat) : List Nat := (List.range (bits e 31 0)).map (bits e 95 64 + ·)
  failIf 1 (decide ((sect x.dir 1).2 % 16 ≠ 0) || es.any (fun e => decide (bits e 115 96 ≠ 0 ∨ bits e 63 32 ≠ 0))
    || clashes (fun e f => bits e 127 116 = bits f 127 116) es
    || es.any (fun e => (run e).any fun i =>
        match raw[i]? with
        | some s => decide (s.stream ≠ bits e 127 119 ∨ s.ctx ≠ bits e 118 116)
        | none => true)
    || decide (((es.flatMap run).eraseDups).length ≠ raw.length ∨ (es.flatMap run).length ≠ raw.length))

/-- Streams that a KIND may sit on (07 R474). -/
def kindOn (kind stream : Nat) : Bool :=
  match kind with
  | 0 => decide (stream < 160)
  | 1 => decide (160 ≤ stream ∧ stream < 200)
  | 2 => decide (200 ≤ stream ∧ stream < 240)
  | 3 => decide (256 ≤ stream ∧ stream ≤ 264)
  | 4 | 6 => decide (240 ≤ stream ∧ stream < 256)
  | 5 => true
  | _ => stream = 265

/-- A slot-complete wait that names no slot of the body, or its own slot (07 R225). -/
def waitBad (x : Img) (s : Slot) (w : Nat) : Bool :=
  bits w 31 30 = 2 && (decide (w % 2 ^ 30 = s.seq) || !(x.b.slots.any fun t => t.seq = w % 2 ^ 30))

/-- Slot records (07 R224, R225, R474). -/
def formatSlots (x : Img) : List Fail :=
  failIf 2 (decide ((sect x.dir 2).2 % 32 ≠ 0))
    ++ ((x.table 2 32).filter fun e => decide (bits e 206 200 ≠ 0)).map (fun e => (2, some (bits e 255 224)))
    ++ failSlots 2 x.b.slots fun s =>
        decide (2 ^ 30 ≤ s.seq ∨ 265 < s.stream ∨ 9 < s.kind ∨ (s.kind = 7 ∧ 4 < s.arg)) || !kindOn s.kind s.stream
          || waitBad x s s.waitA || waitBad x s s.waitB || decide (1 < (x.b.slots.filter fun t => t.seq = s.seq).length)

/-- Bytes of a slot's payload; a drain slot's transfer comes from the engine (07 R224; 11 R344). -/
def payloadLen (s : Slot) : Nat :=
  match s.kind with
  | 0 => 112
  | 1 => 24
  | 2 => 8 * s.arg
  | 3 | 4 => if isDrainSlot s then 0 else 32
  | 7 => if s.arg = 3 then 40 else 0
  | 8 => 32
  | 9 => 64
  | _ => 0

/-- Slots whose payload does not lie in the image (07 R221, R224). -/
def formatPayload (x : Img) : List Fail :=
  failSlots 2 x.b.slots fun s => payloadLen s ≠ 0 && decide (imageLen x.m x.addr < s.payload + payloadLen s)

/-- Reserved bits of the sections of chapter 7 (07 R223, R228, R238, R239). -/
def formatResv (x : Img) : List Fail :=
  let arb := (x.table 5 16).take x.b.arbs.length
  failIf 0 (decide ((sect x.dir 0).2 ≠ 64) || (x.table 0 8).any fun e => decide (bits e 57 48 ≠ 0))
    ++ failIf 5 (arb.any fun e => decide (bits e 106 96 ≠ 0 ∨ bits e 63 48 ≠ 0)
        || (tableAt x.m (x.addr + bits e 47 0) 2 (bits e 95 64)).any fun w => decide (bits w 3 0 ≠ 0))
    ++ failIf 8 ((x.table 8 32).any fun e => decide (bits e 139 0 ≠ 0))
    ++ failIf 9 (x.b.conts.any fun c => (permAt x.m x.addr c).any fun e => decide (e.resv ≠ 0))

/-- FORMAT. -/
def checkFormat (x : Img) : List Fail :=
  (if x.b.variant = 0 then formatSet x else []) ++ formatSects x ++ formatStreams x ++ formatSlots x ++ formatPayload x ++ formatResv x

/-! ## CONTRACT, SHORTFALL, CAPACITY (01 R36; 07 R221; 08 R247) -/

/-- CONTRACT: a plan for another part or contract (00 R2; 07 R221). -/
def checkContract (x : Img) : List Fail := failIf 0 (decide (x.hdr.magic ≠ 0x4B525031 ∨ x.hdr.contract ≠ 1))

/-- SHORTFALL: the header counts more than discovery does (01 R36). -/
def checkShortfall (x : Img) : List Fail :=
  failIf 0 (decide (nArrDisc x.d < x.hdr.nArr ∨ nSgDisc x.d < x.hdr.nSg ∨ nGramDisc x.d < x.hdr.nGram ∨ nSgDisc x.d < x.hdr.nVu
    ∨ Config.nCtx < x.hdr.nCtx ∨ nBankDisc x.d < x.hdr.nBank ∨ nTpDisc x.d < x.hdr.nTp))

/-- Bytes placed in tiers. -/
def placed (x : Img) (tiers : List Nat) : Nat := ((x.b.places.filter fun p => tiers.contains p.tier).map Place.len).sum

/-- A placement entry in the aperture of its tier, in a part that discovery does not report: an absent bank or stack, or beyond what an
ONLINE bay or a whole interleave set maps (08 R247). -/
def placeBeyond (d : Dev) (p : Place) : Bool :=
  !rangeBacked d p.base p.len && decide (p.len ≠ 0) &&
    (match p.tier with
     | 0 => decide (p.base + p.len ≤ 0x60000000)
     | 1 => (stackOf p.base).isSome && stackOf p.base = stackOf (p.base + p.len - 1)
     | 2 => inGon d p.base && decide (p.base < ilBase)
     | 3 => inGon d p.base && decide (ilBase ≤ p.base)
     | _ => false)

/-- CAPACITY: placement above what discovery reports, or an image above 4 GiB (01 R36; 07 R221; 08 R247). -/
def checkCapacity (x : Img) : List Fail :=
  let sram := nBankDisc x.d * 0x2000000
  let hbm := hbmDiscovered x.d
  let gon := gonWin x.d * unit256
  failIf 0 (decide (2 ^ 32 < imageLen x.m x.addr ∨ sram < x.hdr.sram ∨ hbm < x.hdr.hbm ∨ gon < x.hdr.gon))
    ++ failIf 6 (decide (sram < placed x [0] ∨ hbm < placed x [1] ∨ gon < placed x [2, 3]) || x.b.places.any (placeBeyond x.d))

/-! ## ADDRESS (01 R33; 04 R145; 08 R244 to R247) -/

/-- A placement entry that breaks R246, R247 or R244. -/
def placeBad (d : Dev) (p : Place) : Bool :=
  decide (3 < p.tier ∨ 6 < p.use ∨ p.base % 256 ≠ 0 ∨ p.len = 0 ∨ p.len % 256 ≠ 0) || !rangeBacked d p.base p.len
    || tierOf d p.base ≠ (if p.tier = 0 then 1 else if p.tier = 1 then 2 else 4)
    || tierOf d (p.base + p.len - 1) ≠ tierOf d p.base
    || (decide (2 ≤ p.tier) && (decide (ilBase ≤ p.base) != decide (p.tier = 3)))

/-- The placement map (08 R246, R247). -/
def addressPlaces (x : Img) : List Fail :=
  failIf 6 (decide ((sect x.dir 6).2 % 16 ≠ 0) || (x.table 6 16).any (fun e => decide (bits e 119 96 ≠ 0))
    || x.b.places.any (placeBad x.d) || clashes (fun p q => overlaps p.base p.len q.base q.len) x.b.places)

/-- Tiers in which a touch keeps ADDRESS: local SRAM for arrays, Gram arrays and flag folds, local SRAM or HBM for moves, any for a
transfer. What R168, R191 and R247 keep out of the gondola tier, STATE rejects, and a message's LOCAL there TETHER (01 R33; 04 R145; 08 R245, R247; 09 R282). -/
def touchTiers (t : Touch) : Nat :=
  match t.slot.kind with
  | 0 => 5
  | 3 | 4 | 8 | 9 => 7
  | _ => if t.sram then 1 else if t.slot.kind = 7 then 7 else 3

/-- A range that a slot touches lies outside the placement map or in a tier it may not (01 R33; 04 R145; 08 R244). -/
def touchBad (x : Img) (t : Touch) : Bool := !x.owned (fun _ => true) t.addr t.len || !x.inTiers (touchTiers t) t.addr t.len

/-- The end of a transfer that its queue serves: stack s, or the gondola tier on the port G queue (08 R245). -/
def onQueue (x : Img) (stream a n : Nat) : Bool :=
  if stream = 264 then x.inTiers 4 a n else decide (stackOf a = some (stream - 256)) && decide (stackOf (a + n - 1) = stackOf a)

/-- The other end: local SRAM, or on the queue of a stack that stack; on the port G queue HBM (08 R245). -/
def offQueue (x : Img) (stream a n : Nat) : Bool :=
  if stream = 264 then x.inTiers 3 a n else x.inTiers 1 a n || onQueue x stream a n

/-- A transfer descriptor that breaks R245. -/
def xferBad (x : Img) (s : Slot) : Bool :=
  let t := x.xfer s
  let e := x.xferEnds s
  let q (r : Nat × Nat) : Bool := onQueue x s.stream r.1 r.2
  let o (r : Nat × Nat) : Bool := offQueue x s.stream r.1 r.2
  decide (t.src % 16 ≠ 0 ∨ t.dst % 16 ≠ 0 ∨ t.rowBytes = 0 ∨ t.rowBytes % 16 ≠ 0 ∨ t.resv ≠ 0)
    || !((e.1.all q && e.2.all o) || (e.1.all o && e.2.all q)) || e.1.any fun r => meets e.2 r.1 r.2

/-- A MOVE whose address is not aligned (04 R145). -/
def moveMisaligned (i : VIns) : Bool :=
  i.cls = 6 && (if i.op = 3 then decide (i.e.toNat % 2 ^ 40 % (if i.f.wide then 8 else 4) ≠ 0) else decide (extAddr i.e % 16 ≠ 0))

/-- The ranges that records name, each with a mask of its tiers: limit words, digest and tack copies, the copies of a lagged shard, and the
snapshot ranges in use. A ledger or a status block in the gondola tier fails STATE (08 R247, R261; 10 R311, R325; 11 R334, R335). -/
def recordRangesOf (x : Img) : List (Nat × Nat × Nat) :=
  let t := x.b.tack
  (x.b.limits.flatMap fun l => [(1, l.amaxAddr, 4), (1, l.flagAddr, 4)])
    ++ (x.b.digests.flatMap fun e => [(3, e.baseA, e.len), (3, e.baseB, e.len)])
    ++ (x.b.tacks.flatMap fun e => [(7, e.baseA, e.len), (7, e.baseB, e.len)])
    ++ (x.b.ledgers.flatMap fun l =>
        let w (a : Nat) : Nat := ((x.b.tacks.find? fun t => t.cls = 1 && t.shard = l.shard && t.baseA = a).map TackEnt.len).getD 256
        [(6, l.ledger, (l.lag + 1) * l.slotBytes), (6, l.status, 128), (4, l.gonA, l.nPiece * l.pieceBytes), (4, l.gonB, l.nPiece * l.pieceBytes),
         (6, l.wA, w l.wA), (6, l.wB, w l.wA)])
    ++ (if bit t.tgt 0 then [(4, t.gonBase, 2 * t.slotBytes)] else [])
    ++ (if t.tgt ≠ 0 then [(1, t.area, 128 * x.hdr.nRank + 64), (1, t.stage, 0x1000000)] else [])
    ++ (if t.ward ≠ 0xFFFF ∧ t.tgt ≠ 0 then [(7, t.inBase, 2 * t.slotBytes)] else [])

/-- ADDRESS. -/
def checkAddress (x : Img) : List Fail :=
  addressPlaces x ++ (x.touches.filter (touchBad x)).map (fun t => (2, some t.slot.seq))
    ++ failSlots 2 ((x.kind 3).filter fun s => !isDrainSlot s) (xferBad x)
    ++ (x.blocks.filter fun b => b.2.any moveMisaligned).map (fun b => (4, some b.1.seq))
    ++ failIf 3 ((recordRangesOf x).any fun r => decide (r.2.2 ≠ 0) && !(x.owned (fun _ => true) r.2.1 r.2.2 && x.inTiers r.1 r.2.1 r.2.2))

end Sys2Proof.Machine
end

