-- ==== Sys2Proof/Machine/CheckState.lean ====
section
/-! DEFINITION. Checks 0x06 and 0x07 of 07 R235: STATE and CONTEXT. -/

namespace Sys2Proof.Machine

/-! ## Records (08 R261; 10 R311, R315, R325; 11 R334; 12 R359) -/

/-- SEQ of the verdict point (10 R308). -/
def Img.verdictSeqs (x : Img) : List Nat := ((x.kind 7).filter (·.arg = 2)).map Slot.seq

/-- The verdict point that the other checks of STATE use. -/
def Img.vp (x : Img) : Nat := (x.verdictSeqs.head?).getD 0

/-- The five records of RECORD as numbers: verdict, tack, weight view (10 R315; 11 R334; 12 R359). -/
def Img.recordBits (x : Img) (i : Nat) : Nat := x.m.readLE (x.addr + (sect x.dir 3).1 + 64 * i) 64

/-- Tallies that the plan uses: waited on, signalled, completed, or named by a solver's halo (06 R194; 07 R225; 09 R283). -/
def Img.tallies (x : Img) : List Nat :=
  (x.b.slots.flatMap fun s => ([s.waitA, s.waitB].filter fun w => bits w 31 30 = 1).map fun w => bits w 29 18)
    ++ ((x.kind 4).flatMap fun s =>
        let g := x.msg s
        (if g.sig ∨ g.opc = 3 then [g.tally] else []) ++ (if g.ctEn then [g.ctally] else []))
    ++ (x.kind 9).flatMap fun s =>
        let r := x.solve s
        let h := x.hdrOf r
        let at' := r.struct + 256 + up256 (8 * h.nblk) + up256 (8 * h.ngs) + up256 (4 * h.nbrl) + up256 (4 * h.nsrl) + up256 (16 * h.nlev)
        (tableAt x.m at' 32 h.nnb).map fun e => bits e 239 224

/-- The verdict record (10 R315). -/
def stateVerdict (x : Img) : List Fail :=
  let v := x.b.verdict
  let ts := [v.voteT, v.sealT, v.recT]
  failIf 3 (decide (bits (x.recordBits 0) 211 0 ≠ 0 ∨ v.area % 256 ≠ 0 ∨ v.sealTo < 1000 ∨ 10000000 < v.sealTo)
    || !x.owned (fun p => p.tier = 0 && (p.use = 0 || p.use = 6)) v.area (64 + 256 * x.hdr.nRank)
    || clashes (fun a b => a = b) ts || ts.any x.tallies.contains)

/-- Bytes that the step's slots of this chip write before its verdict point (10 R311). -/
def Img.earlyWrites (x : Img) : List (Nat × Nat) :=
  (x.touches.filter fun t => t.write && decide (t.slot.seq < x.vp)).map fun t => (t.addr, t.len)

/-- A limit of R311: NaN, negative or zero. -/
def limBad (w : W32) : Bool := match fp32.decode w.toNat with
  | .nan => true
  | .inf s => s
  | .fin s m _ => s || m = 0

/-- The limit table: its words, its limits, and that every step writes each word before the verdict point; of a flag word the 16 bits
that a fold writes (02 R72; 10 R311). -/
def stateLimits (x : Img) : List Fail :=
  let early := x.earlyWrites
  let raw := tableAt x.m (x.addr + bits (x.recordBits 0) 363 316) 32 x.b.limits.length
  failIf 3 (raw.any (fun e => decide (bits e 101 0 ≠ 0)) || clashes (fun a b => a.tensor = b.tensor) x.b.limits
    || x.b.limits.any fun l =>
        decide (l.tensor = 0xFFFF ∨ l.amaxAddr % 4 ≠ 0 ∨ l.flagAddr % 4 ≠ 0) || limBad l.lim
          || !(cutRanges [(l.amaxAddr, 4), (l.flagAddr, 2)] early).isEmpty)

/-- The digest table (10 R325). -/
def stateDigests (x : Img) : List Fail :=
  let raw := tableAt x.m (x.addr + bits (x.recordBits 0) 291 244) 32 x.b.digests.length
  failIf 3 (raw.any (fun e => decide (bits e 111 0 ≠ 0))
    || x.b.digests.any fun e => decide (e.baseA % 256 ≠ 0 ∨ e.baseB % 256 ≠ 0 ∨ e.len = 0 ∨ e.len % 256 ≠ 0))

/-- The ledger records: one for each lagged shard (08 R261; 11 R337; log entry 27). -/
def stateLedgers (x : Img) : List Fail :=
  let raw := tableAt x.m (x.addr + (sect x.dir 3).1 + 192) 64 x.b.ledgers.length
  failIf 3 (raw.any (fun e => decide (bits e 108 0 ≠ 0 ∨ (bits e 112 109 ≠ 0 ∧ bits e 112 109 ≠ 2)))
    || clashes (fun a b => a.shard = b.shard) x.b.ledgers
    || x.b.ledgers.any fun l => decide (l.slotBytes % 256 ≠ 0 ∨ l.pieceBytes % 4096 ≠ 0)
      || !x.owned (fun p => p.use = 3) l.ledger ((l.lag + 1) * l.slotBytes))

/-- A root set of the shard, by the SHARD_ID of the tack entry that holds its descriptors, one of whose blocks a piece boundary splits: the
pieces cut the set's features evenly (08 R265; log entry 35). -/
def pieceSplits (x : Img) (l : Ledger) : Bool :=
  decide (1 < l.nPiece) && (rootRecs x.m x.addr x.b).any fun r =>
    (x.b.tacks.any fun t => t.kind = 3 && t.shard = l.shard && inside r.desc 1 t.baseA t.len)
      && decide (r.dim % (l.nPiece * blockSize r) ≠ 0)

/-- No piece boundary splits a preconditioner block (08 R265). -/
def statePieces (x : Img) : List Fail := failIf 3 (x.b.ledgers.any (pieceSplits x))

/-! ## Tack table (11 R335, R337) -/

/-- A tack entry by itself: code, alignment, placement, WRITER, and the ledger record of a lagged one (11 R335, R337). -/
def tackBad (x : Img) (t : TackEnt) : Bool :=
  decide (1 < t.cls ∨ t.baseA % 256 ≠ 0 ∨ t.baseB % 256 ≠ 0 ∨ t.len = 0 ∨ t.len % 256 ≠ 0)
    || !x.owned (fun p => p.use = 1) t.baseA t.len || !x.owned (fun p => p.use = 2) t.baseB t.len
    || (if t.kind = 7 then decide (x.hdr.nRank ≤ t.writer) else decide (t.writer ≠ 0xFFFF))
    || (t.cls = 1 && !x.b.ledgers.any fun l =>
        l.shard = t.shard && ((t.baseA = l.wA && t.baseB = l.wB) || (t.baseA = l.gonA && t.baseB = l.gonB)))

/-- The tack table by itself (11 R335, R337). -/
def stateTacks (x : Img) : List Fail :=
  let raw := tableAt x.m (x.addr + bits (x.recordBits 1) 511 464) 32 x.b.tacks.length
  failIf 3 (decide (bits (x.recordBits 1) 4 0 ≠ 0) || raw.any (fun e => decide (bits e 218 208 ≠ 0 ∨ bits e 63 0 ≠ 0))
    || x.b.tacks.any (tackBad x)
    || clashes (fun a b => overlaps a.1 a.2 b.1 b.2) (x.b.tacks.flatMap fun t => [(t.baseA, t.len), (t.baseB, t.len)]))

/-- Writes of this chip's slots into a tack entry's view, clipped to it, in slot order (11 R336). -/
def Img.writesTo (x : Img) (t : TackEnt) : List (Nat × Nat × Nat) :=
  (x.touches.filter (·.write)).flatMap fun u => (meetRanges [(u.addr, u.len)] [(t.baseA, t.len)]).map fun r => (u.slot.seq, r)

/-- Lines of an EVERY entry: all written exactly once before the verdict point; of a replica the chip's own at most once. Entries that
the root service and the solvers write themselves are left out (11 R337; log entry 35). -/
def stateLines (x : Img) : List Fail :=
  (x.b.tacks.filter fun t => t.cls = 0 && t.kind ≠ 3 && t.kind ≠ 5).flatMap fun t =>
    let ws := (x.writesTo t).filter fun w => decide (w.1 < x.vp)
    let twice := ws.zipIdx.filter fun w => ws.zipIdx.any fun u =>
      decide (u.1.1 < w.1.1 ∨ (u.1.1 = w.1.1 ∧ u.2 < w.2)) && overlaps u.1.2.1 u.1.2.2 w.1.2.1 w.1.2.2
    failSeqs 2 (twice.map (·.1.1))
      ++ failIf 3 (t.kind ≠ 7 && !(cutRanges [(t.baseA, t.len)] (ws.map (·.2))).isEmpty)

/-- Moments first, weights last: no write to an entry of KIND 0b001 to 0b110 follows the first write to the shard's KIND 0b000 entry
(11 R337). -/
def stateOrder (x : Img) : List Fail :=
  (x.b.tacks.filter (·.kind = 0)).flatMap fun t =>
    match ((x.writesTo t).map (·.1)).min? with
    | none => []
    | some first =>
      (x.b.tacks.filter fun u => u.shard = t.shard && decide (1 ≤ u.kind ∧ u.kind ≤ 6)).flatMap fun u =>
        failSeqs 2 (((x.writesTo u).map (·.1)).filter fun q => decide (first ≤ q))

/-- Slots that name a tack B address: only the fields of a ledger record do, and an access to either copy of a lagged range names its
tacked view (05 R155; 11 R336, R337). -/
def stateTackB (x : Img) : List Fail :=
  failSeqs 2 ((x.touches.filter fun u => x.b.tacks.any fun t => overlaps u.addr u.len t.baseB t.len).map fun u => u.slot.seq)

/-- State writes that can follow the verdict point, local or to a replica; only slots that carry may (10 R308). -/
def stateLate (x : Img) : List Fail :=
  let tacks := x.b.tacks.map fun t => (t.baseA, t.len)
  let late (s : Slot) : Bool := !s.carry && decide (x.vp < s.seq)
  failSeqs 2 ((x.touches.filter fun u => u.write && late u.slot && meets tacks u.addr u.len).map fun u => u.slot.seq)
    ++ failSlots 2 ((x.kind 4).filter fun s => late s && !isDrainSlot s) fun s =>
        let g := x.msg s
        (g.opc = 0 || g.opc = 2) && meets tacks g.remote g.len

/-- Exactly one verdict point (10 R308). -/
def stateVerdictPoint (x : Img) : List Fail := failIf 2 (decide (x.verdictSeqs.length ≠ 1))

/-! ## The gondola tier (05 R168; 06 R191; 08 R247) -/

/-- A range that lies in a placement entry of the gondola tier. -/
def Img.inGondola (x : Img) (a n : Nat) : Bool := x.b.places.any fun p => decide (2 ≤ p.tier) && overlaps a n p.base p.len

/-- Root buffers and descriptor tables of a body (05 R175). -/
def Img.rootRanges (x : Img) : List (Nat × Nat) :=
  (x.kind 8).flatMap fun s =>
    let r := x.root s
    (r.desc, 64 * rootBlocks r) :: (List.range (rootBlocks r)).flatMap fun b =>
      [0, 1, 2].map fun i => (descBuf (x.m.readLE (descAddr r b) 64) i, rootBytes r)

/-- A state range of the gondola tier that holds more than the optimizer state of lagged shards (08 R247). -/
def gondolaState (x : Img) (p : Place) : Bool :=
  decide (2 ≤ p.tier) && (p.use = 1 || p.use = 2) &&
    !(cutRanges [(p.base, p.len)] ((x.b.tacks.filter fun t => t.cls = 1 && t.kind ≠ 0).flatMap fun t => [(t.baseA, t.len), (t.baseB, t.len)])).isEmpty

/-- What may not lie in the gondola tier, and factors outside HBM (05 R168; 06 R191; 08 R247). -/
def stateGondola (x : Img) : List Fail :=
  let g (r : Nat × Nat) : Bool := x.inGondola r.1 r.2
  failIf 6 (x.b.places.any fun p => (decide (2 ≤ p.tier) && (p.use = 3 || p.use = 4 || p.use = 6)) || gondolaState x p)
    ++ failIf 3 (x.b.tacks.any fun t => t.kind = 2 && !([t.baseA, t.baseB].all fun a => inHbm x.d a && inHbm x.d (a + t.len - 1)))
    ++ failIf 3 (x.b.tacks.any (fun t => (t.cls = 0 || t.kind = 0 || t.kind = 2 || t.kind = 3) && (g (t.baseA, t.len) || g (t.baseB, t.len)))
        || x.b.ledgers.any (fun l => g (l.ledger, (l.lag + 1) * l.slotBytes) || g (l.status, 128) || g (l.wA, 1) || g (l.wB, 1))
        || g (x.addr, imageLen x.m x.addr) || x.rootRanges.any g)
    ++ failSeqs 3 ((x.touches.filter fun t => [0, 8, 9].contains t.slot.kind && g (t.addr, t.len)).map fun t => t.slot.seq)

/-! ## Snapshots (11 R334, R343, R344) -/

/-- Bytes of the largest snapshot the plan can produce, commit record included (11 R342, R343). -/
def largestSnap (x : Img) : Nat :=
  let roots := (rootRecs x.m x.addr x.b).flatMap fun r => List.replicate (rootBlocks r) (rootBytes r)
  let items := ((x.b.tacks.filter (·.kind ≠ 7)).map TackEnt.len) ++ roots
    ++ x.b.ledgers.flatMap fun l => 64 :: List.replicate l.lag l.slotBytes
  items.foldl (fun o n => ceilDiv o 4096 * 4096 + n) (256 + 32 * items.length) + 64

/-- The fields of the tack record, SLOT_BYTES, the staging range, and the drain slots of each target in use (11 R334, R343, R344). -/
def stateSnap (x : Img) : List Fail :=
  let t := x.b.tack
  failIf 3 (decide (x.b.tacks.length = 0 ∨ t.iMin = 0 ∨ t.iMax < t.iMin))
    ++ failIf 3 (decide (t.tgt ≠ 0) && (decide (t.slotBytes % 4096 ≠ 0 ∨ t.slotBytes < largestSnap x ∨ t.area % 256 ≠ 0)
        || !x.owned (fun p => p.tier = 0 && p.use = 6) t.stage 0x1000000))
    ++ failIf 2 ((bit t.tgt 0 && !x.b.slots.any fun s => isDrainSlot s && s.kind = 3 && s.stream = 264)
        || (bit t.tgt 1 && !x.b.slots.any fun s => isDrainSlot s && s.kind = 4))

/-! ## Weight views (12 R359, R360, R377) -/

/-- The weight-view record and its slots (12 R359, R360). -/
def stateView (x : Img) : List Fail :=
  let v := x.b.view
  let slots := viewSlots v
  let odd (n a l : Nat) : Bool := decide (n ≠ 0 ∧ (a % 65536 ≠ 0 ∨ l % 65536 ≠ 0))
  failIf 3 (decide (bits (x.recordBits 2) 315 0 ≠ 0) || odd v.bN v.bSlot0 v.bLen || odd v.aN v.aSlot0 v.aLen
    || slots.any (fun s => !x.owned (fun p => p.tier = 1 && p.use = 0) s.1 s.2
        || x.b.tacks.any fun t => overlaps s.1 s.2 t.baseA t.len || overlaps s.1 s.2 t.baseB t.len)
    || clashes (fun a b => overlaps a.1 a.2 b.1 b.2) slots
    || (recordRangesOf x).any fun r => meets slots r.2.1 r.2.2)

/-- Slots that write a view or a weight slot, and ways by which bytes of one reach what they may not: a message, the port G queue, a
snapshot target or a range of USE 0x5 (12 R360). -/
def stateSealed (x : Img) : List Fail :=
  let slots := viewSlots x.b.view
  let all := slots ++ x.traced
  let out (s : Slot) : Bool :=
    if s.kind = 4 ∧ !isDrainSlot s then
      let g := x.msg s
      (g.opc = 0 || g.opc = 2) && meets all g.loc g.len
    else if s.kind = 3 ∧ s.stream = 264 then (x.xferEnds s).1.any fun r => meets all r.1 r.2
    else false
  failSeqs 2 ((x.touches.filter fun t => t.write && meets slots t.addr t.len).map fun t => t.slot.seq)
    ++ failSlots 2 x.b.slots out
    ++ failIf 3 (x.traced.any fun r =>
        (x.b.tack.tgt ≠ 0 && x.b.tacks.any fun t => overlaps r.1 r.2 t.baseA t.len || overlaps r.1 r.2 t.baseB t.len)
          || x.b.places.any fun p => p.use = 5 && overlaps r.1 r.2 p.base p.len)

/-- Retained slots: a placement that overlaps one names it in the same geometry (12 R377). -/
def stateRetained (x : Img) : List Fail :=
  failIf 6 (decide (geomOf x.b.view ≠ x.d.wgt.geom) && (liveRanges x.d).any fun r => x.b.places.any fun p => overlaps r.1 r.2 p.base p.len)

/-- STATE. -/
def checkState (x : Img) : List Fail :=
  stateVerdict x ++ stateLimits x ++ stateDigests x ++ stateLedgers x ++ statePieces x ++ stateTacks x ++ stateLines x ++ stateOrder x ++ stateTackB x
    ++ stateLate x ++ stateVerdictPoint x ++ stateGondola x ++ stateSnap x ++ stateView x ++ stateSealed x ++ stateRetained x

/-! ## CONTEXT (04 R120; 07 R221, R223, R234) -/

/-- A slot that may carry: a transfer, a ROOT slot, drain traffic, or ledger traffic (07 R234). -/
def mayCarry (x : Img) (s : Slot) : Bool :=
  s.kind = 3 || s.kind = 8 ||
    (s.kind = 4 && (isDrainSlot s
      || (decide (s.arg = 0xE0000000) && x.b.places.any fun p => p.use = 3 && inside (x.msg s).loc (x.msg s).len p.base p.len)))

/-- Tile buffers that the instructions of a block use. -/
def bufsOf (is : List VIns) : List Nat := (is.flatMap fun i => [i.f.dst, i.f.a, i.f.b, i.f.c].filter (· ≤ 5)).eraseDups

/-- Blocks that take a tile buffer from another context without an order after its last use there (04 R120). -/
def contextBufs (x : Img) : List Fail :=
  let g := x.doneGraph
  let bs := x.blocks
  failSeqs 4 ((bs.filter fun b => bs.any fun c =>
    c.1.stream = b.1.stream && c.1.ctx ≠ b.1.ctx && decide (c.1.seq < b.1.seq)
      && (bufsOf c.2).any (bufsOf b.2).contains && !(ancestors g b.1.seq).contains c.1.seq).map fun b => b.1.seq)

/-- CONTEXT. -/
def checkContext (x : Img) : List Fail :=
  let es := x.table 0 8
  let n := (x.b.ctxs.zipIdx.filter (·.1.1)).foldl (fun n c => max n (c.2 + 1)) 0
  failIf 0 (es.zipIdx.any (fun e => decide (bits e.1 62 61 = 3 ∨ bits e.1 60 58 ≠ e.2)) || decide (x.hdr.nCtx ≠ n ∨ n = 0))
    ++ failSlots 2 x.b.slots (fun s => !((x.b.ctxs[s.ctx]?).map (·.1)).getD false || (s.carry && !mayCarry x s))
    ++ contextBufs x

end Sys2Proof.Machine
end

