-- ==== Sys2Proof/Machine/CheckEngine.lean ====
section
/-! DEFINITION. Checks 0x08 to 0x0C of 07 R235: NUMERIC, ARRAY, TIMING, QUEUE and VECTOR. What firmware's timing simulation alone
can tell comes from `Config.simFault` (log entry 35). -/

namespace Sys2Proof.Machine

/-- The slot that firmware's simulation fails for code `c`, in the primary or variant it concerns (07 R235; log entry 35). -/
def simFails (x : Img) (c sect : Nat) : List Fail :=
  match Config.simFault c x.b.variant (imageBytes x.m x.addr) with
  | some q => [(sect, some q)]
  | none => []

/-! ## NUMERIC (02 R58, R59; 05 R179) -/

/-- Destinations of an array drain (02 R59). -/
def drainTo (k : AccKind) (dst : Nat) : Bool :=
  match k with
  | .xf32 => [0, 2, 3, 4, 5, 6, 9].contains dst
  | .fp64 => dst ≤ 1
  | .int => [8, 7, 0, 2, 3].contains dst

/-- The drain of an array record breaks R58, R59 or R179. -/
def drainNcwBad (r : ArrRec) : Bool := !r.dest && (!ncwOk r.ncw || !drainTo r.acc (ncwDst r.ncw) || (probeStream r.ncw r.stream))

/-- A conversion of a vector block that breaks R58 or R59. -/
def convBad (i : VIns) : Bool :=
  if i.cls = 1 then !ncwOk i.f.imm || decide (8 < ncwDst i.f.imm)
  else if i.isOp 6 1 then !ncwOk i.f.imm || decide (8 < ncwDst i.f.imm) || (i.f.type = 2 && ncwDst i.f.imm ≠ 8)
  else false

/-- NUMERIC. -/
def checkNumeric (x : Img) : List Fail :=
  failSlots 3 (x.kind 0) (fun s => drainNcwBad (x.arr s)) ++ (x.blocks.filter fun b => b.2.any convBad).map fun b => (4, some b.1.seq)

/-! ## ARRAY (02 R55; 03 R88, R91 to R100) -/

/-- Formats that an operation takes (02 R55; 03 R96). -/
def pairOk (op a w : Nat) : Bool :=
  let eight := (a = 4 || a = 5) && (w = 4 || w = 5)
  let half := (a = 2 || a = 3) && (w = 2 || w = 3)
  let int8 := a = 7 && w = 7
  let common := eight || half || (a = 0 && w = 0)
  match op with
  | 0 => common || (a = w && (a = 6 || a = 1)) || int8
  | 1 | 2 => common
  | 3 | 4 | 6 | 7 => common || int8
  | 5 => int8
  | _ => false

/-- Largest M-block of a layout (03 R88). -/
def maxBlock (mode : Nat) : Nat := if mode = 0 then 256 else if mode = 1 then 128 else 64

/-- An array record that breaks R95, R99 or R100 by itself. -/
def arrBad (r : ArrRec) : Bool :=
  decide (7 < r.op ∨ r.mode = 3 ∨ 1 < r.preload ∨ r.paneEn = 0 ∨ 2 ^ (paneSide r.mode * paneSide r.mode) ≤ r.paneEn
      ∨ paneEdge r.mode < r.kImg ∨ paneEdge r.mode < r.nImg ∨ maxBlock r.mode < r.rows)
    || !pairOk r.op r.aFmt r.wFmt || (r.xload && (r.aFmt = 6 || r.wFmt = 6)) || (r.dest && decide (r.ncw ≠ 0))
    || (r.aFmt = 6 && decide (r.kImg % 16 ≠ 0))

/-- The set before on the array left the half that this record preloads (03 R95). -/
def leftHalf (p r : ArrRec) : Bool :=
  p.dest && p.acc = r.acc && p.mode = r.mode && p.paneEn = r.paneEn && p.nImg = r.nImg && p.rows = r.rows

/-- A preload from the carry store without the words it needs: from the previous weight set of its M-block, or a carry fill (03 R90,
R95). -/
def preloadBad (x : Img) (s : Slot) : Bool :=
  let r := x.arr s
  if r.preload ≠ 1 ∨ r.cfill ≠ 0 then false -- a fill writes every row of the M-block
  else
    match ((x.kind 0).filter fun t => t.stream = s.stream && decide (t.seq < s.seq)).getLast? with
    | some t => !leftHalf (x.arr t) r
    | none => true

/-- Another array of the group streams the same activation rows, which the spar presents to both, in another layout or format (01 R32; 03
R82, R95; log entry 55). -/
def sparClash (x : Img) (s : Slot) : Bool :=
  let r := x.arr s
  (x.kind 0).any fun t =>
    let q := x.arr t
    t.stream / 4 = s.stream / 4 && t.stream ≠ s.stream && q.aAddr = r.aAddr && q.aPitch = r.aPitch && q.rows = r.rows
      && (q.mode ≠ r.mode || q.aFmt ≠ r.aFmt)

/-- ARRAY. -/
def checkArray (x : Img) : List Fail :=
  failSlots 3 (x.kind 0) (fun s => arrBad (x.arr s) || preloadBad x s || sparClash x s) ++ simFails x 0x09 3

/-! ## TIMING (03 R80; 07 R235; 08 R267) -/

/-- Slots whose accesses validation orders: those of the engines, the transfer queues and the tethers, and flag folds. -/
def ordered (s : Slot) : Bool := decide (s.kind ≤ 4) || (s.kind = 7 && s.arg = 3)

/-- Two slots' accesses depend on each other: one of them writes what the other touches, but for a read and a write of one tacked line,
which reach different copies (07 R235; 11 R336). -/
def dependent (x : Img) (t u : Touch) : Bool :=
  (t.write || u.write) &&
    (meetRanges [(t.addr, t.len)] [(u.addr, u.len)]).any fun r => (t.write && u.write) || !x.tacked r.1 r.2

/-- A slot that depends on an earlier one without an order after it. -/
def missingWait (x : Img) : List Fail :=
  let g := x.doneGraph
  let ts := x.touches.filter fun t => ordered t.slot
  failSeqs 2 ((ts.filter fun u => ts.any fun t =>
    decide (t.slot.seq < u.slot.seq) && dependent x t u && !(ancestors g u.slot.seq).contains t.slot.seq).map fun u => u.slot.seq)

/-- Bytes that the link of bay `b` moves each way in a watch cycle (08 R270). -/
def bayRate (d : Dev) (b : Nat) : Nat :=
  match d.gon.bays[b]? with
  | some y => (if y.gen = 3 then 2300 else if y.gen = 2 then 1150 else if y.gen = 1 then 520 else 0) * y.linkW / 16
  | none => 0

/-- Bays that hold some of [a, a+n), by its ends and its 4 KiB steps. -/
def baysIn (d : Dev) (a n : Nat) : List Nat :=
  ((a :: (a + n - 1) :: (List.range (n / 4096)).map fun k => a + 4096 * k).filterMap fun b => (gonTarget d b).map Prod.fst).eraseDups

/-- The fewest watch cycles of one sweep: its state pieces cross port G once each way (08 R264, R267, R270). -/
def sweepCycles (d : Dev) (l : Ledger) : Nat :=
  let n := l.nPiece * l.pieceBytes
  let rate := min 2300 (((baysIn d l.gonA n ++ baysIn d l.gonB n).eraseDups.map (bayRate d)).sum)
  if rate = 0 then 0 else ceilDiv n rate

/-- TIMING. -/
def checkTiming (x : Img) : List Fail :=
  missingWait x ++ failIf 3 (x.b.ledgers.any fun l => decide (x.hdr.stepTo < sweepCycles x.d l))
    ++ failIf 0 (decide (x.hdr.period ≠ 0 ∧ 12 * x.hdr.period < Config.simMinStep (imageBytes x.m x.addr)))
    ++ simFails x 0x0A 2

/-! ## QUEUE (04 R113 to R116) -/

/-- A tile-queue entry in claim order: SEQ and context of its weight set, and 1 or 2 for the halves of a WIDE pair. -/
structure Claimed where
  seq : Nat
  ctx : Nat
  half : Nat
deriving DecidableEq, Repr

/-- The entries that one step claims in a group, in slot order (03 R102, R103; 04 R116). -/
def claimsOf (x : Img) (g : Nat) : List Claimed :=
  ((x.kind 0).filter fun s => s.stream / 4 = g && !(x.arr s).dest).flatMap fun s =>
    let r := x.arr s
    let n := ceilDiv r.rows (if r.mode = 0 then 128 else paneEdge r.mode)
    let wide := ncwDst r.ncw = 1 || ncwDst r.ncw = 9
    (List.range n).flatMap fun _ => if wide then [⟨s.seq, s.ctx, 1⟩, ⟨s.seq, s.ctx, 2⟩] else [⟨s.seq, s.ctx, 0⟩]

/-- Entries that a block releases (04 R115). -/
def popsOf (is : List VIns) : Nat := ((is.filter fun i => i.isOp 7 1).map fun i => i.f.imm % 16).sum

/-- Entries released by the end of each POP of a block (04 R115). -/
def popSums (n : Nat) (is : List VIns) : List Nat :=
  match is with
  | [] => []
  | i :: t => if i.isOp 7 1 then (n + i.f.imm % 16) :: popSums (n + i.f.imm % 16) t else popSums n t

/-- Operand codes that an instruction reads (04 R123, R126 to R148). -/
def VIns.sources (i : VIns) : List Nat :=
  let o := opUses i.cls i.op i.f.dst
  ([(o.1, i.f.a), (o.2.1, i.f.b), (o.2.2, i.f.c)].filter (·.1)).map (·.2)

/-- Queue positions that a block reads (04 R113). -/
def positionsOf (is : List VIns) : List Nat :=
  ((is.flatMap fun i => i.sources.filter fun c => decide (6 ≤ c ∧ c ≤ 13)).map (· - 6)).eraseDups

/-- A block that waits for ever, or releases what its context does not hold (04 R116). -/
def queueBad (x : Img) (g : List (Nat × List Nat)) (bs : List (Slot × List VIns)) (b : Slot × List VIns) : Bool :=
  let cs := claimsOf x (b.1.stream - 200)
  let peers := bs.filter fun c => c.1.stream = b.1.stream
  let before := ancestors g b.1.seq
  let gone (ctx : Nat) : Nat :=
    ((peers.filter fun c => c.1.ctx = ctx && (if ctx = b.1.ctx then decide (c.1.seq < b.1.seq) else before.contains c.1.seq)).map
      fun c => popsOf c.2).sum
  let own := cs.zipIdx.filter fun c => c.1.ctx = b.1.ctx
  let r := gone b.1.ctx
  let p := popsOf b.2
  let waits := (positionsOf b.2).any fun n =>
    match own[r + n]? with
    | none => true
    | some e =>
      let ahead := (cs.take e.2).zipIdx.filter fun c =>
        decide (gone c.1.ctx ≤ ((cs.take c.2).filter fun k => k.ctx = c.1.ctx).length)
      decide (8 < ahead.length + (if e.1.half = 1 then 2 else 1))
  let held := (own.filter fun c => decide (c.1.seq < b.1.seq)).length
  waits || decide (held < r + p)
    || (popSums 0 b.2).any fun n => ((own[r + n - 1]?).map fun c => decide (c.1.half = 1)).getD false

/-- QUEUE. -/
def checkQueue (x : Img) : List Fail :=
  let g := x.doneGraph
  let bs := x.blocks
  (bs.filter (queueBad x g bs)).map fun b => (4, some b.1.seq)

/-! ## VECTOR (04 R122 to R150) -/

/-- An instruction keeps the rules of its class (04 R122 to R148). -/
def insForm (i : VIns) : Bool :=
  let f := i.f
  match i.cls, i.op with
  | 0, n => arithForm n f
  | 1, n => cvtForm f n
  | 2, n => redForm n f
  | 3, n => permForm n f
  | 4, n => selForm n f
  | 5, n => pivForm n f
  | 6, 0 => ldForm f i.e
  | 6, 1 => stForm f i.e
  | 6, 2 => ldsForm f i.e
  | 6, 3 => gathForm f i.e
  | 7, n => ctrlForm n f
  | _, _ => false

/-- The instruction works on FP4 blocks, for which VL is a multiple of 32 (04 R130, R144). -/
def usesFp4 (i : VIns) : Bool :=
  (i.cls = 1 && ncwDst i.f.imm = 6) || (i.isOp 6 1 && ncwDst i.f.imm = 6) || (i.isOp 6 0 && decide (i.f.imm % 16 = 6))

/-- A run of 32-bit slots of a tile-buffer row: buffer, row, first slot and the slot after the last (04 R118). -/
abbrev Run32 := Nat × Nat × Nat × Nat

/-- Slots of tile buffers that an instruction reads, and those it writes, in 32-bit slots of the lanes that VL admits. A scatter and a
merging SEL read the slots of DST that they keep (04 R118, R130 to R138, R144). -/
def slotsUsed (i : VIns) : List Run32 × List Run32 :=
  let f := i.f
  let all := List.range 128
  let unit (v64 : Bool) : Nat := if v64 then 2 else 1
  let lanes (v64 : Bool) : Nat × Nat := (0, unit v64 * lanesOf v64 i.vl)
  let cols (b : Nat) (w : Nat × Nat) (rows : List Nat) : List Run32 := if b ≤ 5 then rows.map fun r => (b, r, w.1, w.2) else []
  let src (w : Nat × Nat) (rows : List Nat) : List Run32 := i.sources.flatMap fun b => cols b w rows
  let dst (w : Nat × Nat) (rows : List Nat) : List Run32 := cols f.dst w rows
  let own := lanes f.wide
  let whole : Nat × Nat := (0, 128)
  let at1 (c : Nat) : Nat × Nat := (unit f.wide * c, unit f.wide * (c + 1))
  let col := at1 (f.imm % 128)
  match i.cls, i.op with
  | 1, n =>
    let l := convLanes n (ncwDst f.imm) i.vl
    (src (0, unit (n = 1) * l) f.rowList, dst (0, unit (ncwDst f.imm = 1) * l) f.rowList)
  | 2, _ => (src own f.rowList, if f.axis then dst own [f.imm % 128] else dst col f.rowList)
  | 3, 1 | 3, 2 => (src own f.rowList ++ dst own f.rowList, dst own f.rowList)
  | 3, 4 => (src own [f.imm % 128], dst own f.rowList)
  | 3, 5 => (src col f.rowList, dst own f.rowList)
  | 3, 6 => (src whole all, dst whole all)
  | 4, _ =>
    let k := f.imm % 64 + 1
    let segs := if bit f.imm 6 then [0, 1] else [0]
    let lists := segs.flatMap fun n => dst (32 * n, 32 * n + k) f.rowList ++ dst (64 + 32 * n, 64 + 32 * n + k) f.rowList
    (src own f.rowList ++ (if bit f.imm 7 then [] else lists), lists)
  | 5, _ => (dst whole all, dst whole all ++ cols f.b (0, 16) [f.imm / 4 % 128])
  | 6, 1 => (src own f.rowList, [])
  | 6, 2 | 7, _ => ([], [])
  | _, _ => (src own f.rowList, dst own f.rowList)

/-- Every slot of a run lies in one of the written runs. -/
def covered (written : List Run32) (r : Run32) : Bool :=
  let ws := written.filter fun w => w.1 = r.1 && w.2.1 = r.2.1
  (List.range (r.2.2.2 - r.2.2.1)).all fun k => ws.any fun w => decide (w.2.2.1 ≤ r.2.2.1 + k ∧ r.2.2.1 + k < w.2.2.2)

/-- The instructions read a slot that none of them has written before (04 R150). -/
def readsOld : List Run32 → List VIns → Bool
  | _, [] => false
  | written, i :: t =>
    let u := slotsUsed i
    u.1.any (fun r => !covered written r) || readsOld (written ++ u.2) t

/-- Cycles of a PIV instruction (04 R143). -/
def pivCycles (i : VIns) : Nat :=
  let b := pivSize i.f
  (List.range b).foldl (fun n j =>
    n + (if i.f.type = 1 then 24 else 16) + ceilDiv ((if i.op = 2 then b - 1 else b - 1 - j) * (128 / b)) 2) 0

/-- The least work of an instruction in half cycles of the two pipes together, and in cycles of pipe 1 alone (04 R147). -/
def leastWork (i : VIns) : Nat × Nat :=
  let n := if i.f.dst = 14 && i.cls = 0 then 1 else i.f.rowsM1 + 1
  match i.cls with
  | 0 =>
    let k := n * (if i.op = 13 ∨ i.op = 14 then 4 else if i.f.wide then 8 else 4)
    if i.op ≤ 8 then (n, 0) else (k, k)
  | 1 | 2 => (n, 0)
  | 3 => if i.op = 3 then (2 * n, 0) else if i.op = 6 then (256, 0) else (n, 0)
  | 4 => let k := i.f.imm % 64 + 1; (if k ≤ 4 then n / 2 else if k ≤ 16 then n else 2 * n, 0)
  | 5 => (2 * pivCycles i, pivCycles i)
  | _ => (0, 0)

/-- The fewest cycles for which a vector block can issue: both pipes full, pipe 1 no less than what only it can do (04 R143, R147, R150). -/
def leastCycles (is : List VIns) : Nat :=
  let w := is.foldl (fun (o : Nat × Nat) i => (o.1 + (leastWork i).1, o.2 + (leastWork i).2)) (0, 0)
  max (w.1 / 2) w.2

/-- A store writes what the same block has read before it, but for a tacked line (04 R150; 11 R336). -/
def overwrites (x : Img) : List (Nat × Nat) → List VIns → Bool
  | _, [] => false
  | read, i :: t =>
    i.writes.any (fun w => (meetRanges [w] read).any fun r => !x.tacked r.1 r.2) || overwrites x (read ++ i.reads) t

/-- Cuts a list of instructions after each CKPT (04 R150). -/
def cutCkpt : List VIns → List VIns → List (List VIns)
  | cur, [] => if cur.isEmpty then [] else [cur]
  | cur, i :: t => if i.isOp 7 2 then (cur ++ [i]) :: cutCkpt [] t else cutCkpt (cur ++ [i]) t

/-- Ranges that a later slot changes before a block's release of the entries it reads, in what their weight set was made from: the block
cannot be repaired (03 R108; 04 R150). -/
def retentionBad (x : Img) (g : List (Nat × List Nat)) (ts : List Touch) (b : Slot × List VIns) : Bool :=
  let ctx := (x.kind 0).filter fun s =>
    s.stream / 4 + 200 = b.1.stream && s.ctx = b.1.ctx && decide (s.seq < b.1.seq) && !(positionsOf b.2).isEmpty
      && (ancestors g b.1.seq).contains s.seq
  ctx.any fun s => (x.arr s).reads.any fun r => ts.any fun t =>
    t.write && decide (s.seq < t.slot.seq ∧ t.slot.seq < b.1.seq) && overlaps r.1 r.2 t.addr t.len
      && !(x.tacked t.addr t.len)

/-- The slot whose spill ends the chain of a Gram record: the first that spills on its array from it on (05 R161, R166). -/
def chainEnd (x : Img) (s : Slot) : Nat :=
  (((x.kind 1).find? fun t => t.stream = s.stream && decide (s.seq ≤ t.seq) && (x.gram t).spill).getD s).seq

/-- A later slot changes a ring row or the fill tile of a Gram record before its chain's spill is complete: the chain cannot be replayed
(05 R160, R166). -/
def gramRetention (x : Img) (g : List (Nat × List Nat)) (ts : List Touch) (s : Slot) : Bool :=
  let e := chainEnd x s
  let rs := ts.filter fun t => t.slot.seq = s.seq && !t.write
  ts.any fun t => t.write && decide (s.seq < t.slot.seq) && decide (t.slot.seq ≠ e) && !(ancestors g t.slot.seq).contains e
    && rs.any fun r => overlaps r.addr r.len t.addr t.len

/-- Transfers and messages that read what a block stores come after the block (04 R150). -/
def readsEarly (g : List (Nat × List Nat)) (ts : List Touch) (b : Slot × List VIns) : Bool :=
  let ws := b.2.flatMap VIns.writes
  ts.any fun t => !t.write && (t.slot.kind = 3 || t.slot.kind = 4) && decide (b.1.seq < t.slot.seq) && meets ws t.addr t.len
    && !(ancestors g t.slot.seq).contains b.1.seq

/-- VECTOR. -/
def checkVector (x : Img) : List Fail :=
  let g := x.doneGraph
  let ts := x.touches
  let bad (b : Slot × List VIns) : Bool :=
    b.2.any (fun i => !insForm i || (i.cls = 6 && i.ext.isNone) || (usesFp4 i && decide (i.vl % 32 ≠ 0)))
      || (cutCkpt [] b.2).any (fun blk => readsOld [] blk || overwrites x [] blk || decide (12288 < leastCycles blk))
      || readsEarly g ts b || retentionBad x g ts b
  ((x.blocks.filter bad).map fun b => (4, some b.1.seq)) ++ failSlots 3 (x.kind 1) (gramRetention x g ts) ++ simFails x 0x0C 4

end Sys2Proof.Machine
end

