-- ==== Sys2Proof/Machine/CheckSolve.lean ====
section
/-! DEFINITION. Checks 0x0D and 0x0E of 07 R235: CURVATURE and SOLVER. -/

namespace Sys2Proof.Machine

/-! ## CURVATURE (05 R156 to R174) -/

/-- A tap record that breaks R156 or R158, in a pass of record `r`. -/
def tapBad (r : ArrRec) : Bool :=
  let t := r.tap
  if t.en then
    decide (1 < t.kind ∨ t.pitch = 0 ∨ t.div ≤ t.phase ∨ t.base % 256 ≠ 0 ∨ 128 * t.pitch < 32 * t.colOff + paneEdge r.mode
      ∨ paneSide r.mode * paneSide r.mode ≤ t.sub ∨ (r.mode = 0 ∧ t.sub ≠ 0)) || [6, 7, 0, 1].contains r.aFmt
  else decide (t ≠ tapOf 0 0)

/-- Reserved bits of a Gram record (05 R161). -/
def gramResv (x : Img) (s : Slot) : Nat := bits (x.m.readLE (x.addr + s.payload) 8) 7 0 + bits (x.m.readLE (x.addr + s.payload + 16) 8) 63 48

/-- The Gram slot before a slot on its array. -/
def gramBefore (x : Img) (s : Slot) : Option Slot :=
  ((x.kind 1).filter fun t => t.stream = s.stream && decide (t.seq < s.seq)).getLast?

/-- Rows of a chain of continuing records that ends in slot `s`, at most `fuel` records back (05 R163). -/
def chainRows (x : Img) : Nat → Slot → Nat
  | 0, _ => 0
  | fuel + 1, s =>
    let r := x.gram s
    r.rows + (if r.pre = 2 then ((gramBefore x s).map (chainRows x fuel)).getD 0 else 0)

/-- A Gram record that breaks R161 or R163. -/
def gramBad (x : Img) (s : Slot) : Bool :=
  let r := x.gram s
  decide (r.pre = 3 ∨ r.jOff < r.iOff ∨ r.diag ≠ decide (r.iOff = r.jOff) ∨ r.base % 256 ≠ 0 ∨ r.tile % 256 ≠ 0 ∨ r.pitch = 0
      ∨ gramResv x s ≠ 0 ∨ r.ctx ≠ s.ctx)
    || (r.pre = 2 && !((gramBefore x s).map fun p =>
          !(x.gram p).spill && (x.gram p).tile = r.tile && (x.gram p).iOff = r.iOff && (x.gram p).jOff = r.jOff).getD false)
    || decide (4096 < chainRows x (x.b.slots.length + 1) s)

/-- The same ring (05 R156, R161). -/
def sameRing (t : TapRec) (r : GramRec) : Bool := t.base = r.base && t.pitch = r.pitch && t.ringM1 = r.ringM1

/-- What a tap writes into a ring row: its slot, the global row, address and length (05 R157). -/
structure TapHit where
  slot : Slot
  row : Nat
  addr : Nat
  len : Nat

/-- A Gram record reads a ring row that no tap has written, one of whose slices the tap of its last row has not written, or in another
format than the tap stored; taps of other rings and groups count where they reach the row (05 R156, R160 to R162). -/
def ringBad (x : Img) (g : List (Nat × List Nat)) (s : Slot) : Bool :=
  let r := x.gram s
  let taps := (x.kind 0).filter fun a => (x.arr a).tap.en
  let mine (a : Slot) : Bool := a.stream / 4 + 160 = s.stream && sameRing (x.arr a).tap r
  let hits : List TapHit := taps.flatMap fun a => (tapWrites (x.arr a)).map fun w => ⟨a, w.1, w.2.1, w.2.2⟩
  let slices := ((taps.filter mine).map fun a => (64 * (x.arr a).tap.colOff, 2 * paneEdge (x.arr a).mode)).eraseDups
  r.ringRows.any fun q =>
    let a := r.base + 256 * r.pitch * q
    let before := hits.filter fun h => decide (h.slot.seq < s.seq) && overlaps h.addr h.len a (256 * r.pitch)
    match before.getLast? with
    | none => true
    | some l =>
      let own := before.filter fun h => h.row = l.row && mine h.slot
      !mine l.slot || before.any (fun h => !(ancestors g s.seq).contains h.slot.seq)
        || own.any (fun h => decide ((x.arr h.slot).aFmt ≠ 2) ≠ r.half)
        || [r.iOff, r.jOff].any fun o => slices.any fun c =>
            overlaps c.1 c.2 (128 * o) 128 && !own.any fun h => decide (h.addr ≤ a + c.1 ∧ a + c.1 + c.2 ≤ h.addr + h.len)

/-- A root-set record that breaks R167 or R174 by itself. -/
def rootBad (x : Img) (s : Slot) : Bool :=
  let r := x.root s
  let w := x.m.readLE (x.addr + s.payload) 8
  let pos (v : W32) : Bool := match fp32.decode v.toNat with
    | .fin neg m _ => !neg && m ≠ 0
    | _ => false
  decide (bits w 63 62 = 3 ∨ r.blk = 7 ∨ rootResv x.m (x.addr + s.payload) ≠ 0 ∨ (r.chol ∧ bits w 63 62 ≠ 0) ∨ (r.chol ∧ r.iter ≠ 1)
      ∨ r.k ≤ r.phase ∨ r.k < r.win ∨ r.dim = 0 ∨ 16384 < r.dim)
    || !pos r.lamAbs || decide (r.lamAbs.toNat / 2 ^ 23 % 256 = 0)
    || (match fp32.decode r.lamRel.toNat with
        | .fin neg m _ => neg && m ≠ 0
        | _ => true)
    || !pos r.theta

/-- Blocks of one load (05 R181). -/
def perLoad (n : Nat) : Nat := if n = 32 then 64 else if n = 64 then 16 else if n = 128 then 4 else 1

/-- The 128-GEMMs of a Cholesky root above 128 (05 R182). -/
def cholGemms (n : Nat) : Nat := if n = 256 then 8 else if n = 512 then 52 else if n = 1024 then 344 else 2416

/-- Array-cycles of one block of a refresh (05 R181, R182). -/
def rootArrayCycles (r : RootRec) : Nat :=
  let n := blockSize r
  if r.chol then (if n ≤ 128 then n * n * n / 2048 else cholGemms n * 1024)
  else r.iter * (if rootPow r = 1 then 2 else if rootPow r = 2 then 3 else 4) * (n * n * n) / 2048

/-- Pivot-stage cycles of CHOL and TRINV on one tile of 32, 64 or 128 blocks (04 R143; 05 R182). -/
def pivotTile (n : Nat) : Nat :=
  2 * (List.range n).foldl (fun c j => c + 16 + ceilDiv ((n - 1 - j) * (128 / n)) 2) 0

/-- Cycles of a refresh of one load (05 R181, R182). -/
def rootLoadCycles (r : RootRec) : Nat :=
  let n := blockSize r
  let e := perLoad n * n * n
  let p := rootPow r
  let tg := if n = 32 then 256 else if n = 64 then 512 else if n = 128 then 1024 else n * n * n / 8192
  if !r.chol then
    e / 64 + r.iter * ((if p = 1 then 2 else if p = 2 then 3 else 4) * tg + (if p = 1 then 1 else if p = 2 then 2 else 3) * 2048)
      + (p + 2) * e / 128
  else if n ≤ 128 then e / 64 + 4 * pivotTile n + tg + 2048 + 2 * e / 128
  else n / 128 * 18432 + cholGemms n * 256 + e / 64 + 2 * e / 128

/-- A slot of a service context (07 R223). -/
def isService (x : Img) (s : Slot) : Bool := ((x.b.ctxs[s.ctx]?).map Prod.snd) = some 2

/-- The refresh of a root set costs more than the plan's service slots give over W steps: in array-cycles, and for one load in the cycles
that W periods last (05 R174, R181, R182; log entry 35). -/
def rootDear (x : Img) (s : Slot) : Bool :=
  let r := x.root s
  let given := (((x.kind 0).filter (isService x)).map fun a => (x.arr a).rows * stepPeriod (x.arr a).mode (x.arr a).aFmt).sum
  decide (r.win * given < rootBlocks r * rootArrayCycles r)
    || decide (x.hdr.period ≠ 0 ∧ 12 * r.win * x.hdr.period < rootLoadCycles r)

/-- A service slot that reads a factor of a root set may carry past the flip: its source copy would fall after it (05 R177). -/
def copiesLate (x : Img) (ts : List Touch) : List Fail :=
  let fs := (x.b.tacks.filter (·.kind = 2)).flatMap fun t => [(t.baseA, t.len), (t.baseB, t.len)]
  if (x.kind 8).isEmpty then []
  else failSeqs 3 ((ts.filter fun t => isService x t.slot && t.slot.carry && !t.write && fs.any fun f => overlaps f.1 f.2 t.addr t.len).map
    fun t => t.slot.seq)

/-- Two ROOT slots give one SET_ID to different records (05 R174). -/
def rootClash (x : Img) (s : Slot) : Bool := (x.kind 8).any fun t => (x.root t).id = (x.root s).id && x.root t ≠ x.root s

/-- CURVATURE. -/
def checkCurvature (x : Img) : List Fail :=
  let g := x.doneGraph
  failSlots 3 (x.kind 0) (fun s => tapBad (x.arr s)) ++ failSlots 3 (x.kind 1) (fun s => gramBad x s || ringBad x g s)
    ++ failSlots 3 (x.kind 8) (fun s => rootBad x s || rootClash x s || rootDear x s) ++ copiesLate x x.touches ++ simFails x 0x0D 3

/-! ## SOLVER: the structure image (06 R192 to R195) -/

/-- Neighbours of a list are in strict order. -/
def strictly {α : Type} (lt : α → α → Bool) (l : List α) : Bool := (l.zip (l.drop 1)).all fun p => lt p.1 p.2

/-- Lexicographic order of pairs. -/
def pairLt (p q : Nat × Nat) : Bool := decide (p.1 < q.1 ∨ (p.1 = q.1 ∧ p.2 < q.2))

/-- Header: version, reserved bits, CRC and limits (06 R192, R193). -/
def headerBad (m : Mem) (h : StructHdr) (a : Nat) : Bool :=
  let w := m.readLE a 64
  decide (bits w 7 0 ≠ 1 ∨ 1 < bits w 10 8 ∨ bits w 159 12 ≠ 0
    ∨ 65535 < h.nlev ∨ 64 < h.nnb ∨ h.ngs % 128 ≠ 0 ∨ 1073741824 < h.ngs ∨ 4194304 < h.nblk ∨ h.nloc < 32 ∨ 33554432 < h.nloc
    ∨ h.nloc % 32 ≠ 0 ∨ h.nhalo % 32 ≠ 0 ∨ 67108864 < h.nloc + h.nhalo
    ∨ crc64 (m.read a 56 ++ List.replicate 8 0 ++ m.read (a + 64) (structBytes h - 64)) ≠ h.crc)

/-- Order, duplicates, range and reserved bits of the tables, for a chip of rank `self` among `ranks` (06 R194, R195). -/
def tablesBad (m : Mem) (h : StructHdr) (a self ranks : Nat) (t : Struct) : Bool :=
  let s (i : Nat) : Nat := ((sectionsOf h a)[i]?).getD 0
  let real := t.entries.filter fun e => !e.2.2
  !strictly pairLt t.blocks || !strictly pairLt (real.map fun e => (e.1, e.2.1)) || (t.entries.dropWhile fun e => !e.2.2).any (fun e => !e.2.2)
    || t.blocks.any (fun b => decide (h.nloc / 32 ≤ b.1 ∨ (h.nloc + h.nhalo) / 32 ≤ b.2))
    || real.any (fun e => decide (h.nloc ≤ e.1 ∨ h.nloc + h.nhalo ≤ e.2.1))
    || (tableAt m (s 0) 8 h.nblk).any (fun e => decide (bits e 22 0 ≠ 0)) || (tableAt m (s 1) 8 h.ngs).any (fun e => decide (bits e 11 1 ≠ 0))
    || !strictly (fun p q => decide (p < q)) (t.halo.map fun e => bits e 255 240)
    || t.halo.any (fun e => decide (ranks ≤ (haloOf e).rank ∨ (haloOf e).rank = self ∨ 4095 < (haloOf e).tallyIn ∨ 4095 < (haloOf e).tallyOut))
    || !decide t.blockRows.Nodup || !decide t.scalarRows.Nodup
    || t.halo.any (fun e => decide (h.nsend < bits e 207 176 + bits e 175 144 ∨ h.nhalo < bits e 143 112 + bits e 111 80))
    || t.send.any (fun u => decide (h.nloc ≤ u))
    || t.levels.any (fun l => decide (h.nbrl < bits l 127 96 + bits l 95 64 ∨ h.nsrl < bits l 63 32 + bits l 31 0))

/-- The block row has a dense diagonal block (06 R194). -/
def denseRow (t : Struct) (i : Nat) : Bool := t.blocks.contains (i, i)

/-- Entries inside dense blocks, rows without a diagonal entry, and rows in the wrong list (06 R194, R195). -/
def rowsBad (h : StructHdr) (t : Struct) : Bool :=
  t.entries.any (fun e => !e.2.2 && t.blocks.contains (e.1 / 32, e.2.1 / 32))
    || (List.range h.nloc).any (fun r => !denseRow t (r / 32) && !t.entries.contains (r, r, false))
    || t.blockRows.any (fun i => decide (h.nloc / 32 ≤ i) || !denseRow t i)
    || t.scalarRows.any (fun r => decide (h.nloc ≤ r) || denseRow t (r / 32))

/-- Levels of a unit of elimination: a block row, or a scalar row (06 R194). -/
def levelsOf (t : Struct) (block : Bool) (i : Nat) : List Nat :=
  t.levels.zipIdx.filterMap fun l =>
    let hit := if block then (t.levelBlocks l.1).contains i else (t.levelRows l.1).contains i
    if hit then some l.2 else none

/-- The unit that eliminates local row `r` (06 R194). -/
def unitOf (t : Struct) (r : Nat) : Bool × Nat := if denseRow t (r / 32) then (true, r / 32) else (false, r)

/-- For an incomplete factorisation every unit lies in exactly one level (06 R195). -/
def levelsMiss (h : StructHdr) (t : Struct) : Bool :=
  (List.range h.nloc).any fun r => let u := unitOf t r; decide ((levelsOf t u.1 u.2).length ≠ 1)

/-- A row depends, through its lower part, on a row of its own level or a later one (06 R195). -/
def levelsClash (h : StructHdr) (t : Struct) : Bool :=
  let deps := (t.entries.filterMap fun e => if !e.2.2 && decide (e.2.1 < e.1) then some (e.1, e.2.1) else none)
    ++ (t.blocks.filter fun b => decide (b.2 < b.1 ∧ b.1 < h.nloc / 32)).flatMap fun b =>
        (List.range 32).flatMap fun i => (List.range 32).map fun j => (32 * b.1 + i, 32 * b.2 + j)
  deps.any fun p =>
    let u := unitOf t p.1
    let v := unitOf t p.2
    decide (u ≠ v) && (levelsOf t u.1 u.2).any fun l => (levelsOf t v.1 v.2).any fun k => decide (l ≤ k)

/-- SYM without a symmetric pattern of local unknowns (06 R193, R195). -/
def asymmetric (h : StructHdr) (t : Struct) : Bool :=
  t.blocks.any (fun b => decide (b.2 < h.nloc / 32) && !t.blocks.contains (b.2, b.1))
    || t.entries.any fun e => !e.2.2 && decide (e.2.1 < h.nloc) && !t.entries.contains (e.2.1, e.1, false)

/-- A structure image that breaks R195, for a solve record with PRECOND `p`, on a chip of rank `self` among `ranks`. -/
def structBad (m : Mem) (h : StructHdr) (a p self ranks : Nat) : Bool :=
  headerBad m h a ||
    (let t := structRead m h a
     tablesBad m h a self ranks t || rowsBad h t || ((p = 3 || p = 4) && levelsMiss h t) || levelsClash h t || (h.sym && asymmetric h t))

/-! ## SOLVER: the solve record (06 R202 to R204) -/

/-- The value of a finite FP32 word as a comparable number; none for infinities and NaN. -/
def finite32 (w : W32) : Option Num := match fp32.decode w.toNat with
  | .fin s m e => some (.fin s m e)
  | _ => none

/-- 0 < LMIN < LMAX, both finite (06 R204). -/
def boundsOk (r : SolveRec) : Bool :=
  (finite32 r.lmin).isSome && (finite32 r.lmax).isSome && decide (0 < r.lmin.toNat ∧ r.lmin.toNat < r.lmax.toNat ∧ r.lmax.toNat < 2 ^ 31)

/-- A solve record that breaks R203 or R204. -/
def solveBad (x : Img) (s : Slot) : Bool :=
  let r := x.solve s
  let h := x.hdrOf r
  decide (3 < r.method ∨ 4 < r.precond ∨ r.prebuild = 3 ∨ solveResv x.m (x.addr + s.payload) ≠ 0 ∨ r.nIter = 0 ∨ r.nIter < r.minIt
      ∨ (r.gm ≠ 1 ∧ r.method ≠ 2) ∨ (r.precond = 3 ∧ !h.sym) ∨ ((r.precond = 3 ∨ r.precond = 4) ∧ h.nlev = 0)
      ∨ (r.period ≠ 0 ∧ r.period < r.deadline) ∨ (2 ≤ r.precond ∧ r.deadline ≤ r.buildDl)
      ∨ r.work % 256 ≠ 0 ∨ r.values % 256 ≠ 0 ∨ r.struct % 256 ≠ 0)
    || (r.method = 3 && !boundsOk r)
    || (match fp32.decode r.tol.toNat with
        | .fin neg m _ => neg && m ≠ 0
        | _ => true)

/-- Two SOLVE slots give one SOLVER_ID to different records (06 R202). -/
def solveClash (x : Img) (s : Slot) : Bool := (x.kind 9).any fun t => (x.solve t).id = (x.solve s).id && decide (x.solve t ≠ x.solve s)

/-- SOLVER. -/
def checkSolver (x : Img) : List Fail :=
  failSlots 3 (x.kind 9) (fun s =>
      let r := x.solve s
      structBad x.m (x.hdrOf r) r.struct r.precond x.b.self x.b.nRank || solveBad x s || solveClash x s)
    ++ simFails x 0x0E 3

end Sys2Proof.Machine
end

