-- ==== Sys2Proof/Machine/Tether.lean ====
section
/-! DEFINITION. Tethers: port training and loss, routing, sending and receiving messages, tallies, responses and timeouts (09
R273 to R301, R304; 10 R475, R476; 07 R229, R232). -/

namespace Sys2Proof.Machine

/-! ## Nodes, bundles and routes (09 R273, R278, R281) -/

/-- X of a node address (09 R278). -/
def nodeX (n : Nat) : Nat := n / 64 % 64
/-- Y of a node address (09 R278). -/
def nodeY (n : Nat) : Nat := n % 64

/-- The ports UP of a direction, in ascending number (09 R273, R281). -/
def bundle (d : Dev) (dir : Nat) : List Nat := (d.tth.ports.zipIdx.filter fun p => portUp p.1 && p.1.dir = dir).map (·.2)

/-- The direction of the next hop from `a` to `b`: x first, or y first on the escape channel; none at the destination (09 R276,
R281). -/
def hopDir (a b : Nat) (yx : Bool) : Option Nat :=
  let h := if nodeX a < nodeX b then some 1 else if nodeX b < nodeX a then some 3 else none
  let v := if nodeY a < nodeY b then some 2 else if nodeY b < nodeY a then some 0 else none
  if yx then (match v with
    | some x => some x
    | none => h)
  else (match h with
    | some x => some x
    | none => v)

/-- The ports UP toward node `b`, and whether they lie on the escape channel: XY on the primary channel while its bundle has a
port UP, else YX for good (09 R281). None: no route. -/
def meshOut (d : Dev) (b : Nat) (esc : Bool) : Option (List Nat × Bool) :=
  let xy := ((hopDir d.tth.self b false).map (bundle d)).getD []
  let yx := ((hopDir d.tth.self b true).map (bundle d)).getD []
  if !esc && !xy.isEmpty then some (xy, false) else if !yx.isEmpty then some (yx, true) else none

/-- The bundle member of a message in transit (09 R281). -/
def member (ps : List Nat) (src dst : Nat) : Nat := (ps[(src + dst) % ps.length]?).getD 0

/-- A message moves to the escape channel: counted (09 R281, R298, R304). -/
def countEscape (moved : Bool) (d : Dev) : Dev :=
  if moved then { d with tth := { d.tth with escape := satAdd d.tth.escape 1 } } else d

/-- The direction of the port that an egress stream 240 to 255 belongs to (07 R224). -/
def streamPort (stream : Nat) : Option Nat := if 240 ≤ stream ∧ stream < 256 then some (stream - 240) else none

/-- The message goes by far port: kind FAR, or BOTH with no port UP toward its first XY or YX hop (09 R280, R281). -/
def viaFar (d : Dev) (h : Hop) : Bool := h.kind = 2 || (h.kind = 3 && (meshOut d h.node false).isNone)

/-- The port by which a message that this chip originates leaves, and whether on the escape channel: the port of its stream, or
the lowest UP of the same bundle; without a slot, as in transit (09 R280, R281; log entry 29). -/
def outPort (d : Dev) (h : Hop) (stream : Nat) : Option (Nat × Bool) :=
  let own := streamPort stream
  if viaFar d h then
    match own with
    | some p =>
      if ((d.tth.ports[p]?).map fun q => portUp q && decide (4 ≤ q.dir ∧ q.dir < 6)).getD false then some (p, false)
      else (farPort d h.farSel).map fun p => (p, false)
    | none => (farPort d h.farSel).map fun p => (p, false)
  else
    match meshOut d h.node false with
    | none => none
    | some (ps, esc) =>
      match own with
      | some p =>
        if ps.contains p then some (p, esc)
        else if !esc then (ps.head?).map fun p => (p, esc)
        else some (member ps d.tth.self h.node, esc)
      | none => some (member ps d.tth.self h.node, esc)

/-! ## Tallies (09 R287; 10 R476) -/

/-- The window that a START names: true the next one; none: neither (09 R287, R288). -/
def windowOf (r : Run) (start : Nat) : Option Bool :=
  if start % 65536 = r.start % 65536 then some false else if start % 65536 = (r.start + 1) % 65536 then some true else none

/-- Where a count stands after an increment, saturating (09 R287). -/
def tallySum (v : BitVec 18) (n : Nat) : BitVec 18 := BitVec.ofNat 18 (min (v.toNat + n) Config.tallyMax)

/-- Increments a tally in one window; increments of a pending epoch count apart; a saturation is counted with a NOTE (09 R287; 10
R476). -/
def tallyAdd (t n : Nat) (next pending : Bool) (d : Dev) : Dev :=
  let w := if next then (if pending then d.tth.nxtP else d.tth.nxt) else (if pending then d.tth.curP else d.tth.cur)
  let v := w.get t
  let w' := w.set t (tallySum v n)
  let tt := d.tth
  let tt := if next then (if pending then { tt with nxtP := w' } else { tt with nxt := w' })
    else (if pending then { tt with curP := w' } else { tt with cur := w' })
  let d := { d with tth := tt }
  if Config.tallyMax < v.toNat + n then
    note 0x06 0x0964 0xFFFF t { d with tth := { d.tth with tsat := satAdd d.tth.tsat 1 } }
  else d

/-- A layout epoch is the one of a pending variant, and not the current one (10 R328, R476). -/
def isPending (d : Dev) (lepoch : Nat) : Bool := d.vrd.pending ≠ 0xFFFF && lepoch = d.vrd.pending && lepoch ≠ d.vrd.epoch

/-- Both windows of a tally are cleared (07 R232). -/
def tallyClear (t : Nat) (d : Dev) : Dev :=
  { d with tth := { d.tth with cur := d.tth.cur.set t 0, nxt := d.tth.nxt.set t 0, curP := d.tth.curP.set t 0, nxtP := d.tth.nxtP.set t 0 } }

/-- A step start: the next window becomes current and a new one opens at zero (09 R287). -/
def tallyRoll (d : Dev) : Dev :=
  { d with tth := { d.tth with cur := d.tth.nxt, nxt := [], curP := d.tth.nxtP, nxtP := [] } }

/-- The window of k + 1 becomes that of the variant's first step start, with its pending-epoch increments alone; `moved`: this
chip had started k + 1 already (10 R476). -/
def tallyTake (moved : Bool) (d : Dev) : Dev :=
  { d with tth := { d.tth with cur := if moved then d.tth.curP else d.tth.nxtP, nxt := if moved then d.tth.nxtP else [], curP := [], nxtP := [] } }

/-! ## Sending (09 R283, R285, R290) -/

/-- A TAG that no request in flight holds (09 R285). -/
def freeTag (d : Dev) : Nat :=
  ((List.range (d.tth.pend.length + 1)).find? fun k => !d.tth.pend.any fun p => p.tag = (d.tth.tag + k) % 65536).elim d.tth.tag
    fun k => (d.tth.tag + k) % 65536

/-- The bridle entry of a rank (09 R280). -/
def hopOf (r : Run) (rank : Nat) : Hop := (r.body.hops[rank]?).getD ⟨0, 0, 0⟩

/-- A message has completed: it leaves the requests in flight; an effect that reached its target counts in CTALLY, in the window
of the step start in which its slot issued; its slot completes (09 R286, R287, R290). -/
def msgDone (p : Pend) (ok : Bool) (d : Dev) : Dev :=
  let d := { d with tth := { d.tth with pend := d.tth.pend.filter fun q => q.tag ≠ p.tag } }
  let d := match d.plan.run, p.ct with
    | some r, some (t, start) => if ok && start = r.start then tallyAdd t 1 false false d else d
    | _, _ => d
  match p.slot with
  | some (start, seq) => complete start seq d
  | none => d

/-- The step of the slot, or of the masthead message, takes a contained data error for cause TETHER while it runs; for a carried slot the
running step does (07 R234; 09 R290; 10 R313). -/
def msgCde (p : Pend) (d : Dev) : Dev :=
  match d.plan.run with
  | some r =>
    if p.hdr.start % 65536 = r.start % 65536
      || (p.slot.map fun s => r.carried.any fun c => c.start = s.1 && c.slot.seq = s.2).getD false then cdeNew 4 d
    else d
  | none => d

/-- A message that failed on its way raises a CDE; a drain target that it served is abandoned (09 R290; 11 R345). -/
def msgFail (p : Pend) (d : Dev) : Dev := msgDone p false (msgCde p (if p.drain then targetAbort 1 d else d))

/-- The header of a request of this chip (09 R285). -/
def reqHdr (d : Dev) (r : Run) (md : MsgDesc) (tag : Nat) (esc : Bool) : WireHdr :=
  { opc := md.opc, accOp := md.accOp, fmt := md.fmt, sig := md.sig, vc := if esc then 2 else 0, tally := md.tally
    lenM1 := md.len - 1, srcNode := d.tth.self, dstNode := (hopOf r md.rank).node, srcRank := r.body.self, dstRank := md.rank
    lepoch := d.vrd.epoch, tag := tag, remote := md.remote, step := r.step % 2 ^ 64, job := r.body.job, inc := md.inc
    status := 0, start := r.start % 65536, hcrc := 0 }

/-- A request of this chip goes out, or, with no route from here, comes back as NACK UNREACHABLE at once (09 R281, R285, R288,
R290). -/
def sendReq (stream : Nat) (slot : Option (Nat × Nat)) (drain : Bool) (start : Nat) (md : MsgDesc) (data : List Byte) (d : Dev) :
    Dev :=
  match d.plan.run with
  | none => d
  | some r =>
    let tag := freeTag d
    let out := outPort d (hopOf r md.rank) stream
    let hdr := sealHdr { reqHdr d r md tag ((out.map Prod.snd).getD true) with start := start % 65536 }
    let p : Pend := ⟨tag, stream, slot, hdr, md.loc, if md.ctEn then some (md.ctally, r.start) else none, drain⟩
    let d := { d with tth := { d.tth with tag := (tag + 1) % 65536, pend := d.tth.pend ++ [p] } }
    match out with
    | some (port, esc) => countEscape esc { d with tth := { d.tth with out := d.tth.out ++ [⟨port, hdr, data⟩] } }
    | none => msgFail p { d with tth := { d.tth with rejOther := satAdd d.tth.rejOther 1 } }

/-- A PUT with SIG that masthead firmware sends to a rank (10 R475). -/
def mastPut (rank addr tally start : Nat) (data : List Byte) : Dev → Dev :=
  sendReq 265 none false start ⟨0, 0, 0, true, rank, tally, 0, false, data.length, 0, addr, 0, 0⟩ data

/-- A PUT without SIG that masthead firmware sends to a rank: reports, schedules and inventory records (10 R475; 11 R346). -/
def mastPlain (rank addr start : Nat) (data : List Byte) : Dev → Dev :=
  sendReq 265 none false start ⟨0, 0, 0, false, rank, 0, 0, false, data.length, 0, addr, 0, 0⟩ data

/-- A SIGNAL that masthead firmware sends to a rank (07 R232; 10 R475). -/
def mastSignal (rank tally inc start : Nat) : Dev → Dev :=
  sendReq 265 none false start ⟨3, 0, 0, false, rank, tally, 0, false, 1, 0, 0, inc, 0⟩ []

/-- The permuting collective's SIGNALs go out once none of its PUTs is in flight: the FENCE before them is met (09 R291, R294; log entry
29). -/
def permSignal (d : Dev) : Dev :=
  match d.plan.run with
  | some r =>
    if r.permSig.isEmpty || d.tth.pend.any fun p => p.stream = 265 && p.hdr.opc = 0 then d
    else r.permSig.foldl (fun d g => mastSignal g.1 r.body.verdict.recT g.2 r.start d) (modRun (fun r => { r with permSig := [] }) d)
  | none => d

/-- Every rank but this chip's own. -/
def peers (r : Run) : List Nat := (List.range r.body.nRank).filter (· ≠ r.body.self)

/-- ARG[31:28] of a drain slot (11 R344). -/
def isDrainArg (arg : Nat) : Bool := arg / 2 ^ 28 % 16 = 13

/-- Bytes of a slot image from `o` on, at most `n`. -/
def imagePart (x : Drain) (o n : Nat) : List Byte := x.image.read o (min n (x.used - o))

/-- The drain engine's PUTs of one drain slot: up to `k` pieces of 4 KiB from where it stands, to the buddy's slot; the last of them
carries the plan slot (11 R344). -/
def drainPuts (stream start seq base rank : Nat) : Nat → Dev → Dev
  | 0, d => d
  | k + 1, d =>
    match d.snap.drain with
    | some x =>
      if x.used ≤ x.sentB then d
      else
        let bs := imagePart x x.sentB 4096
        let final := k = 0 || decide (x.used ≤ x.sentB + 4096)
        let md : MsgDesc := ⟨0, 0, 0, false, rank, 0, 0, false, ceilDiv bs.length 16 * 16, 0, base + x.sentB, 0, 0⟩
        let d := sendReq stream (if final then some (start, seq) else none) true ((d.plan.run.map Run.start).getD start) md
          (bs ++ List.replicate (md.len - bs.length) 0) d
        drainPuts stream start seq base rank k
          { d with snap := { d.snap with drain := d.snap.drain.map fun x => { x with sentB := x.sentB + 4096 } } }
    | none => d

/-- A TETHER drain slot: the engine sends what it has for the buddy; with nothing to copy the slot completes at once (11 R344). -/
def drainTether (r : Run) (s : Slot) (d : Dev) : Dev :=
  match d.snap.drain with
  | some x =>
    if !bit r.body.tack.tgt 1 || bit x.aborted 1 || decide (x.used ≤ x.sentB) then complete r.start s.seq d
    else
      let room := Config.egressDepth - (d.tth.pend.filter fun p => p.stream = s.stream).length
      drainPuts s.stream r.start s.seq (r.body.tack.buddyBase + x.slot * r.body.tack.slotBytes) r.body.tack.buddy
        (min (s.arg % 2 ^ 28) (min room (ceilDiv (x.used - x.sentB) 4096))) d
  | none => complete r.start s.seq d

/-- A TETHER slot with a message of operation `opc` issues. The 65th message of a stream waits, and so does a GET whose LOCAL
resolves into a HELD copy. A source with a bad word is not sent: the message completes at once, with a CDE. The drain
engine supplies the messages of a drain slot (09 R283, R290; 11 R340, R344). -/
def issueMsg (opc seq : Nat) (m : Mem) (d : Dev) : Mem × Dev :=
  match (d.plan.run).bind fun r => (slotNext r seq).map fun x => (r, x.2, msgAt m (x.1 + x.2.payload)) with
  | none => (m, d)
  | some (run, s, md) =>
    if md.opc ≠ opc || egressFull d s.stream then (m, d)
    else
      onSlotW seq 4 (fun _ s _ _ => if opc = 1 && !isDrainArg s.arg then [(md.loc, md.len)] else []) (fun r s m d =>
        if isDrainArg s.arg then (m, drainTether r s d)
        else if opc = 0 ∨ opc = 2 then
          let x := readSlot m d md.loc md.len
          if (badResolved d md.loc md.len).isSome then (m, complete r.start seq x.2)
          else (m, sendReq s.stream (some (r.start, seq)) false run.start md x.1 x.2)
        else (m, sendReq s.stream (some (r.start, seq)) false run.start md [] d)) m d

/-- A FENCE completes once every TETHER slot issued earlier on its stream has (09 R291). -/
def fenceDev (seq : Nat) (d : Dev) : Dev :=
  match (d.plan.run).bind fun r => slotOf r seq with
  | some s =>
    if d.tth.pend.any fun p => p.stream = s.stream then d else onSlotDev seq 6 (fun r _ d => complete r.start seq d) d
  | none => d

/-! ## Responses (09 R281, R285) -/

/-- Counts a rejection (09 R288). -/
def countRej (st : Nat) (d : Dev) : Dev :=
  let t := d.tth
  { d with tth :=
      if st = 2 then { t with rejEpoch := satAdd t.rejEpoch 1 }
      else if st = 3 then { t with rejWindow := satAdd t.rejWindow 1 } else { t with rejOther := satAdd t.rejOther 1 } }

/-- Answers a request that came by `port`: over the same far port while it is UP, else the other; over the mesh as in transit; a
response with no route is dropped and counted (09 R281, R285). -/
def respond (port : Nat) (h : WireHdr) (opc status : Nat) (data : List Byte) (d : Dev) : Dev :=
  let dir := ((d.tth.ports[port]?).map Port.dir).getD 0
  let out : Option (Nat × Bool) :=
    if 4 ≤ dir then (farPort d (dir - 4)).map fun p => (p, false)
    else (meshOut d h.srcNode false).map fun x => (member x.1 h.dstNode h.srcNode, x.2)
  match out with
  | some (p, esc) =>
    let r : WireHdr := sealHdr
      { opc := opc, accOp := 0, fmt := 0, sig := false, vc := if esc then 3 else 1, tally := 0, lenM1 := data.length - 1
        srcNode := h.dstNode, dstNode := h.srcNode, srcRank := h.srcRank, dstRank := h.dstRank, lepoch := h.lepoch, tag := h.tag
        remote := 0, step := h.step, job := h.job, inc := 0, status := status, start := h.start, hcrc := 0 }
    countEscape esc { d with tth := { d.tth with out := d.tth.out ++ [⟨p, r, data⟩] } }
  | none => { d with tth := { d.tth with rejOther := satAdd d.tth.rejOther 1 } }

/-- NACK with a reason: counted and sent (09 R288). -/
def nack (port : Nat) (h : WireHdr) (status : Nat) (d : Dev) : Dev := respond port h 0xA status [] (countRej status d)

/-! ## Checks of a request (09 R288) -/

/-- An operand format that ACCUMULATE takes (09 R284). -/
def accFmtOk (f : Nat) : Bool := f < 4 || f = 8

/-- Payload bytes that a header names. -/
def hdrLen (h : WireHdr) : Nat := h.lenM1 + 1

/-- OPC, ACC_OP, FMT or LEN breaks its rule (09 R282, R284, R288). -/
def formatBad (h : WireHdr) : Bool :=
  decide (3 < h.opc) || (h.opc = 2 && (h.accOp = 3 || !accFmtOk h.fmt)) || (h.opc ≠ 2 && (h.accOp ≠ 0 || h.fmt ≠ 0))
    || (h.opc ≠ 3 && (hdrLen h % 16 ≠ 0 || decide (4096 < hdrLen h)))

/-- [a, a+n) lies wholly in local SRAM and HBM (08 R243; 09 R288). -/
def localRange (d : Dev) (a n : Nat) : Bool := (List.range n).all fun k => inSram d (a + k) || inHbm d (a + k)

/-- The layout that a request belongs to: of the pending epoch, the variant's; else the running one (09 R288; 10 R328; log entry 29). -/
def layoutOf (m : Mem) (d : Dev) (r : Run) (lepoch : Nat) : PlanBody :=
  match r.pendVar with
  | some v => if isPending d lepoch then bodyAt m r.addr v else r.body
  | none => r.body

/-- The request's range passes the ADDRESS check: inside one owned range of SRAM or HBM, or, for PUT and GET, inside one snapshot
target in the gondola tier; no write into the plan image; nothing sealed (09 R288, R289; 12 R360). -/
def addressOk (d : Dev) (b : PlanBody) (h : WireHdr) : Bool :=
  let n := hdrLen h
  (b.places.any fun p => inside h.remote n p.base p.len && (decide (p.tier < 2) || (h.opc ≠ 2 && p.use = 5)))
  && !(h.opc ≠ 1 && b.places.any fun p => p.use = 4 && overlaps h.remote n p.base p.len)
  && !touchesSealed d h.remote n

/-- The request may belong to a permuting collective: the chip runs one, or the request carries the pending epoch, whose sender runs one
(09 R294; 10 R329; log entry 29). -/
def permTraffic (d : Dev) (r : Run) (h : WireHdr) : Bool := r.phase = .permuting || isPending d h.lepoch

/-- The writes of SRC_RANK may not reach a tacked view, another writer's replica, or a root buffer; lifted while the permuting
collective runs (09 R288; 10 R306). -/
def ownerBad (m : Mem) (d : Dev) (r : Run) (h : WireHdr) : Bool :=
  (h.opc = 0 || h.opc = 2) && !permTraffic d r h &&
    ((r.body.tacks.any fun t => overlaps h.remote (hdrLen h) t.baseA t.len && (t.kind ≠ 7 || t.writer ≠ h.srcRank))
      || (rootBuffers m d).any fun b => overlaps h.remote (hdrLen h) b.1 b.2)

/-- The first check that a request fails; 0: it passes (09 R288). Without an admitted plan there is no JOB_TAG (log entry 29). -/
def reqCheck (m : Mem) (d : Dev) (h : WireHdr) : Nat :=
  match d.plan.run with
  | none => 1
  | some r =>
    let b := layoutOf m d r h.lepoch
    if h.job ≠ b.job ∨ h.dstRank ≠ b.self then 1
    else if !(h.lepoch = d.vrd.epoch || isPending d h.lepoch) then 2
    else if (windowOf r h.start).isNone then 3
    else if formatBad h then 4
    else if h.opc = 3 then 0
    else if h.opc = 2 && !localRange d h.remote (hdrLen h) then 6
    else if !addressOk d b h then 5
    else if ownerBad m d r h then 8
    else 0

/-! ## Applying a request (09 R286, R288 to R292) -/

/-- The range holds state or working data of the running attempt (09 R288; 10 R313). -/
def isAttemptData (d : Dev) (a : Nat) : Bool :=
  match d.plan.run with
  | some r => r.body.places.any fun p => decide (p.use < 4) && decide (p.base ≤ a ∧ a < p.base + p.len)
  | none => false

/-- A request met a bad word at `a`: counted; a CDE when the range holds state or working data, the loss of a current tack copy as
11 R341 says (09 R288). -/
def msgLoss (a : Nat) (reads : Bool) (d : Dev) : Dev :=
  let b := if reads then resolveRead d a else resolveWrite d a
  let d := sweepHit b (ueAt 2 b d)
  if !isAttemptData d a then d
  else
    match tackAt d a, reads with
    | some (i, _), true => tackLoss (copyCurrent d i) d
    | _, _ => cde 3 d

/-- Writes the payload of a request line by line as far as its good lines go; answers the lines that were not written. The permuting
collective, `direct`, names a copy itself: nothing is resolved (09 R288; 11 R336; 13 R382). -/
def msgWrite (direct : Bool) (m : Mem) (d : Dev) (a : Nat) (bs : List Byte) (skip : Nat → Bool) : Mem × Dev × List Nat :=
  let ps := ((linePieces (bs.length / 256 + 2) a bs).filter fun p =>
      !skip (lineOf p.1) && (direct || !rootBarred d (resolveWrite d p.1))).map fun p => (if direct then p.1 else resolveWrite d p.1, p.2)
  let r := writeLines m d.ecc ps
  let d := snooped (ps.map fun p => lineOf p.1) { d with ecc := r.2.1 }
  let d := if direct then d else
    digestLines r.1 (ps.filter fun p => !r.2.2.contains (lineOf p.1)) (markWritten a bs.length d)
  (r.1, r.2.2.foldl (fun d l => msgLoss l false d) d, r.2.2)

/-- The request's writes are the permuting collective's (09 R294; 11 R336). -/
def isDirect (d : Dev) (h : WireHdr) : Bool := (d.plan.run.map fun r => permTraffic d r h).getD false

/-- Records of the verdict area that a PUT of START `start` has written (10 R315 to R317). -/
def recordTouch (a n start : Nat) (d : Dev) : Dev :=
  match d.plan.run with
  | none => d
  | some r =>
    let base := r.body.verdict.area
    let k := r.body.nRank
    let hits := (List.range k).flatMap fun i =>
      [(0, base + 64 + 128 * i, 128), (1, base + 64 + 128 * k + 64 * i, 64), (2, base + 64 + 192 * k + 64 * i, 64)].filterMap
        fun s => if overlaps a n s.2.1 s.2.2 then some (s.1, i, start) else none
    { d with vrd := { d.vrd with got :=
        (d.vrd.got.filter fun g => !hits.any fun x => x.1 = g.1 && x.2.1 = g.2.1) ++ hits } }

/-- Records of the snapshot area that a PUT of START `start` has written: reports, inventory records and the schedule (11 R346). -/
def areaTouch (a n start : Nat) (d : Dev) : Dev :=
  match d.plan.run with
  | none => d
  | some r =>
    let hits := (List.range (2 * r.hdr.nRank + 1)).filter fun i => overlaps a n (r.body.tack.area + 64 * i) 64
    { d with snap := { d.snap with got := (d.snap.got.filter fun g => !hits.contains g.1) ++ hits.map fun i => (i, start) } }

/-- The signal part of a request that was applied (09 R286, R287). -/
def msgSignal (h : WireHdr) (n : Nat) (d : Dev) : Dev :=
  match (d.plan.run).bind fun r => windowOf r h.start with
  | some w => patchSignal h.srcRank (tallyAdd h.tally n w (isPending d h.lepoch) d)
  | none => d

/-- The rotating token of inbound requests passes on (07 R229). -/
def passToken (port : Nat) (d : Dev) : Dev := { d with tth := { d.tth with token := (port + 1) % 16 } }

/-- A request reaches this chip at `port`: a bad header is dropped and counted; a request that fails a check is answered with NACK;
else `f` applies it (09 R285, R288). A message for another node, or on a port that is not UP, is no request of this chip. -/
def takeReq (port opc : Nat) (h : WireHdr) (f : Mem → Dev → Mem × Dev) (m : Mem) (d : Dev) : Mem × Dev :=
  if !((d.tth.ports[port]?).map portUp).getD false || isSafe d || h.dstNode ≠ d.tth.self
    || !(h.opc = opc || (opc = 0 && decide (3 < h.opc ∧ h.opc < 8 ∨ 10 < h.opc))) then (m, d)
  else if !hcrcOk h then (m, countRej 0 d)
  else
    let d := passToken port d
    let st := reqCheck m d h
    if st ≠ 0 then (m, nack port h st d) else f m d

/-- The bay that a gondola range needs is not ONLINE: NACK ADDRESS, and the range is lost until it is written again (09 R289). -/
def gonClosed (d : Dev) (h : WireHdr) : Bool :=
  decide (0x20000000000 ≤ h.remote) && !(inGon d h.remote && inGon d (h.remote + h.lenM1))

/-- The range is treated as lost (09 R289). -/
def gonLose (h : WireHdr) (d : Dev) : Dev := { d with ecc := { d.ecc with gonLost := d.ecc.gonLost ++ [(h.remote, hdrLen h)] } }

/-- A PUT is applied: written, then signalled, then answered (09 R286, R291). It waits while it resolves into a HELD copy (11
R339). -/
def putBoth (port : Nat) (h : WireHdr) (data : List Byte) (m : Mem) (d : Dev) : Mem × Dev :=
  if heldWrite d h.remote (hdrLen h) && reqCheck m d h = 0 then (m, d)
  else
    takeReq port 0 h (fun m d =>
      if gonClosed d h then (m, nack port h 5 (gonLose h d))
      else
        let w := msgWrite (isDirect d h) m d h.remote (data.take (hdrLen h)) (fun _ => false)
        let d := areaTouch h.remote (hdrLen h) h.start <| recordTouch h.remote (hdrLen h) h.start (patchTouch h.remote (hdrLen h) h.srcRank w.2.1)
        if !w.2.2.isEmpty then (w.1, nack port h 9 d)
        else (w.1, respond port h 9 0 [] (if h.sig then msgSignal h 1 d else d))) m d

/-- A GET is answered with its data, or with MEMORY and none (09 R286, R288, R289). -/
def getDev (port : Nat) (h : WireHdr) (m : Mem) (d : Dev) : Dev :=
  (takeReq port 1 h (fun m d =>
    let n := hdrLen h
    if gonClosed d h then (m, nack port h 5 (gonLose h d))
    else
      match badResolved d h.remote n with
      | some a => (m, nack port h 9 (msgLoss a true d))
      | none => (m, respond port h 8 0 (readResolved m d h.remote n) (gonGood h.remote (deferReads d h.remote n)))) m d).2

/-- One element of an ACCUMULATE: its new code and flags (09 R292). -/
def accElem (op fmt old new : Nat) : Nat × Nat :=
  match fmtOf fmt with
  | some f =>
    let x := f.decode old
    let y := f.decode new
    let z := if op = 0 then x.add y else if op = 1 then (x.max y, 0) else (x.min y, 0)
    let r := f.ieee false false z.1
    (r.code, r.flags ||| z.2)
  | none =>
    let x := sext 32 old
    let y := sext 32 new
    let z := if op = 0 then x + y else if op = 1 then max x y else min x y
    if z < -2147483648 then (ofSInt 32 (-2147483648), fOVF)
    else if 2147483647 < z then (ofSInt 32 2147483647, fOVF) else (ofSInt 32 z, 0)

/-- Combines payload bytes with old bytes, elements of `w` bytes each from address `a` on; answers the bytes, and the flags of each
element with its address (09 R292). -/
def accBytes (op fmt w : Nat) : Nat → Nat → List Byte → List Byte → List Byte × List (Nat × Nat)
  | 0, _, _, _ => ([], [])
  | k + 1, a, old, new =>
    let e := accElem op fmt (leNat (old.take w)) (leNat (new.take w))
    let t := accBytes op fmt w k (a + w) (old.drop w) (new.drop w)
    (leBytes w e.1 ++ t.1, (a, e.2) :: t.2)

/-- The flags of the elements whose lines were written (09 R292). -/
def accFlags (fs : List (Nat × Nat)) (unwritten : List Nat) : Nat :=
  fs.foldl (fun x f => if unwritten.contains (lineOf f.1) then x else x ||| f.2) 0

/-- The line of [a, a+n), as the request names it, whose write resolves into line `l` (11 R336). -/
def viewLine (d : Dev) (a n l : Nat) : Nat := ((linesOf a n).find? fun v => lineOf (resolveWrite d v) = l).getD l

/-- An ACCUMULATE is applied element by element, its flags recorded in CRW_TTH_ACCFLAG alone; the lines free of bad words are
written (09 R288, R292, R304). -/
def accBoth (port : Nat) (h : WireHdr) (data : List Byte) (m : Mem) (d : Dev) : Mem × Dev :=
  if heldWrite d h.remote (hdrLen h) && reqCheck m d h = 0 then (m, d)
  else
    takeReq port 2 h (fun m d =>
      let n := hdrLen h
      let w := fmtBits h.fmt / 8
      let x := accBytes h.accOp h.fmt w (n / w) h.remote (readVia (resolveAcc d) m d h.remote n) (data.take n)
      let bad := (linesOf h.remote n).filter fun l =>
        (List.range 256).any fun k => inside (l + k) 1 h.remote n && wordBad d.ecc (resolveAcc d (l + k))
      let d := match badResolved d h.remote n with
        | some a => msgLoss a true d
        | none => d
      let y := msgWrite (isDirect d h) m d h.remote x.1 bad.contains
      let d := patchTouch h.remote n h.srcRank y.2.1
      let fl := BitVec.ofNat 8 (accFlags x.2 (bad ++ y.2.2.map (viewLine d h.remote n)) % 256) &&& 0xCD
      let d := { d with tth := { d.tth with accFlag := d.tth.accFlag ||| fl } }
      if !bad.isEmpty || !y.2.2.isEmpty then (y.1, nack port h 9 d)
      else (y.1, respond port h 9 0 [] (if h.sig then msgSignal h 1 d else d))) m d

/-- A SIGNAL increments its tally by INC and is answered (09 R286, R287). -/
def signalDev (port : Nat) (h : WireHdr) (m : Mem) (d : Dev) : Dev :=
  (takeReq port 3 h (fun m d => (m, respond port h 9 0 [] (msgSignal h h.inc d))) m d).2

/-! ## Receiving responses (09 R285, R286, R290; 10 R328) -/

/-- A response of code `opc`: its request, when the header is good, its epoch is accepted and the request has not timed out. -/
def takeResp (opc : Nat) (h : WireHdr) (f : Pend → Dev → Dev) (d : Dev) : Dev :=
  if h.opc ≠ opc || h.dstNode ≠ d.tth.self || isSafe d then d
  else if !hcrcOk h then countRej 0 d
  else if !(h.lepoch = d.vrd.epoch || isPending d h.lepoch) then countRej 2 d
  else
    match d.tth.pend.find? fun p => p.tag = h.tag && p.hdr.dstNode = h.srcNode && p.hdr.start = h.start with
    | some p => f p d
    | none => d

/-- A GET response lands at LOCAL, and the message completes (09 R286). -/
def getRespBoth (h : WireHdr) (data : List Byte) (m : Mem) (d : Dev) : Mem × Dev :=
  let ok := h.opc = 8 && h.dstNode = d.tth.self && hcrcOk h && (h.lepoch = d.vrd.epoch || isPending d h.lepoch) && !isSafe d
  match d.tth.pend.find? fun p => p.tag = h.tag && p.hdr.dstNode = h.srcNode && p.hdr.start = h.start with
  | some p =>
    if ok && p.hdr.opc = 1 then
      let w := writeSlot m d p.loc (data.take (hdrLen p.hdr))
      (w.1, msgDone p true w.2)
    else (m, takeResp 8 h (fun _ d => d) d)
  | none => (m, takeResp 8 h (fun _ d => d) d)

/-- An ACK completes its message (09 R286). -/
def ackDev (h : WireHdr) : Dev → Dev := takeResp 9 h fun p d => if p.hdr.opc = 1 then d else permSignal (msgDone p true d)

/-- A NACK completes its message without effect. EPOCH and WINDOW are only counted: the rejected vote of an attempt is kept for 07
R232; any other reason fails the message (09 R290). -/
def nackDev (h : WireHdr) : Dev → Dev :=
  takeResp 0xA h fun p d =>
    if h.status = 2 ∨ h.status = 3 then
      let vote := match d.plan.run with
        | some r => p.stream = 265 && p.hdr.opc = 0 && p.hdr.tally = r.body.verdict.voteT
        | none => false
      permSignal (msgDone p false (if vote && h.status = 3 then { d with vrd := { d.vrd with winNow := true } } else d))
    else permSignal (msgFail p d)

/-- A message not completed 100 us after its issue: counted, and it fails (09 R290). -/
def msgTimeoutDev (tag : Nat) (d : Dev) : Dev :=
  match d.tth.pend.find? fun p => p.tag = tag with
  | some p => permSignal (msgFail p { d with tth := { d.tth with tmo := satAdd d.tth.tmo 1 } })
  | none => d

/-! ## Transit (09 R281, R298) -/

/-- A message for another chip goes on: XY, then YX for good once an XY bundle has no port UP; where no port leads on, a request
is answered with NACK UNREACHABLE in its destination's name and a response is dropped (09 R281). -/
def transitDev (h : WireHdr) (data : List Byte) (d : Dev) : Dev :=
  if h.dstNode = d.tth.self || isSafe d then d
  else if !hcrcOk h then countRej 0 d
  else
    let esc := decide (2 ≤ h.vc)
    match meshOut d h.dstNode esc with
    | some (ps, e) =>
      let h' := if e && !esc then sealHdr { h with vc := h.vc + 2 } else h
      countEscape (e && !esc) { d with tth := { d.tth with out := d.tth.out ++ [⟨member ps h.srcNode h.dstNode, h', data⟩] } }
    | none =>
      if h.opc < 4 then nack Config.nPorts h 7 d else countRej 0 d

/-! ## Links, lanes and ports (09 R277, R295 to R297) -/

/-- Changes port `p`. -/
def modPort (p : Nat) (f : Port → Port) (d : Dev) : Dev := { d with tth := { d.tth with ports := modAt f p d.tth.ports } }

/-- The node address that a DIR code names from `n`: none where the board ends (09 R276, R278). -/
def neighbour (t : TetherRec) (dir : Nat) : Option (Nat × Nat) :=
  match dir with
  | 0 => if t.y = 0 then none else some (t.x, t.y - 1)
  | 1 => if t.x < t.xmax then some (t.x + 1, t.y) else none
  | 2 => if t.y < t.ymax then some (t.x, t.y + 1) else none
  | 3 => if t.x = 0 then none else some (t.x - 1, t.y)
  | _ => none

/-- The index of port `p` within its bundle (09 R273). -/
def bundleIndex (d : Dev) (p : Nat) : Nat :=
  let dir := ((d.tth.ports[p]?).map Port.dir).getD 6
  ((d.tth.ports.take p).filter fun q => q.dir = dir).length

/-- The partner's claim agrees with what this port's DIR names; no two chips report one address (09 R277, R278). -/
def partnerOk (d : Dev) (p : Nat) (r : PortTrain) : Bool :=
  let dir := ((d.tth.ports[p]?).map Port.dir).getD 6
  if 4 ≤ dir then !(r.board = d.flash.tether.board && r.x = d.flash.tether.x && r.y = d.flash.tether.y)
  else
    r.board = d.flash.tether.board && neighbour d.flash.tether dir = some (r.x, r.y) && r.dir = (dir + 2) % 4
      && r.idx = bundleIndex d p

/-- The partner's claim as a NOTE names it: BOARD, X, Y and DIR (09 R277). -/
def claimArg (r : PortTrain) : Nat := r.board % 4096 * 2 ^ 15 + r.x % 64 * 2 ^ 9 + r.y % 64 * 2 ^ 3 + r.dir % 8

/-- A port finishes training: UP at the lower rate, or DOWN with a NOTE (09 R277). -/
def trainedDev (p : Nat) (r : PortTrain) (d : Dev) : Dev :=
  match d.tth.ports[p]? with
  | none => d
  | some q =>
    if q.state ≠ .training then d
    else if r.trained && partnerOk d p r then
      modPort p (fun q => { q with
        state := .up, rate := max q.rate r.rate, lanes := 15
        partner := if q.dir < 4 then some (r.x, r.y) else none }) d
    else note 0x06 (0x0908 + 4 * p) p (claimArg r) (modPort p (fun q => { q with state := .down }) d)

/-- Flits are replayed: counted, and one event against the port's bucket (09 R295; 13 R385). -/
def replayDev (p : Nat) (d : Dev) : Dev :=
  if ((d.tth.ports[p]?).map portUp).getD false then bucketHit 5 p { d with tth := { d.tth with retry := satAdd d.tth.retry 1 } }
  else d

/-- A port leaves service after the failure of the lane with service number `lane`: DEGRADED with a repair report, and event 0x4 (09 R297; 07 R238; 13 R394). -/
def portLost (p lane : Nat) (d : Dev) : Dev :=
  let d := modPort p (fun q => { q with state := .down }) d
  loss [⟨clsDegraded, 0x06, 0x0908 + 4 * p, p, p, false⟩] 4 p (repairNext ⟨0x09, lane, siteOf d 9 lane, 2, 3, 0, 0xFF, 0, 0, 0⟩ d)

/-- The ballast lane of a direction takes the place of a failed lane (09 R296; 13 R394, R400). -/
def laneSwap (p lane dir : Nat) (d : Dev) : Dev :=
  let site := ballastSite d 9 dir
  let d := callUp 7 9 dir d
  let d := modPort p (fun q => { q with ballast := true }) d
  let d := moveSite 9 lane site { d with
    integ := { d.integ with balLanes := modAt (fun _ => false) dir d.integ.balLanes }
    tth := { d.tth with lswap := satAdd d.tth.lswap 1 } }
  repair ⟨0x09, lane, site, 2, 2, 0, 0xFF, 0, 0, 0⟩ (fault [⟨clsDegraded, 0x06, 0x094C, p, p, false⟩] d)

/-- A lane is declared failed (09 R296, R297). Lanes 64 to 67 are ballast: one in use takes its port out of service, a free one is
marked bad at both ends. -/
def laneFailDev (lane : Nat) (trains free : Bool) (d : Dev) : Dev :=
  if 64 ≤ lane then
    let dir := lane - 64
    if 4 ≤ dir then d
    else
      match d.tth.ports.findIdx? fun q => q.dir = dir && q.ballast && q.state = .up with
      | some p => portLost p ((serviceAt d 9 lane).getD lane) (modPort p (fun q => { q with ballast := false }) d)
      | none => if spareFor d 9 dir then tellPartner dir (laneBad 2 0 dir d) else d
  else
    let p := lane / 4
    let i := lane % 4
    match d.tth.ports[p]? with
    | none => d
    | some q =>
      if !(q.state = .up) || !q.lanes.getLsbD i then d
      else
        let d := modPort p (fun q => { q with lanes := q.lanes &&& ~~~(BitVec.ofNat 4 (2 ^ i)) }) d
        if 4 ≤ q.dir || !spareFor d 9 q.dir || !free then portLost p lane d
        else if trains then laneSwap p lane q.dir d
        else portLost p lane (tellPartner q.dir (laneBad 2 0 q.dir d))

/-- The partner of a port is gone: DOWN with a NOTE, and no contingency event (09 R297). -/
def partnerGoneDev (p : Nat) (d : Dev) : Dev :=
  match d.tth.ports[p]? with
  | some q =>
    if q.state = .up ∨ q.state = .swapping then note 0x06 (0x0908 + 4 * p) p p (modPort p (fun q => { q with state := .down }) d)
    else d
  | none => d

/-- The partner end says that a ballast pair is unusable: this end holds it so too (09 R296). -/
def ballastNoticeDev (dir : Nat) (d : Dev) : Dev := if spareFor d 9 dir then laneBad 2 0 dir d else d

/-! ## The commands -/

/-- PORT_TRAINING_COMPLETE (09 R277). -/
def execPortTrainingComplete (p : Nat) (r : PortTrain) (s : State) : Out := onDev (trainedDev p r) s

/-- FENCE_SLOT (09 R291). -/
def execFenceSlot (seq : Nat) (s : State) : Out := onDev (fenceDev seq) s

/-- PUT_ISSUE (09 R283). -/
def execPutIssue (seq : Nat) (s : State) : Out := onBoth (issueMsg 0 seq) s

/-- GET_ISSUE (09 R283). -/
def execGetIssue (seq : Nat) (s : State) : Out := onBoth (issueMsg 1 seq) s

/-- ACCUMULATE_ISSUE (09 R283). -/
def execAccumulateIssue (seq : Nat) (s : State) : Out := onBoth (issueMsg 2 seq) s

/-- SIGNAL_ISSUE (09 R283). -/
def execSignalIssue (seq : Nat) (s : State) : Out := onBoth (issueMsg 3 seq) s

/-- GET_RECEIVE (09 R286, R288). -/
def execGetReceive (port : Nat) (h : WireHdr) (s : State) : Out := onRead (getDev port h) s

/-- ACCUMULATE_RECEIVE (09 R292). -/
def execAccumulateReceive (port : Nat) (h : WireHdr) (data : List Byte) (s : State) : Out := onBoth (accBoth port h data) s

/-- SIGNAL_RECEIVE (09 R286). -/
def execSignalReceive (port : Nat) (h : WireHdr) (s : State) : Out := onRead (signalDev port h) s

/-- GET_RESP_RECEIVE (09 R286). -/
def execGetRespReceive (h : WireHdr) (data : List Byte) (s : State) : Out := onBoth (getRespBoth h data) s

/-- ACK_RECEIVE (09 R286). -/
def execAckReceive (h : WireHdr) (s : State) : Out := onDev (ackDev h) s

/-- NACK_RECEIVE (09 R290). -/
def execNackReceive (h : WireHdr) (s : State) : Out := onDev (nackDev h) s

/-- MESH_TRANSIT (09 R281). -/
def execMeshTransit (h : WireHdr) (data : List Byte) (s : State) : Out := onDev (transitDev h data) s

/-- MESSAGE_TIMEOUT (09 R290). -/
def execMessageTimeout (tag : Nat) (s : State) : Out := onDev (msgTimeoutDev tag) s

/-- LINK_REPLAY (09 R295). -/
def execLinkReplay (port : Nat) (s : State) : Out := onDev (replayDev port) s

/-- LANE_FAILURE (09 R296). -/
def execLaneFailure (lane : Nat) (trains free : Bool) (s : State) : Out := onDev (laneFailDev lane trains free) s

/-- PARTNER_GONE (09 R297). -/
def execPartnerGone (port : Nat) (s : State) : Out := onDev (partnerGoneDev port) s

/-- LINK_CONTROL_BALLAST_NOTICE (09 R296). -/
def execLinkControlBallastNotice (dir : Nat) (s : State) : Out := onDev (ballastNoticeDev dir) s

end Sys2Proof.Machine
end

