-- ==== Sys2Proof/Machine/CheckNet.lean ====
section
/-! DEFINITION. Checks 0x0F to 0x12 of 07 R235: ARBITRATION, TETHER, CONTINGENCY and WAITGRAPH. -/

namespace Sys2Proof.Machine

/-! ## ARBITRATION (07 R228, R230) -/

/-- A use of a resource: RES_KIND and RES, and the slot (07 R228). -/
abbrev ResUse := (Nat × Nat) × Slot

/-- Resources that a range of memory occupies: bank ports of local SRAM, and HBM stacks (07 R228). -/
def rangeRes (a n : Nat) : List (Nat × Nat) :=
  ((List.range 48).filter fun b => overlaps a n (0x2000000 * b) 0x2000000).map (fun b => (0, b))
    ++ ((List.range 8).filter fun s => overlaps a n (hbmBase s) hbmBytes).map fun s => (1, s)

/-- The resource of a slot's own stream (07 R224, R228). -/
def streamRes (s : Slot) : List (Nat × Nat) :=
  if s.kind = 5 then []
  else if s.stream < 160 then [(5, s.stream / 4)]
  else if 200 ≤ s.stream ∧ s.stream < 240 then [(4, s.stream - 200)]
  else if 240 ≤ s.stream ∧ s.stream < 256 then [(2, s.stream - 240)]
  else if 256 ≤ s.stream ∧ s.stream < 264 then [(1, s.stream - 256)]
  else if s.stream = 264 then [(3, 0)]
  else []

/-- Every use of a resource by a body (07 R228). -/
def resUses (x : Img) : List ResUse :=
  (x.touches.flatMap fun t => (rangeRes t.addr t.len).map fun r => (r, t.slot))
    ++ x.b.slots.flatMap fun s => (streamRes s).map fun r => (r, s)

/-- Two slots make a resource shared: they are of different streams; of a spar, of different contexts (07 R228). -/
def shares (r : Nat × Nat) (s t : Slot) : Bool := if r.1 = 5 then s.ctx ≠ t.ctx else decide ((s.stream, s.ctx) ≠ (t.stream, t.ctx))

/-- Uses of shared resources that the table does not name (07 R228). -/
def unnamed (x : Img) : List Fail :=
  let us := (resUses x).eraseDups
  failSeqs 2 ((us.filter fun u =>
    !(x.b.arbs.any fun a => (a.kind, a.res) = u.1) && us.any fun v => v.1 = u.1 && shares u.1 u.2 v.2).map fun u => u.2.seq)

/-- The waits, the stream orders, and the order in which transfers of one queue complete (07 R226; 08 R245). -/
def Img.queueGraph (x : Img) : List (Nat × List Nat) :=
  (x.issueGraph.zip x.doneGraph).map fun n => (n.1.1, n.1.2 ++ n.2.2)

/-- The order of service of ordered points beside the other orders (07 R230). -/
def servedGraph (x : Img) : List (Nat × List Nat) :=
  x.queueGraph.map fun n =>
    match x.b.slots.find? fun s => s.seq = n.1 with
    | none => n
    | some s =>
      if ((x.b.arbs[s.arb]?).map Arb.ordered).getD false then
        (n.1, n.2 ++ (x.b.slots.filter fun t => t.arb = s.arb && decide (t.seq < s.seq)).map Slot.seq)
      else n

/-- Ordered points whose requesters could need each other's later slots: a cycle that the other orders alone do not make (07 R230). -/
def orderedCycles (x : Img) : List Fail :=
  let plain := onCycle x.queueGraph
  failSeqs 5 ((onCycle (servedGraph x)).filter fun n => !plain.contains n)

/-- The vector blocks that accumulate, each with the ranges that it both reads and writes; a tacked line it reads and writes in different
copies (07 R228; 11 R336; log entry 35). -/
def Img.accumulates (x : Img) : List (Slot × List (Nat × Nat)) :=
  x.blocks.map fun b =>
    (b.1, (meetRanges (b.2.flatMap VIns.writes) (b.2.flatMap VIns.reads)).filter fun r => !x.tacked r.1 r.2)

/-- Blocks of several streams that accumulate into one range, where no entry names the placement entry of the range (07 R228). -/
def unnamedTargets (x : Img) : List Fail :=
  let us := x.accumulates
  let shared (s : Slot) (r : Nat × Nat) : Bool := us.any fun v => (v.1.stream, v.1.ctx) ≠ (s.stream, s.ctx) && meets v.2 r.1 r.2
  let named (r : Nat × Nat) : Bool := x.b.places.zipIdx.all fun p =>
    !overlaps r.1 r.2 p.1.base p.1.len || x.b.arbs.any fun a => a.kind = 6 && a.res = p.2
  failSeqs 2 ((us.filter fun u => u.2.any fun r => shared u.1 r && !named r).map fun u => u.1.seq)

/-- ARBITRATION. -/
def checkArb (x : Img) : List Fail :=
  failIf 5 (x.b.arbs.any fun a => decide (6 < a.kind)) ++ failSlots 2 x.b.slots (fun s => s.arb ≠ 0xFFFF && decide (x.b.arbs.length ≤ s.arb))
    ++ unnamed x ++ unnamedTargets x ++ orderedCycles x

/-! ## TETHER (09 R280 to R284; 10 R328) -/

/-- A mesh route of a node is in service on this chip's own ports (09 R282). -/
def meshUp (d : Dev) (n : Nat) : Bool := (meshOut d n false).isSome

/-- A far port is UP (09 R282). -/
def farUp (d : Dev) : Bool := !(bundle d 4).isEmpty || !(bundle d 5).isEmpty

/-- A bridle entry that breaks R282: rank `i`. -/
def hopBad (x : Img) (i : Nat) (h : Hop) : Bool :=
  let t := x.d.flash.tether
  if i = x.b.self then decide (h.kind ≠ 0 ∨ h.node ≠ x.d.tth.self)
  else
    decide (h.kind = 0) || (h.kind ≠ 2 && decide (h.node / 4096 ≠ x.d.tth.self / 4096 ∨ t.xmax < nodeX h.node ∨ t.ymax < nodeY h.node))
      || !((h.kind ≠ 2 && meshUp x.d h.node) || (2 ≤ h.kind && farUp x.d))

/-- The bridle table (09 R280, R282). -/
def bridleBad (x : Img) : Bool :=
  let s := sect x.dir 7
  decide (s.2 ≠ 64 + 16 * x.b.hops.length ∨ x.b.nRank ≠ x.hdr.nRank ∨ x.b.hops.length ≠ x.hdr.nRank ∨ x.hdr.nRank ≤ x.b.self
      ∨ x.b.selfNode ≠ x.d.tth.self ∨ bits (x.m.readLE (x.addr + s.1) 64) 407 0 ≠ 0)
    || (tableAt x.m (x.addr + s.1 + 64) 16 x.b.hops.length).any (fun e => decide (bits e 100 0 ≠ 0))
    || clashes (fun a b => a.node = b.node) x.b.hops || x.b.hops.zipIdx.any fun h => hopBad x h.2 h.1

/-- A replacement changes the bridles without a new layout epoch (10 R328). -/
def epochBad (x : Img) : Bool :=
  match x.old with
  | some o =>
    x.b.variant = 0 && x.b.lepoch = o.lepoch
      && decide ((x.b.nRank, x.b.self, x.b.job, x.b.selfNode) ≠ (o.nRank, o.self, o.job, o.selfNode) ∨ x.b.hops ≠ o.hops)
  | none => false

/-- A message descriptor that breaks R282 to R284. -/
def msgBad (x : Img) (s : Slot) : Bool :=
  let g := x.msg s
  let acc := g.opc = 2
  let signal := g.opc = 3
  let raw := x.m.readLE (x.addr + s.payload) 32
  decide (3 < g.opc ∨ g.resv ≠ 0 ∨ x.hdr.nRank ≤ g.rank ∨ g.rank = x.b.self)
    || (if acc then g.accOp = 3 || !([0, 1, 2, 3, 8].contains g.fmt) else decide (g.accOp ≠ 0 ∨ g.fmt ≠ 0))
    || (g.sig && (g.opc = 1 || signal))
    || (if signal then decide (g.inc = 0 ∨ bits raw 203 191 ≠ 0 ∨ g.loc ≠ 0 ∨ g.remote ≠ 0)
        else decide (g.inc ≠ 0 ∨ g.len % 16 ≠ 0 ∨ 4096 < g.len ∨ g.loc % 16 ≠ 0)
          || !x.owned (fun p => decide (p.tier ≤ 1)) g.loc g.len)

/-- A TETHER slot on a port that is not of its message's first hop (09 R282). -/
def portBad (x : Img) (s : Slot) : Bool :=
  match x.b.hops[(x.msg s).rank]?, x.d.tth.ports[s.stream - 240]? with
  | some h, some p =>
    !((h.kind ≠ 2 && hopDir x.d.tth.self h.node false = some p.dir) || (2 ≤ h.kind && (p.dir = 4 || p.dir = 5)))
  | _, _ => true

/-- TETHER. -/
def checkTether (x : Img) : List Fail :=
  failIf 7 (bridleBad x || epochBad x)
    ++ failSlots 2 ((x.kind 4).filter fun s => !isDrainSlot s) fun s => msgBad x s || portBad x s

/-! ## CONTINGENCY (07 R238 to R240; 10 R330; 11 R354, R357) -/

/-- The events that need an entry, with their targets: every other rank, and the arrays, Gram arrays and groups of the plan's streams
(07 R238). -/
def targetsOf (x : Img) : List (Nat × Nat) :=
  let st := x.b.slots.map Slot.stream
  let arrs := st.filter (· < 160)
  let grams := (st.filter fun s => decide (160 ≤ s ∧ s < 200)).map (· - 160)
  let vus := (st.filter fun s => decide (200 ≤ s ∧ s < 240)).map (· - 200)
  ((List.range x.hdr.nRank).filter (· ≠ x.b.self)).map (fun r => (0, r)) ++ arrs.map (fun a => (1, a)) ++ grams.map (fun g => (2, g))
    ++ (arrs.map (· / 4) ++ grams ++ vus).map fun g => (3, g)

/-- The contingency table: codes, variants, no two entries of one event and target, and coverage (07 R238, R240). -/
def contTable (x : Img) : List Fail :=
  failIf 8 (decide ((sect x.dir 8).2 % 32 ≠ 0)
    || x.b.conts.any (fun c => decide (6 < c.event ∨ (c.variant ≠ 0xFFFF ∧ x.hdr.nVar < c.variant)))
    || clashes (fun a b => a.event = b.event && a.target = b.target) x.b.conts
    || (targetsOf x).any fun t => !x.b.conts.any fun c => c.event = t.1 && c.target = t.2)

/-- The variant directory: order, VARIANT and SECTION (07 R240). -/
def contVardir (x : Img) : List Fail :=
  let es := varDirAt x.m x.addr
  failIf 10 (x.b.variant = 0 && (decide ((sect x.dir 10).2 % 16 ≠ 0)
    || es.any (fun e => decide (e.variant = 0 ∨ x.hdr.nVar < e.variant ∨ 9 < e.sect))
    || !strictly pairLt (es.map fun e => (e.variant, e.sect))))

/-- A permutation table against this chip: its destinations here keep off its sources here and off the ranges that hold ledgers, plan
images and snapshots (10 R330); under a chip loss tacked ranges come from snapshots (11 R354). -/
def permBad (x : Img) (c : Cont) : Bool :=
  let es := permAt x.m x.addr c
  let self := if c.variant = 0xFFFF then x.b.self else (bodyAt x.m x.addr c.variant).self
  let srcs := (es.filter fun e => e.kind ≠ 3 && e.srcRank = x.b.self).map fun e => (e.src, e.len)
  let keep := (x.b.places.filter fun p => p.use = 3 || p.use = 4 || p.use = 5).map fun p => (p.base, p.len)
  let tacked := (if c.variant = 0xFFFF then x.b.tacks else (bodyAt x.m x.addr c.variant).tacks).flatMap fun t =>
    [(t.baseA, t.len), (t.baseB, t.len)]
  es.any fun e =>
    (e.dstRank = self && (meets srcs e.dst e.len || meets keep e.dst e.len))
      || (c.event = 0 && e.kind = 0 && ((e.dstRank = self && meets tacked e.dst e.len)
          || (e.srcRank = x.b.self && x.b.tacks.any fun t => overlaps e.src e.len t.baseA t.len || overlaps e.src e.len t.baseB t.len)))

/-- Snapshot targets, buddy and MIN_RANKS (11 R354, R357). -/
def contTack (x : Img) : List Fail :=
  let t := x.b.tack
  let lossy := x.b.conts.any fun c => c.event = 0
  failIf 3 ((lossy && !(bit t.tgt 2 || (bit t.tgt 0 && bit t.tgt 1))) || (lossy && bit t.tgt 1 && (t.buddy = 0xFFFF || t.buddy = x.b.self))
    || decide (t.minRanks = 0 ∨ (1 < x.hdr.nRank ∧ x.hdr.nRank ≤ t.minRanks)))

/-- CONTINGENCY. -/
def checkCont (x : Img) : List Fail :=
  contTable x ++ contTack x ++ failIf 9 (x.b.conts.any (permBad x)) ++ contVardir x

/-! ## WAITGRAPH (07 R235) -/

/-- WAITGRAPH: slots on a cycle of the waits and stream orders. -/
def checkWaits (x : Img) : List Fail := failSeqs 2 (onCycle x.issueGraph)

end Sys2Proof.Machine
end

