-- ==== Sys2Proof/Machine/Validate.lean ====
section
/-! DEFINITION. Validation of a plan set: the checks in the order of their codes, and the failure that the completion names (07
R235). -/

namespace Sys2Proof.Machine

/-- A rejection: the code, the variant, the section and the SEQ of the failing slot; no SEQ where no slot is concerned (07 R235). -/
structure Rej where
  code : Nat
  variant : Nat
  sect : Nat
  seq : Option Nat
deriving DecidableEq, Repr

/-- The failure of lowest SEQ; one that concerns no slot only where no slot fails (07 R235; log entry 35). -/
def lowest : List Fail → Option Fail
  | [] => none
  | f :: t =>
    match lowest t with
    | none => some f
    | some g =>
      match f.2, g.2 with
      | some q, some r => if r < q then some g else some f
      | none, some _ => some g
      | _, _ => some f

/-- The checks in the order of their codes (07 R235). -/
def checks : List (Nat × (Img → List Fail)) :=
  [(0x01, checkFormat), (0x02, checkContract), (0x03, checkShortfall), (0x04, checkCapacity), (0x05, checkAddress), (0x06, checkState),
   (0x07, checkContext), (0x08, checkNumeric), (0x09, checkArray), (0x0A, checkTiming), (0x0B, checkQueue), (0x0C, checkVector),
   (0x0D, checkCurvature), (0x0E, checkSolver), (0x0F, checkArb), (0x10, checkTether), (0x11, checkCont), (0x12, checkWaits)]

/-- Firmware's validation of the plan set at `a`: the first failing check, in the primary before the variants and those in ascending
order; `old` is the body in force when the set is to replace one (07 R235, R237). -/
def validate (m : Mem) (d : Dev) (a : Nat) (old : Option PlanBody) : Option Rej :=
  let imgs := (List.range ((hdrAt m a).nVar + 1)).map fun v => (v, imgAt m d a v old)
  checks.findSome? fun c => imgs.findSome? fun x => (lowest (c.2 x.2)).map fun f => ⟨c.1, x.1, f.1, f.2⟩

end Sys2Proof.Machine
end

