-- ==== Sys2Proof/Machine/Snapshot.lean ====
section
/-! DEFINITION. Snapshots: their points, items, slots and drain, cost reports, the interval, SNAP_CTRL, and the inventory and rewind
of a chip loss (11 R342 to R349, R352, R355, R356; 14 R423). -/

namespace Sys2Proof.Machine

/-- Inserts by a key, in ascending order. -/
def insertBy {α : Type} (f : α → Nat) (x : α) : List α → List α
  | [] => [x]
  | y :: ys => if f x < f y then x :: y :: ys else y :: insertBy f x ys

/-- Sorts by a key, in ascending order, equals in their order. -/
def sortBy {α : Type} (f : α → Nat) (l : List α) : List α := l.foldl (fun r x => insertBy f x r) []

/-! ## Items and slots (11 R342, R343) -/

/-- An item: TYPE, ID, INDEX, device address, bytes. -/
abbrev Item := Nat × Nat × Nat × Nat × Nat

/-- The items of a snapshot: current tack copies, CURRENT root buffers, ledger status and pending slots (11 R342). -/
def snapItems (m : Mem) (d : Dev) (b : PlanBody) : List Item :=
  ((b.tacks.zipIdx.filter fun t => t.1.kind ≠ 7).map fun t =>
    (0, t.1.shard, t.1.kind, (if tackB d t.2 then t.1.baseB else t.1.baseA), t.1.len))
  ++ (sortBy (fun s => s.record.id) d.curv.sets).flatMap (fun s =>
    (List.range (rootBlocks s.record)).filterMap fun k =>
      let x := descNow m d s.record k
      if descPub x = 3 then none else some (1, s.record.id, k, descBuf x (descPub x), rootBytes s.record))
  ++ (sortBy Ledger.shard b.ledgers).flatMap fun l =>
    (2, l.shard, 0, statNowAt m l, 64) :: (pendingSteps (statNow m l)).map fun n =>
      (3, l.shard, n % (l.lag + 1), ledgerSlot l n, l.slotBytes)

/-- Where the items of a slot lie: each at the next 4 KiB boundary (11 R343). Answers the offsets and the end of the last item. -/
def itemOffsets : Nat → List Item → List Nat × Nat
  | o, [] => ([], o)
  | o, i :: t =>
    let a := ceilDiv o 4096 * 4096
    let r := itemOffsets (a + i.2.2.2.2) t
    (a :: r.1, r.2)

/-- An item table entry (11 R343). -/
def itemEntry (i : Item) (off : Nat) (bs : List Byte) : List Byte :=
  leBytes 32 (i.1 % 16 * 2 ^ 252 + i.2.1 % 2 ^ 16 * 2 ^ 236 + i.2.2.1 % 2 ^ 20 * 2 ^ 216 + off % 2 ^ 48 * 2 ^ 168
    + i.2.2.2.2 % 2 ^ 48 * 2 ^ 120 + crc64 bs)

/-- Seconds of the job's run so far (11 R347). -/
def runSeconds (d : Dev) (r : Run) : Nat := d.snap.runBase + (d.dbg.now - r.jobStart) / 100000000

/-- The slot image of a snapshot of DATA_STEP `s`: header, item table and items; and its bytes without the commit record (11
R343). -/
def slotImage (m : Mem) (d : Dev) (r : Run) (s : Nat) (items : List Item) : Mem × Nat :=
  let n := items.length
  let lay := itemOffsets (256 + 32 * n) items
  let datas := items.map fun i => readEngine m d.ecc i.2.2.2.1 i.2.2.2.2
  let table := ((items.zip lay.1).zip datas).flatMap fun x => itemEntry x.1.1 x.1.2 x.2
  let hdr := leBytes 256 (0x534E5031 * 2 ^ 2016 + 1 * 2 ^ 2008 + r.body.self % 2 ^ 16 * 2 ^ 1992 + r.body.nRank % 2 ^ 16 * 2 ^ 1976
    + d.vrd.epoch % 2 ^ 16 * 2 ^ 1960 + r.hdr.planId % 2 ^ 64 * 2 ^ 1896 + s % 2 ^ 64 * 2 ^ 1832 + n % 2 ^ 32 * 2 ^ 1800
    + (lay.2 + 64) % 2 ^ 48 * 2 ^ 1752 + crc64 table * 2 ^ 1688 + runSeconds d r % 2 ^ 32 * 2 ^ 1656 + d.snap.fails % 2 ^ 16 * 2 ^ 1640)
  let base : Mem := Mem.write [] 0 (hdr ++ table)
  ((lay.1.zip datas).foldl (fun b x => b.write x.1 x.2) base, lay.2)

/-- The commit record of a slot whose header and table are `head` (11 R343). -/
def commitRecord (s : Nat) (head : List Byte) : List Byte :=
  leBytes 64 (s % 2 ^ 64 * 2 ^ 448 + crc64 head * 2 ^ 384 + 0x434D5431 * 2 ^ 352)

/-- DATA_STEP of a slot image seen through `rd`, when it is complete: MAGIC, DATA_STEP and MANIFEST_CRC agree and no item has a
reserved TYPE (11 R343). -/
def slotStepOf (rd : Nat → Nat → List Byte) (slotBytes : Nat) : Option Nat :=
  let c := leNat (rd (slotBytes - 64) 64)
  let h := leNat (rd 0 256)
  let n := bits h 1831 1800
  if slotBytes < 256 + 32 * n + 64 then none
  else if bits c 383 352 = 0x434D5431 ∧ bits c 511 448 = bits h 1895 1832 ∧ bits c 447 384 = crc64 (rd 0 (256 + 32 * n))
      ∧ (List.range n).all (fun i => bits (leNat (rd (256 + 32 * i) 32)) 255 252 < 4) then some (bits h 1895 1832)
  else none

/-- DATA_STEP of the slot at `a` in device memory, when it is complete and readable (11 R343, R355). -/
def slotStepAt (m : Mem) (d : Dev) (a slotBytes : Nat) : Option Nat :=
  if backed d a && backed d (a + slotBytes - 1) then slotStepOf (fun o n => readEngine m d.ecc (a + o) n) slotBytes else none

/-! ## Snapshot points (11 R339, R342, R345, R347, R348) -/

/-- T_ref: the mean length of the last 8 steps that started with no drain active; before the first of them a free value (11 R347;
log entry 32). -/
def trefOf (d : Dev) : Nat × Dev :=
  match d.snap.quietLens with
  | [] => let x := draw 32 d; (x.1.toNat, x.2)
  | l => (l.sum / l.length, d)

/-- The current copies of the entries a snapshot copies become SOURCE (11 R339). -/
def markSource (b : PlanBody) (d : Dev) : Dev :=
  let mark (x : (TackEnt × Bool) × (CopyState × CopyState)) : CopyState × CopyState :=
    if x.1.1.kind = 7 then x.2 else if x.1.2 then (x.2.1, .source) else (.source, x.2.2)
  { d with tack := { d.tack with copies := ((b.tacks.zip d.tack.sel).zip d.tack.copies).map mark } }

/-- A snapshot of DATA_STEP `u` begins (11 R339, R342, R343). -/
def drainBegin (r : Run) (u : Nat) (m : Mem) (d : Dev) : Dev :=
  let t := trefOf d
  let items := snapItems m d r.body
  let img := slotImage m d r u items
  let d := markSource r.body t.2
  { d with snap := { d.snap with
      drain := some { step := u, slot := d.snap.k % 2, ok := 0, aborted := 0, items := items, used := img.2, image := img.1
                      sentG := 0, sentB := 0, tref := t.1, cost := 0 }
      k := d.snap.k + 1 } }

/-- The commit that makes the step index `u`: at a snapshot point a snapshot begins, or the point is passed over; NEXT moves on by
the interval in force (11 R342, R345, R348, R349). -/
def snapFlip (u : Nat) (m : Mem) (d : Dev) : Dev :=
  match d.plan.run with
  | none => d
  | some r =>
    let at_ := d.snap.next = some u
    let forced := d.snap.forced.contains u
    if r.body.tack.tgt = 0 || !(at_ || forced) then d
    else
      let d := { d with snap := { d.snap with
        forced := d.snap.forced.filter (· ≠ u)
        next := if at_ then some (u + d.snap.interval) else d.snap.next } }
      if d.snap.disabled then d
      else if d.snap.drain.isSome then
        note 0x07 0x0B24 0xFFFF 0 { d with snap := { d.snap with skip := satAdd d.snap.skip 1 } }
      else drainBegin r u m d

/-- A step of length `len` has ended: its length enters the means, or the cost of the drain that was active when it started (11
R347). -/
def stepLength (len : Nat) (commit : Bool) (d : Dev) : Dev :=
  let s := d.snap
  let s := if commit then { s with lens := (len :: s.lens).take 64 } else s
  let s :=
    if s.drainAtStart then { s with drain := s.drain.map fun x => { x with cost := x.cost + (len - x.tref) } }
    else { s with quietLens := (len :: s.quietLens).take 8 }
  { d with snap := s }

/-! ## Records of the snapshot area (11 R346) -/

/-- A REPORT, SCHEDULE or INVENTORY as a number without its CRC. -/
def snapWord (ty rank f0 f1 f2 f3 f4 ok : Nat) : Nat :=
  ty % 16 * 2 ^ 508 + rank % 2 ^ 16 * 2 ^ 492 + f0 % 2 ^ 64 * 2 ^ 428 + f1 % 2 ^ 64 * 2 ^ 364 + f2 % 2 ^ 64 * 2 ^ 300
    + f3 % 2 ^ 64 * 2 ^ 236 + f4 % 2 ^ 16 * 2 ^ 220 + ok % 8 * 2 ^ 217

/-- The 64 bytes of a record whose CRC-32C lies in bits [31:0] (10 R317; 11 R346). -/
def sealRecord (n w : Nat) : List Byte := leBytes n (w + crc32c (leBytes n w))

/-- The record of `n` bytes at `a` as a number, when its CRC is good (10 R317; 11 R346). -/
def recordAtAddr (m : Mem) (d : Dev) (a n : Nat) : Option Nat :=
  let w := leNat (readEngine m d.ecc a n)
  if crc32c (leBytes n (w / 2 ^ 32 * 2 ^ 32)) = w % 2 ^ 32 then some w else none

/-- The record of type `ty` in slot `i` of the snapshot area, when its CRC is good. -/
def snapRecord (m : Mem) (d : Dev) (area i ty : Nat) : Option Nat :=
  match recordAtAddr m d (area + 64 * i) 64 with
  | some w => if bits w 511 508 = ty then some w else none
  | none => none

/-- Puts a record into slot `i` of a rank's snapshot area; into this chip's own by a write (11 R346, R348). -/
def areaPut (r : Run) (rank i : Nat) (bs : List Byte) (m : Mem) (d : Dev) : Mem × Dev :=
  let a := r.body.tack.area + 64 * i
  if rank = r.body.self then
    let w := devWrite m d a bs
    (w.1, { w.2 with snap := { w.2.snap with got := (w.2.snap.got.filter fun g => g.1 ≠ i) ++ [(i, r.start)] } })
  else (m, mastPlain rank a r.start bs d)

/-- The cost REPORT of a snapshot goes to rank 0 (11 R347, R358). -/
def sendReport (step cycles ok : Nat) (m : Mem) (d : Dev) : Mem × Dev :=
  match d.plan.run with
  | none => (m, d)
  | some r =>
    let d := if r.body.self = 0 then d else { d with snap := { d.snap with cost := min (cycles / 100) ctrMax } }
    areaPut r 0 r.body.self (sealRecord 64 (snapWord 1 r.body.self step (cycles / 100) 0 0 0 ok)) m d

/-- The REPORT that an abandoned snapshot owes is sent (11 R347). -/
def payReport (m : Mem) (d : Dev) : Mem × Dev :=
  match d.snap.owed with
  | some (step, cycles) => sendReport step cycles 0 m { d with snap := { d.snap with owed := none } }
  | none => (m, d)

/-- A SCHEDULE that has arrived is adopted when its NEXT is above the step index plus 1 (11 R348). -/
def scheduleTake (m : Mem) (d : Dev) : Dev :=
  match d.plan.run with
  | none => d
  | some r =>
    let i := 2 * r.body.nRank
    if d.snap.got.any fun g => g.1 = i then
      let d := { d with snap := { d.snap with got := d.snap.got.filter fun g => g.1 ≠ i } }
      match snapRecord m d r.body.tack.area i 2 with
      | some w =>
        if r.step + 1 < bits w 491 428 then { d with snap := { d.snap with next := some (bits w 491 428), interval := bits w 235 220 } }
        else d
      | none => d
    else d

/-! ## The end of a drain (11 R343 to R345, R347; 10 R326) -/

/-- A slot of the drain engine on port G copies the next bytes of the image (11 R344). -/
def drainGondola (k : Nat) (m : Mem) (d : Dev) : Mem × Dev :=
  match d.plan.run, d.snap.drain with
  | some r, some x =>
    let bs := imagePart x x.sentG (k * 4096)
    let a := r.body.tack.gonBase + x.slot * r.body.tack.slotBytes + x.sentG
    if !bit r.body.tack.tgt 0 || bit x.aborted 0 then (m, d)
    else if !(backed d a && backed d (a + bs.length - 1)) then (m, targetAbort 0 d)
    else
      let w := devWrite m d a bs
      (w.1, { w.2 with snap := { w.2.snap with drain := some { x with sentG := x.sentG + bs.length } } })
  | _, _ => (m, d)

/-- The drain engine has gondola work: a drain slot with nothing to copy completes at once (11 R344). -/
def drainHasG (d : Dev) : Bool :=
  match d.plan.run, d.snap.drain with
  | some r, some x => bit r.body.tack.tgt 0 && !bit x.aborted 0 && decide (x.sentG < x.used)
  | _, _ => false

/-- What is left of the image and then the commit record reach the gondola slot (11 R343). -/
def finishGondola (m : Mem) (d : Dev) : Mem × Dev :=
  let y := drainGondola (((d.snap.drain.map Drain.used).getD 0) / 4096 + 1) m d
  match y.2.plan.run, y.2.snap.drain with
  | some r, some x =>
    if bit x.aborted 0 then y
    else
      let head := x.image.read 0 (256 + 32 * x.items.length)
      devWrite y.1 y.2 (r.body.tack.gonBase + x.slot * r.body.tack.slotBytes + r.body.tack.slotBytes - 64) (commitRecord x.step head)
  | _, _ => y

/-- What is left of the image and then the commit record go to the buddy (11 R343, R344). -/
def finishBuddy (d : Dev) : Dev :=
  match d.plan.run, d.snap.drain with
  | some r, some x =>
    let base := r.body.tack.buddyBase + x.slot * r.body.tack.slotBytes
    let d := drainPuts 265 r.start 0 base r.body.tack.buddy (ceilDiv (x.used - x.sentB) 4096) d
    let d := { d with tth := { d.tth with pend := d.tth.pend.map fun p => if p.stream = 265 && p.drain then { p with slot := none } else p } }
    sendReq 265 none true r.start
      ⟨0, 0, 0, false, r.body.tack.buddy, 0, 0, false, 64, 0, base + r.body.tack.slotBytes - 64, 0, 0⟩
      (commitRecord x.step (x.image.read 0 (256 + 32 * x.items.length))) d
  | _, _ => d

/-- The image and its commit record are written into the host snapshot window, when it is named and holds the slot (11 R344; 14
R423). -/
def finishHost (d : Dev) : Dev :=
  match d.plan.run, d.snap.drain, d.snap.host with
  | some r, some x, some (base, len, _) =>
    let sb := r.body.tack.slotBytes
    if len < (x.slot + 1) * sb then targetAbort 2 d
    else
      let a := base + x.slot * sb
      { d with
        host := (d.host.write a (x.image.read 0 x.used)).write (a + sb - 64)
          (commitRecord x.step (x.image.read 0 (256 + 32 * x.items.length)))
        snap := { d.snap with hostDone := (d.snap.hostDone.filter fun h => h.1 ≠ x.slot) ++ [(x.slot, x.step)] } }
  | _, _, _ => targetAbort 2 d

/-- The first item of the drain with an uncorrectable word, with its place (11 R341; 13 R387). -/
def drainBad (d : Dev) (x : Drain) : Option Item := x.items.find? fun i => (firstBad d.ecc i.2.2.2.1 i.2.2.2.2).isSome

/-- SNAPSHOT_COMPLETE: the targets that took every byte receive the rest and their commit records, the others are abandoned; held
copies go, the REPORT is sent, the SHA-512 enters the votes, and a complete snapshot is recorded (10 R326; 11 R341, R343, R345, R347,
R349). -/
def snapDoneBoth (c : SnapCost) (m : Mem) (d : Dev) : Mem × Dev :=
  match d.plan.run, d.snap.drain with
  | some r, some x =>
    match drainBad d x with
    | some i =>
      if i.1 = 0 then
        match r.body.tacks.zipIdx.find? fun t => t.1.baseA = i.2.2.2.1 || t.1.baseB = i.2.2.2.1 with
        | some (t, k) => (m, tackLoss (let cs := (d.tack.copies[k]?).getD (.current, .off); if t.baseA = i.2.2.2.1 then cs.1 else cs.2)
            (ueAt 2 i.2.2.2.1 d))
        | none => (m, drainAbandon d)
      else (m, drainAbandon (also [⟨clsNote, 0x07, 0x0B28, 0xFFFF, 0, false⟩] (ueAt 2 i.2.2.2.1 d)))
    | none =>
      let want := (List.range 3).filter fun i => bit r.body.tack.tgt i && !bit x.aborted i
      let d := (want.filter fun i => !bit c.ok i).foldl (fun d i => targetAbort i d) d
      let y := if want.contains 0 && bit c.ok 0 then finishGondola m d else (m, d)
      let d := if want.contains 1 && bit c.ok 1 then finishBuddy y.2 else y.2
      let d := if want.contains 2 && bit c.ok 2 then finishHost d else d
      let ok := (want.filter fun i => bit c.ok i && !bit ((d.snap.drain.map Drain.aborted).getD 0) i)
      let full := ok.length = ((List.range 3).filter fun i => bit r.body.tack.tgt i).length
      let d := drainEnd { d with
        vrd := { d.vrd with sha := if r.body.digests.isEmpty then d.vrd.sha else some (x.step, c.sha) } }
      let d := if full then { d with snap := { d.snap with last := some x.step, done := satAdd d.snap.done 1 } } else d
      sendReport x.step x.cost (ok.map fun i => 2 ^ i).sum y.1 d
  | _, _ => (m, d)

/-! ## The interval (11 R347, R348) -/

/-- INTERVAL_COMPUTE on rank 0, once every rank's report for the DATA_STEP of its own one is there or a later snapshot has begun: the
largest cost of those reports, C, M, Young's interval, and a SCHEDULE to every rank (11 R347, R348). -/
def intervalBoth (x : IntervalIn) (m : Mem) (d : Dev) : Mem × Dev :=
  match d.plan.run with
  | none => (m, d)
  | some r =>
    let a := r.body.tack.area
    match snapRecord m d a 0 1 with
    | none => (m, d)
    | some own =>
      if r.body.self ≠ 0 then (m, d)
      else
        let d := atTime x.now d
        let step := bits own 491 428
        let cs := (List.range r.body.nRank).filterMap fun k => match snapRecord m d a k 1 with
          | some w => if bits w 507 492 = k && bits w 491 428 = step then some (bits w 427 364) else none
          | none => none
        let cmax := cs.foldl max 0
        if cs.length < r.body.nRank && !(d.snap.drain.any fun x => decide (step < x.step)) then (m, d)
        else
        let c := min ctrMax (if d.snap.costKnown then (3 * d.snap.cost + cmax) / 4 else cmax)
        let mnum := runSeconds d r + d.snap.k0 * d.snap.m0
        let mden := d.snap.fails + d.snap.k0
        let sum := d.snap.lens.sum
        let n := d.snap.lens.length
        let f := draw 32 d
        let open_ := mden = 0 || sum = 0
        let d := if open_ then f.2 else d
        let raw := if open_ then f.1.toNat else (isqrt (8 * c * mnum * 10 ^ 10 * n * n / (mden * sum * sum)) + 1) / 2
        let i := clampNat d.snap.iMin d.snap.iMax raw
        let next := max (step + i) (r.step + 2)
        let d := { d with snap := { d.snap with
          cost := c, costKnown := true, mtbf := if mden = 0 then f.1.toNat else min ctrMax (mnum / mden) } }
        (List.range r.body.nRank).foldl
          (fun y k => areaPut r k (2 * r.body.nRank) (sealRecord 64 (snapWord 2 0 next step 0 0 i 0)) y.1 y.2) (m, d)

/-! ## Inventory and rewind (11 R352, R355, R356) -/

/-- The node of a rank in a layout. -/
def nodeOfRank (b : PlanBody) (k : Nat) : Nat := if k = b.self then b.selfNode else ((b.hops[k]?).map Hop.node).getD 0

/-- The rank of the old layout that a rank of the new one held (11 R355). -/
def oldRank (old new : PlanBody) (k : Nat) : Option Nat :=
  (List.range old.nRank).find? fun o => nodeOfRank old o = nodeOfRank new k

/-- DATA_STEPs of this chip's own two slots: gondola, else host (11 R346). -/
def ownSlots (m : Mem) (d : Dev) (t : TackRec) : List (Option Nat) :=
  (List.range 2).map fun k =>
    if bit t.tgt 0 then slotStepAt m d (t.gonBase + k * t.slotBytes) t.slotBytes
    else (d.snap.hostDone.find? fun h => h.1 = k).map (·.2)

/-- DATA_STEPs of the ward's two slots on this chip (11 R346). -/
def wardSlots (m : Mem) (d : Dev) (t : TackRec) : List (Option Nat) :=
  (List.range 2).map fun k => if t.ward = 0xFFFF then none else slotStepAt m d (t.inBase + k * t.slotBytes) t.slotBytes

/-- A DATA_STEP field: all ones when there is none (11 R346). -/
def stepField (s : Option Nat) : Nat := s.getD ones64

/-- This survivor's INVENTORY goes to every survivor of the new layout (11 R355). -/
def inventorySend (m : Mem) (d : Dev) : Mem × Dev :=
  match d.plan.run with
  | none => (m, d)
  | some r =>
    let t := (r.prev.getD r.body).tack
    let o := ownSlots m d t
    let w := wardSlots m d t
    let f (l : List (Option Nat)) (i : Nat) : Nat := stepField ((l[i]?).getD none)
    let rec64 := sealRecord 64 (snapWord 3 r.body.self (f o 0) (f o 1) (f w 0) (f w 1) t.ward 0)
    (List.range r.body.nRank).foldl (fun y k => areaPut r k (r.body.nRank + r.body.self) rec64 y.1 y.2) (m, d)

/-- The INVENTORY of survivor `k` for this start, when it is present (11 R355). -/
def inventoryOf (m : Mem) (d : Dev) (r : Run) (k : Nat) : Option Nat :=
  if d.snap.got.any fun g => g.1 = r.body.nRank + k && g.2 % 65536 = r.start % 65536 then
    match snapRecord m d r.body.tack.area (r.body.nRank + k) 3 with
    | some w => if bits w 507 492 = k then some w else none
    | none => none
  else none

/-- DATA_STEPs held for rank `o` of the old layout: its own slots when it survives, else those of the survivor whose WARD it was and
recorded host slots (11 R355). -/
def stepsFor (old new : PlanBody) (invs : List (Nat × Nat)) (host : List (Nat × Nat)) (o : Nat) : List Nat :=
  match invs.find? fun v => oldRank old new v.1 = some o with
  | some v => [bits v.2 491 428, bits v.2 427 364]
  | none =>
    (invs.filter fun v => bits v.2 235 220 = o).flatMap (fun v => [bits v.2 363 300, bits v.2 299 236])
      ++ (host.filter fun h => h.1 = o).map (·.2)

/-- s: the largest step index held for every rank of the old layout (11 R355). -/
def commonStep (old new : PlanBody) (invs host : List (Nat × Nat)) : Option Nat :=
  let all := (List.range old.nRank).map (stepsFor old new invs host)
  let cands := ((all.head?).getD []).filter fun s => s ≠ ones64 && all.all fun l => l.contains s
  if cands.isEmpty then none else some (cands.foldl max 0)

/-- The plan stops: DEGRADED with a request to re-plan (07 R241; 11 R355, R357). -/
def replanStop (arg : Nat) (d : Dev) : Dev := planEnd (fault [stopRep clsDegraded arg] d)

/-- Where a snapshot entry of the permutation table starts on this chip: the ward's or the own slot of DATA_STEP `s` (11 R356). -/
def permSource (m : Mem) (d : Dev) (t : TackRec) (s : Nat) (e : PermEnt) : Option Nat :=
  let base := if e.kind = 1 then t.inBase else t.gonBase
  ((List.range 2).find? fun k => slotStepAt m d (base + k * t.slotBytes) t.slotBytes = some s).map
    fun k => base + k * t.slotBytes + e.src

/-- Pieces of [a, a+n) of at most 4 KiB, with their offsets. -/
def pieces4k (n : Nat) : List (Nat × Nat) := (List.range (ceilDiv n 4096)).map fun i => (4096 * i, min 4096 (n - 4096 * i))

/-- Where an address of the old layout's memory is read: in a tacked view, its current copy (10 R329; 11 R336; log entry 29). -/
def oldCurrent (r : Run) (old : PlanBody) (a : Nat) : Nat :=
  match old.tacks.zipIdx.find? fun t => decide (t.1.baseA ≤ a ∧ a < t.1.baseA + t.1.len) with
  | some (e, i) => if (r.prevSel[i]?).getD false then e.baseB + (a - e.baseA) else a
  | none => a

/-- Addresses of the `e.len` bytes that an entry of the permutation table moves from this chip; none: no slot holds DATA_STEP `s` (09
R294; 11 R356). -/
def permPlaces (m : Mem) (d : Dev) (r : Run) (old : PlanBody) (s : Nat) (e : PermEnt) : Option (List Nat) :=
  if e.kind = 0 then some ((List.range e.len).map fun o => oldCurrent r old (e.src + o))
  else (permSource m d old.tack s e).map fun a => (List.range e.len).map (a + ·)

/-- A source of the permuting collective cannot be read: a contained data error; a current tack copy is lost with it (10 R313; 11
R341). -/
def permLoss (old : PlanBody) (a : Nat) (d : Dev) : Dev :=
  let d := cde 3 (ueAt 2 a d)
  if old.tacks.any fun t => inside a 1 t.baseA t.len || inside a 1 t.baseB t.len then
    modRun (fun r => { r with tackLost := some d.evt.fseq }) d
  else d

/-- One entry of the permutation table whose source is on this chip: copied by XFER when its destination is here, else PUT to its
destination in pieces; what holds a bad word is not sent (09 R290, R294; 11 R356). -/
def permMove (r : Run) (old : PlanBody) (s : Nat) (x : Mem × Dev) (e : PermEnt) : Mem × Dev :=
  match permPlaces x.1 x.2 r old s e with
  | none => x
  | some as_ =>
    let bad (d : Dev) (ps : List Nat) : Option Nat := ps.find? (wordBad d.ecc)
    if e.dstRank = r.body.self then
      let d := (bad x.2 as_).elim x.2 fun a => permLoss old a x.2
      devWrite x.1 d e.dst (as_.map fun a => if wordBad d.ecc a then 0 else x.1.get a)
    else
      (x.1, (pieces4k e.len).foldl (fun d p =>
        let ps := (as_.drop p.1).take p.2
        match bad d ps with
        | some a => permLoss old a d
        | none => mastPlain e.dstRank (e.dst + p.1) r.start (ps.map x.1.get) d) x.2)

/-- The permutation table that the running variant executes (07 R238, R241). -/
def permTable (m : Mem) (r : Run) : List PermEnt := (r.ent.map (permAt m r.addr)).getD []

/-- Entries of the table that this chip carries out: those whose source is its own rank of the old layout, but for what the host
writes (09 R294). -/
def permOwn (m : Mem) (r : Run) (old : PlanBody) : List PermEnt :=
  (permTable m r).filter fun e => e.kind ≠ 3 && e.srcRank = old.self

/-- The chip carries out its entries of the kinds `p`, with DATA_STEP `s` (09 R294). -/
def permRun (p : PermEnt → Bool) (s : Nat) (m : Mem) (d : Dev) : Mem × Dev :=
  match d.plan.run with
  | some r =>
    match r.prev with
    | some old => ((permOwn m r old).filter p).foldl (permMove r old s) (m, d)
    | none => (m, d)
  | none => (m, d)

/-- The SIGNALs that this chip owes: one to each destination, with INC the entries for it (09 R294). -/
def permOwe (m : Mem) (d : Dev) : Dev :=
  match d.plan.run with
  | some r =>
    match r.prev with
    | some old =>
      let n (k : Nat) : Nat := ((permOwn m r old).filter fun e => e.dstRank = k).length
      permSignal (modRun (fun r => { r with permSig := ((peers r).filter fun k => decide (0 < n k)).map fun k => (k, n k) }) d)
    | none => d
  | none => d

/-- Entries that other chips' SIGNALs must announce here (09 R294). -/
def permAwait (m : Mem) (r : Run) : Nat :=
  match r.prev with
  | some old => ((permTable m r).filter fun e => e.kind ≠ 3 && e.dstRank = r.body.self && e.srcRank ≠ old.self).length
  | none => 0

/-- INVENTORY_COMPLETE: with every survivor's record present, s is found, the snapshot entries of the permutation table whose source
is here are carried out, and the SIGNALs follow; with no s the plan stops (11 R355, R356; 09 R294). -/
def inventoryDoneBoth (host : List (Nat × Nat)) (m : Mem) (d : Dev) : Mem × Dev :=
  match d.plan.run with
  | none => (m, d)
  | some r =>
    match r.prev with
    | none => (m, d)
    | some old =>
      let invs := (List.range r.body.nRank).filterMap fun k => (inventoryOf m d r k).map fun w => (k, w)
      if r.phase ≠ .permuting || r.rewind.isSome || r.lost.isNone || decide (invs.length < r.body.nRank) then (m, d)
      else
        match commonStep old r.body invs host with
        | none => (m, replanStop ((r.lost).getD 0) d)
        | some s =>
          let x := permRun (fun e => e.kind ≠ 0) s m (modRun (fun r => { r with rewind := some s }) d)
          (x.1, permOwe x.1 x.2)

/-- INVENTORY_TIMEOUT: a record is missing, and the plan stops (11 R355; 07 R241). -/
def inventoryLateDev (d : Dev) : Dev :=
  match d.plan.run with
  | some r => if r.phase = .permuting && r.rewind.isNone && r.lost.isSome then replanStop ((r.lost).getD 0) d else d
  | none => d

/-- SR_STEP of one narrow-format tack entry: an index at or above `s` becomes s - 1, counted, with a NOTE (11 R352). -/
def srFix (s : Nat) (x : Mem × Dev) (t : TackEnt) : Mem × Dev :=
  (Config.srStepOffsets (x.1.read t.baseA t.len)).foldl (fun x o =>
    if s ≤ x.1.readLE (t.baseA + o) 8 ∧ o + 8 ≤ t.len then
      let w := devWrite x.1 x.2 (t.baseA + o) (leBytes 8 (s - 1))
      (w.1, note 0x07 0x0B30 0xFFFF t.shard { w.2 with snap := { w.2.snap with genFix := satAdd w.2.snap.genFix 1 } })
    else x) x

/-- A restored descriptor whose SRC_STEP is at or above `s` is corrupt: its block takes the identity root, with a NOTE (11 R352). -/
def descFix (s : Nat) (x : Mem × Dev) (u : RootSet) : Mem × Dev :=
  (List.range (rootBlocks u.record)).foldl (fun x k =>
    let a := descAddr u.record k
    let w := x.1.readLE a 64
    if descPub w ≠ 3 ∧ s ≤ bits w 319 256 then
      let y := devWrite x.1 x.2 a (leBytes 64 (descWord w 3 0 0 0 0))
      (y.1, note 0x07 0xFFFF 0xFFFF u.record.id y.2)
    else x) x

/-- Buffer states of a set after a restore or rewind: the buffer that PUB names is CURRENT, every other FREE (11 R351). -/
def bufsFrom (m : Mem) (u : RootSet) : RootSet :=
  { u with ready := [], refresh := none, addrs := bufAddrs m u.record, bufs := (List.range (rootBlocks u.record)).map fun k =>
      (List.range 3).map fun b => if descPub (m.readLE (descAddr u.record k) 64) = b then .current else .free }

/-- R352 over every narrow-format entry and root set, for DATA_STEP `s`. -/
def drawsFix (s : Nat) (m : Mem) (d : Dev) : Mem × Dev :=
  let x := (((d.plan.run.map fun r => r.body.tacks).getD []).filter fun t => t.kind = 4).foldl (srFix s) (m, d)
  d.curv.sets.foldl (descFix s) x

/-- Row 5 of R351: both status copies of every lagged shard equal, TACK 0, SWEEP idle; sweeps start over (11 R351, R356). -/
def statusReset (m : Mem) (d : Dev) : Mem × Dev :=
  (ledgersOf d).foldl (fun x l => statBoth l { statNow x.1 l with tackB := false, sweep := 0, pieces := 0 } x.1 x.2)
    (m, { d with tack := { d.tack with sweeps := [], bad := [], swept := [] } })

/-- Every selector is 0 and its copy A current (11 R351, R356). -/
def selectorsZero (d : Dev) : Dev :=
  let n := ((d.plan.run.map fun r => r.body.tacks).getD []).length
  { d with tack := { d.tack with sel := List.replicate n false, copies := List.replicate n (.current, .off), waits := [] } }

/-- PERMUTATION_COMPLETE: the rewind of a chip loss, or the end of the collective of another event. It waits for the entries that the
host writes, for this chip's own SIGNALs, and until REC_TALLY counts every entry that other chips send here (09 R294; 11 R356; log
entry 29). -/
def permDoneBoth (m : Mem) (d : Dev) : Mem × Dev :=
  match d.plan.run with
  | none => (m, d)
  | some r =>
    let hosts := ((permTable m r).filter fun e => e.kind = 3 && e.dstRank = r.body.self).length
    if r.phase ≠ .permuting || decide (d.plan.permHost < hosts) || (r.lost.isSome && r.rewind.isNone) || !r.permSig.isEmpty
      || decide ((d.tth.cur.get r.body.verdict.recT).toNat < permAwait m r) then (m, d)
    else
      let d := modRun (fun r => { r with phase := .running, rewind := none, prev := none, prevSel := [], ent := none, lost := none }) d
      match r.rewind with
      | none => (m, d)
      | some s =>
        let x := drawsFix s m (selectorsZero d)
        let y := statusReset x.1 x.2
        let d := { y.2 with curv := { y.2.curv with sets := y.2.curv.sets.map (bufsFrom y.1) } }
        let d := modRun (fun r => { r with step := s, attempt := 0 }) d
        (y.1, sweepsStart y.1 { d with snap := { d.snap with
          fails := d.snap.fails + 1, lens := [], restore := satAdd d.snap.restore 1 } })

/-! ## SNAP_CTRL (11 R349; 14 R423) -/

/-- The SNAP_CTRL descriptors of operation `n`. -/
def snapOp (n : Nat) (x : BitVec 512) : Bool := dArg0 x % 16 = n

/-- SNAP_SET_BOUNDS: I_MIN from 1, I_MAX not below it (11 R334, R349). -/
def snapBoundsDev (c : CmdRef) : Dev → Dev :=
  runCmdIf (snapOp 0) c 0x300 fun desc d =>
    let lo := bits (dArg1 desc) 15 0
    let hi := bits (dArg1 desc) 31 16
    if lo = 0 ∨ hi < lo then (d, refused)
    else ({ d with snap := { d.snap with iMin := lo, iMax := hi, k0 := bits (dArg1 desc) 39 32, m0 := bits (dArg2 desc) 31 0 } }, {})

/-- SNAP_FORCE_POINT: at least two above the current step index (11 R349). -/
def snapForceDev (c : CmdRef) : Dev → Dev :=
  runCmdIf (snapOp 1) c 0x300 fun desc d =>
    match d.plan.run with
    | some r =>
      if dArg1 desc < r.step + 2 then (d, refused)
      else ({ d with snap := { d.snap with forced := if d.snap.forced.contains (dArg1 desc) then d.snap.forced else d.snap.forced ++ [dArg1 desc] } }, {})
    | none => (d, refused)

/-- SNAP_DISABLE: no new snapshot points; a latched enable is withdrawn (11 R349). -/
def snapDisableDev (c : CmdRef) : Dev → Dev :=
  runCmdIf (snapOp 2) c 0x300 fun _ d => ({ d with snap := { d.snap with disabled := true, restPend := false } }, {})

/-- SNAP_ENABLE: at once, or latched behind a disabled snapshot that is copying (11 R349). -/
def snapEnableDev (c : CmdRef) : Dev → Dev :=
  runCmdIf (snapOp 3) c 0x300 fun _ d =>
    if d.snap.disabled && d.snap.drain.isSome then ({ d with snap := { d.snap with restPend := true } }, {})
    else ({ d with snap := { d.snap with disabled := false } }, {})

/-- SNAP_HOST_WINDOW (14 R423). -/
def snapWindowDev (c : CmdRef) : Dev → Dev :=
  runCmdIf (snapOp 4) c 0x300 fun desc d =>
    ({ d with snap := { d.snap with host := some (dArg1 desc, dArg2 desc, dArg3 desc % 65536) } }, {})

/-- PERM_HOST_DONE: entries that the host has written for the running variant's collective (09 R294; 14 R421). -/
def permHostDev (c : CmdRef) : Dev → Dev :=
  runCmd c 0x205 fun desc d =>
    match d.plan.run with
    | some r =>
      if r.phase = .permuting && dArg0 desc % 65536 = r.body.variant then
        ({ d with plan := { d.plan with permHost := d.plan.permHost + dArg1 desc % 2 ^ 32 } }, {})
      else (d, refused)
    | none => (d, refused)

/-! ## Commands -/

/-- PERM_HOST_DONE (09 R294). -/
def execPermHostDone (c : CmdRef) (s : State) : Out := onDev (permHostDev c) s
/-- SNAP_SET_BOUNDS (11 R349). -/
def execSnapSetBounds (c : CmdRef) (s : State) : Out := onDev (snapBoundsDev c) s
/-- SNAP_FORCE_POINT (11 R349). -/
def execSnapForcePoint (c : CmdRef) (s : State) : Out := onDev (snapForceDev c) s
/-- SNAP_DISABLE (11 R349). -/
def execSnapDisable (c : CmdRef) (s : State) : Out := onDev (snapDisableDev c) s
/-- SNAP_ENABLE (11 R349). -/
def execSnapEnable (c : CmdRef) (s : State) : Out := onDev (snapEnableDev c) s
/-- SNAP_HOST_WINDOW (14 R423). -/
def execSnapHostWindow (c : CmdRef) (s : State) : Out := onDev (snapWindowDev c) s
/-- SNAPSHOT_COMPLETE (11 R345). -/
def execSnapshotComplete (c : SnapCost) (s : State) : Out := onBoth (snapDoneBoth c) s
/-- INTERVAL_COMPUTE (11 R348). -/
def execIntervalCompute (x : IntervalIn) (s : State) : Out := onBoth (intervalBoth x) s
/-- INVENTORY_COMPLETE (11 R355). -/
def execInventoryComplete (hostSlots : List (Nat × Nat)) (s : State) : Out := onBoth (inventoryDoneBoth hostSlots) s
/-- INVENTORY_TIMEOUT (11 R355). -/
def execInventoryTimeout (s : State) : Out := onDev inventoryLateDev s
/-- PERMUTATION_COMPLETE (11 R356). -/
def execPermutationComplete (s : State) : Out := onBoth permDoneBoth s

end Sys2Proof.Machine
end

