-- ==== Sys2Proof/Machine/Verdict.lean ====
section
/-! DEFINITION. The step verdict: limits, votes, seals, the final verdict with its flip or skip, and reconcile (10 R308 to R328, R476; 07
R232, R241; 11 R338, R341). PUT_RECEIVE stands here, as a reconcile record may arrive by it. -/

namespace Sys2Proof.Machine

/-! ## The verdict area (10 R315) -/

/-- Vote slot `k`. -/
def voteAddr (r : Run) (k : Nat) : Nat := r.body.verdict.area + 64 + 128 * k
/-- Seal slot `k`. -/
def sealAddr (r : Run) (k : Nat) : Nat := r.body.verdict.area + 64 + 128 * r.body.nRank + 64 * k
/-- Reconcile slot `k`. -/
def recAddr (r : Run) (k : Nat) : Nat := r.body.verdict.area + 64 + 192 * r.body.nRank + 64 * k

/-- A PUT of this START has written record `kind` of rank `k` (10 R316, R317). -/
def gotRec (d : Dev) (kind k start : Nat) : Bool :=
  d.vrd.got.any fun g => g.1 = kind && g.2.1 = k && g.2.2 % 65536 = start % 65536

/-- A record slot in which a PUT has left something is bad when its CRC fails or `ok` refuses it (10 R317). -/
def recIf (m : Mem) (d : Dev) (kind k start a n : Nat) (ok : Nat → Bool) : Option Nat :=
  if gotRec d kind k start then (recordAtAddr m d a n).filter ok else none

/-- Rank `k`'s vote of the attempt that started with count `start` (10 R316). -/
def voteOf (m : Mem) (d : Dev) (r : Run) (k : Nat) : Option Nat := recIf m d 0 k r.start (voteAddr r k) 128 fun _ => true

/-- Rank `k`'s seal (10 R317). -/
def sealOf (m : Mem) (d : Dev) (r : Run) (k : Nat) : Option Nat :=
  recIf m d 1 k r.start (sealAddr r k) 64 fun w => bits w 431 429 = 1 || bits w 431 429 = 2

/-- Rank `k`'s reconcile record for the attempt with count `c`: it travelled with START c + 1 (10 R317, R323, R476). -/
def reconOf (m : Mem) (d : Dev) (r : Run) (k c : Nat) : Option Nat :=
  recIf m d 2 k (c + 1) (recAddr r k) 64 fun w => decide (3 ≤ bits w 431 429 ∧ bits w 431 429 ≤ 6)

/-- Discarded records are counted (10 R317, R333). -/
def countBad (n : Nat) (d : Dev) : Dev := { d with vrd := { d.vrd with badRec := satAdd d.vrd.badRec n } }

/-! ## The verdict point (10 R308, R310, R312) -/

/-- The verdict-point mark of a plan or variant (10 R308). -/
def verdictMark (r : Run) : Option Slot := r.body.slots.find? fun s => s.kind = 7 && s.arg = 2

/-- What one limit entry finds: NONFIN, ABSURD (10 R312). -/
def limitFinds (m : Mem) (d : Dev) (l : Limit) : Bool × Bool :=
  let v := fp32.decode (leNat (readEngine m d.ecc l.amaxAddr 4))
  let f := leNat (readEngine m d.ecc l.flagAddr 4)
  let nonfin := f &&& l.fmask ≠ 0 || (match v with
    | .fin _ _ _ => false
    | _ => true)
  (nonfin, !nonfin && (fp32.decode l.lim.toNat).lt v)

/-- A limit word cannot be read (10 R313). -/
def limitBad (d : Dev) (l : Limit) : Bool := (firstBad d.ecc l.amaxAddr 4).isSome || (firstBad d.ecc l.flagAddr 4).isSome

/-- Limit words that cannot be read are contained data errors (10 R313; 13 R387). -/
def limitErrors (r : Run) (d : Dev) : Dev :=
  (r.body.limits.filter (limitBad d)).foldl (fun d l => cde 3 (ueAt 2 ((firstBad d.ecc l.amaxAddr 4).getD l.flagAddr) d)) d

/-- A vote as a number without its VCRC (10 R316). -/
def voteWord (d : Dev) (r : Run) (first cause : Nat) (nonfin absurd cdeSet : Bool) : Nat :=
  r.step % 2 ^ 64 * 2 ^ 960 + r.hdr.planId * 2 ^ 896 + d.vrd.dcrc.toNat * 2 ^ 832 + r.body.self * 2 ^ 816
    + r.body.verdict.dgroup * 2 ^ 800 + first * 2 ^ 784 + cause * 2 ^ 780 + ofBool nonfin * 2 ^ 779 + ofBool absurd * 2 ^ 778
    + ofBool cdeSet * 2 ^ 777
    + (match d.vrd.sha with
       | some (q, h) => 2 ^ 776 + q % 2 ^ 64 * 2 ^ 640 + h.toNat * 2 ^ 128
       | none => 0)

/-- The verdict point is reached at watch time `now`: limits are evaluated and the digest closed; the vote lacks its contained data
errors as yet (10 R310, R312). -/
def verdictBegin (now : Nat) (m : Mem) (d : Dev) : Dev :=
  match d.plan.run with
  | none => d
  | some r =>
    let finds := r.body.limits.map fun l => (l.tensor, limitFinds m d l)
    let nonfin := finds.any fun f => f.2.1
    let absurd := finds.any fun f => f.2.2
    let first := ((finds.find? fun f => f.2.1 || f.2.2).map Prod.fst).getD 0xFFFF
    let cause := if nonfin then 1 else if absurd then 2 else 0
    let w := voteWord d r first cause nonfin absurd false
    limitErrors r (modRun (fun r => { r with phase := .atVerdict })
      { d with vrd := { d.vrd with vpTime := now, vote := some (leBytes 128 w) } })

/-- The attempt is lost already: a watchdog or a contingency event ends it (07 R234, R241; 10 R313). -/
def cutShort (r : Run) : Bool := r.cde.contains 5 || r.cde.contains 0xC

/-- VERDICT_POINT: the mark issues and completes; an attempt that a contingency event ends goes to its verdict at once (07 R241; 08
R267; 10 R310). -/
def verdictPointDev (now : Nat) (m : Mem) (d : Dev) : Dev :=
  match d.plan.run with
  | none => d
  | some r =>
    if r.phase ≠ .running && !(r.phase = .permuting && cutShort r) then d
    else
      let d := atTime now d
      if cutShort r then verdictBegin d.dbg.now m d
      else
        match verdictMark r with
        | some s => if slotReady d r s && !otherFirst d r s then sweepRepeat (verdictBegin d.dbg.now m (complete r.start s.seq (issue s.seq d))) else d
        | none => d

/-- STEP_WATCHDOG: STEP_TO after the step start the chip stops waiting, and the attempt has a contained data error (07 R234; 08
R267). -/
def watchdogDev (m : Mem) (d : Dev) : Dev :=
  match d.plan.run with
  | none => d
  | some r =>
    let d := atTime (r.startTime + r.hdr.stepTo) d
    if r.cde.contains 5 then d
    else if r.phase = .running ∨ r.phase = .permuting then verdictBegin d.dbg.now m (cdeNew 5 d)
    else if r.phase = .atVerdict then cdeNew 5 d
    else d

/-! ## Phase 1: votes (10 R310, R313, R314, R316, R318) -/

/-- Every slot that precedes the verdict point has completed, and no sweep due at this step is incomplete (10 R310). -/
def voteReady (d : Dev) (r : Run) : Bool :=
  cutShort r ||
    (match verdictMark r with
     | some k => (r.body.slots.all fun s => s.carry || !decide (s.seq < k.seq) || r.done.contains s.seq) && !sweepDue d r.step
     | none => false)

/-- Records go to every other rank's verdict area, with SIG on a tally (10 R316, R317, R475). -/
def sendRecords (ranks : List Nat) (addr tally start : Nat) (bs : List Byte) (d : Dev) : Dev :=
  ranks.foldl (fun d k => mastPut k addr tally start bs d) d

/-- VOTE_CAST: a ready chip sends its vote; its cause is the lowest code it has (10 R310, R314, R318). -/
def voteCastDev (now : Nat) (d : Dev) : Dev :=
  match d.plan.run with
  | none => d
  | some r =>
    if r.phase ≠ .atVerdict || !voteReady d r then d
    else
      let d := atTime now d
      let w := leNat ((d.vrd.vote).getD [])
      let own := bits w 783 780
      let cause := r.cde.foldl (fun c x => if c = 0 ∨ x < c then x else c) own
      let w := w - own * 2 ^ 780 + cause * 2 ^ 780 + ofBool (!r.cde.isEmpty) * 2 ^ 777
      let bs := sealRecord 128 w
      sendRecords (peers r) (voteAddr r r.body.self) r.body.verdict.voteT r.start bs
        (modRun (fun r => { r with phase := .voted }) (sweepsVote { d with vrd := { d.vrd with vote := some bs } }))

/-- The causes that one vote, read by the chip whose own vote is `own`, gives (10 R314, R318). -/
def voteCauses (own w k : Nat) : List (Nat × Nat) :=
  let c := bits w 783 780
  let flagged := bit w 779 || bit w 778 || bit w 777
  (if bits w 959 896 ≠ bits own 959 896 then [(7, k)] else [])
  ++ (if bits w 1023 960 ≠ bits own 1023 960 then [(8, k)] else [])
  ++ (if 0xD ≤ c then [(3, k)]
      else if !flagged then []
      else if c ≠ 0 then [(c, k)]
      else if bit w 779 then [(1, k)] else if bit w 778 then [(2, k)] else [(3, k)])

/-- Two votes of one replica group disagree: DCRC, or SHA where both carry it for the same snapshot (10 R318, R325, R326). -/
def digestsDiffer (x y : Nat) : Bool :=
  bits x 815 800 = bits y 815 800 && bits x 815 800 ≠ 0xFFFF &&
    (bits x 895 832 ≠ bits y 895 832
      || (bit x 776 && bit y 776 && bits x 703 640 = bits y 703 640 && bits x 639 128 ≠ bits y 639 128))

/-- The lowest cause and the lowest rank that carries it. -/
def lowestCause (cs : List (Nat × Nat)) : Option (Nat × Nat) :=
  cs.foldl (fun b c => match b with
    | none => some c
    | some x => if c.1 < x.1 ∨ (c.1 = x.1 ∧ c.2 < x.2) then some c else some x) none

/-- Every vote present, by rank, this chip's own among them. -/
def votesHeld (m : Mem) (d : Dev) (r : Run) : List (Nat × Nat) :=
  (List.range r.body.nRank).filterMap fun k =>
    if k = r.body.self then (d.vrd.vote).map fun bs => (k, leNat bs) else (voteOf m d r k).map fun w => (k, w)

/-- The chip forms D from the votes it holds and sends its seal (10 R318). -/
def decide318 (m : Mem) (d : Dev) (r : Run) : Dev :=
  let vs := votesHeld m d r
  let own := leNat ((d.vrd.vote).getD [])
  let missing := (List.range r.body.nRank).filter fun k => !vs.any fun v => v.1 = k
  let bad := (missing.filter fun k => gotRec d 0 k r.start).length
  let cs := missing.map (fun k => (9, k)) ++ vs.flatMap (fun v => voteCauses own v.2 v.1)
    ++ vs.flatMap fun x => if vs.any fun y => digestsDiffer x.2 y.2 then [(0xA, x.1)] else []
  let low := lowestCause cs
  let (c, k) := low.getD (0, 0xFFFF)
  let d := countBad bad { d with vrd := { d.vrd with
    missing := satAdd d.vrd.missing missing.length, d := some (low.isNone, c, k), sentTime := d.dbg.now } }
  sendRecords (peers r) (sealAddr r r.body.self) r.body.verdict.sealT r.start
    (sealRecord 64 (r.step % 2 ^ 64 * 2 ^ 448 + r.body.self * 2 ^ 432 + (if low.isNone then 1 else 2) * 2 ^ 429 + c * 2 ^ 425
      + k * 2 ^ 409 + 0xFFFF * 2 ^ 393))
    (modRun (fun r => { r with phase := .sealed }) d)

/-- VOTES_GATHERED: VOTE_TALLY has reached N_RANK - 1 (10 R318). -/
def votesGatheredDev (now : Nat) (m : Mem) (d : Dev) : Dev :=
  match d.plan.run with
  | some r =>
    if r.phase = .voted ∧ r.body.nRank ≤ (d.tth.cur.get r.body.verdict.voteT).toNat + 1 then decide318 m (atTime now d) r else d
  | none => d

/-- VOTE_DEADLINE: STEP_TO + VOTE_GRACE have passed since the step start (10 R318). -/
def voteDeadlineDev (now : Nat) (m : Mem) (d : Dev) : Dev :=
  match d.plan.run with
  | some r =>
    if r.phase = .voted ∧ r.startTime + r.hdr.stepTo + r.body.verdict.grace ≤ max now d.dbg.now then decide318 m (atTime now d) r else d
  | none => d

/-! ## Flip and discard (07 R234, R241; 11 R338, R341) -/

/-- The in-flight slots of a step that does not commit are discarded: weight sets, claims, held entries and vector blocks (07 R241; 10
R309). -/
def discardSlots (d : Dev) : Dev :=
  modRun (fun r => { carryOn d r with issued := [], done := [], waited := [], phase := .between })
    { d with
      arrays := d.arrays.map fun a => { a with passes := [] }
      groups := d.groups.map fun g => { g with
        queue := [], waiting := [], ctxs := g.ctxs.map fun c => { c with blocks := [], pos := 0, pops := 0, pivs := 0 } } }

/-- An off-tack copy that a step wrote in vain is OFF again (11 R339). -/
def unwrite (c : CopyState) : CopyState := if c = .written then .off else c

/-- The off-tack writes of a step are discarded; a lagged shard keeps the pieces its sweep has written (08 R268; 10 R318; 11 R341). -/
def skipWrites (d : Dev) : Dev :=
  let ts := (d.plan.run.map fun r => r.body.tacks).getD []
  let d := { d with tack := { d.tack with
    copies := (ts.zip d.tack.copies).map fun x => if x.1.cls = 1 then x.2 else (unwrite x.2.1, unwrite x.2.2), waits := [] } }
  discardSlots (narrowDrop (ledgersSkip (solversSkip (rootsSkip d))))

/-- The variant that waits becomes pending with its epoch (10 R328). -/
def markPending (m : Mem) (d : Dev) : Dev :=
  match d.plan.run with
  | some r =>
    match r.pendVar with
    | some v => { d with vrd := { d.vrd with pending := (bodyAt m r.addr v).lepoch } }
    | none => d
  | none => d

/-- The skip of an attempt: writes discarded, one more attempt of the same step index; the loss of a current tack copy stops the plan (10
R318, R328; 11 R341). -/
def stepSkip (m : Mem) (d : Dev) : Dev :=
  let d' := markPending m (modRun (fun r => { r with attempt := r.attempt + 1, tackLost := none }) (skipWrites d))
  match d.plan.run.bind Run.tackLost with
  | some n => tackStop n d'
  | none => d'

/-- The tack flip of a commit: selectors, ledgers, roots, solvers, step index, and the snapshot point (05 R185; 06 R216; 08 R262, R266;
11 R338, R342). -/
def stepFlip (m : Mem) (d : Dev) : Mem × Dev :=
  match d.plan.run with
  | none => (m, d)
  | some r =>
    let x := ledgersFlip r.step m (flipEntries (fun t => t.cls = 0) d)
    let d := narrowFlip (solversFlip (rootsFlip x.1 r.step x.2))
    let d := modRun (fun r => { r with step := r.step + 1, attempt := 0, fresh := false, phase := .committed }) d
    (x.1, snapFlip (r.step + 1) x.1 d)

/-! ## The final verdict (10 R318, R320, R322, R327; 07 R232) -/

/-- The outcome block (10 R320). -/
def outcomeBytes (step attempt : Nat) (commit : Bool) (cause rank first : Nat) : List Byte :=
  leBytes 64 (step % 2 ^ 64 * 2 ^ 448 + attempt % 2 ^ 32 * 2 ^ 416 + (if commit then 1 else 2) * 2 ^ 414 + cause * 2 ^ 410
    + rank * 2 ^ 394 + first * 2 ^ 378)

/-- Attempts in a row that end the job: twice cause STEP, twice votes rejected with WINDOW, or a second DIGEST skip of one step (07 R232;
10 R322, R327). Answers whether the plan stops. -/
def streaks (r : Run) (commit : Bool) (cause : Nat) (d : Dev) : Bool × Dev :=
  let v := d.vrd
  let st := if !commit && cause = 8 then v.stepRuns + 1 else 0
  let wn := if !commit && v.winNow then v.winRuns + 1 else 0
  let dg := !commit && cause = 0xA
  let again := dg && v.digestStep = some r.step
  (decide (2 ≤ st) || decide (2 ≤ wn) || again,
    { d with vrd := { v with stepRuns := st, winRuns := wn, winNow := false, digestStep := if dg then some r.step else none
                             digest := if dg then satAdd v.digest 1 else v.digest } })

/-- The registers of a final verdict (10 R333). -/
def verdictRegs (r : Run) (commit : Bool) (cause rank : Nat) (d : Dev) : Dev :=
  let v := d.vrd
  { d with vrd := { v with
      lastDec := if commit then 1 else 2, lastCause := cause, lastRank := rank, time := min ctrMax (d.dbg.now - v.vpTime)
      commits := if commit then satAdd v.commits 1 else v.commits, skips := if commit then v.skips else satAdd v.skips 1
      final := some (r.start, commit) } }

/-- The CONTAINED report of a skip (10 R318). -/
def skipRep (cause : Nat) (stopped : Bool) : Rep := ⟨clsContained, 0x07, 0x0A10, 0xFFFF, cause, stopped⟩

/-- The CONTAINED report of the step that a loss makes the job retry (10 R324). -/
def lossStepRep (skipped : Bool) : Rep := ⟨clsContained, 0x07, if skipped then 0x0A10 else 0xFFFF, 0xFFFF, 0xB, false⟩

/-- The DEGRADED report of a lost rank (10 R324). -/
def lossRep (rank : Nat) : Rep := ⟨clsDegraded, 0x07, 0xFFFF, 0xFFFF, rank, false⟩

/-- The fault that a skip for `cause` is a consequence of, when its cause lies in this chip's own attempt (10 R313; 00 R24). -/
def skipFault (r : Run) (cause rank : Nat) : Option Nat :=
  if rank = r.body.self then ((r.cde.zip r.cdeSeq).find? fun c => c.1 = cause).map Prod.snd else none

/-- The skip is reported, under the number of the fault that caused it here, or as a fault of its own (10 R318; 00 R24). -/
def skipReport (n : Option Nat) (rep : Rep) (d : Dev) : Dev :=
  match n with
  | some n => ariseOf n d rep
  | none => fault [rep] d

/-- The step is final: outcome block, registers and reports, then the flip or the skip (10 R318, R320; 11 R338). `loss`: the rank that
a reconcile holds lost, and the fault that this is. -/
def finalise (commit : Bool) (cause rank first : Nat) (loss : Option (Nat × Nat)) (m : Mem) (d : Dev) : Mem × Dev :=
  match d.plan.run with
  | none => (m, d)
  | some r =>
    let w := devWrite m d r.body.verdict.area (outcomeBytes r.step (if commit then 0 else r.attempt + 1) commit cause rank first)
    let x := streaks r commit cause (verdictRegs r commit cause rank w.2)
    let d := stepLength (x.2.dbg.now - r.startTime) commit x.2
    let d := match loss with
      | some (k, n) => ariseOf n (ariseOf n d (lossRep k)) (lossStepRep !commit)
      | none => if commit then d else skipReport (skipFault r cause rank) (skipRep cause x.1) d
    let y := if commit then stepFlip w.1 d else (w.1, stepSkip w.1 d)
    let z := payReport y.1 y.2
    (z.1, if x.1 && loss.isNone then planEnd z.2 else z.2)

/-- The cause that a seal carries; a reserved code reads as MEMORY (10 R314, R317). -/
def sealCause (w : Nat) : Nat := if 0xD ≤ bits w 428 425 then 3 else bits w 428 425

/-- SEALS_GATHERED: with every seal present the step is final (10 R318, R320). -/
def sealsGatheredBoth (now : Nat) (m : Mem) (d : Dev) : Mem × Dev :=
  match d.plan.run, d.vrd.d with
  | some r, some (own, c0, k0) =>
    let seals := (peers r).map fun k => (k, sealOf m d r k)
    if r.phase ≠ .sealed || decide ((d.tth.cur.get r.body.verdict.sealT).toNat + 1 < r.body.nRank) || seals.any (fun s => s.2.isNone) then
      (m, d)
    else
      let d := atTime now d
      let all := seals.map fun s => (s.1, s.2.getD 0)
      let commit := own && all.all fun s => bits s.2 431 429 = 1
      let cs := (r.body.self, c0, k0) :: all.map fun s => (s.1, sealCause s.2, bits s.2 424 409)
      let cause := cs.foldl (fun c s => min c s.2.1) 15
      let low := (cs.filter fun s => s.2.1 = cause).foldl (fun b s => if s.1 < b.1 then s else b) (0xFFFF, cause, 0xFFFF)
      let rank := low.2.2
      let first := (((votesHeld m d r).find? fun v => v.1 = rank).map fun v => bits v.2 799 784).getD 0xFFFF
      finalise commit cause rank first none m d
  | _, _ => (m, d)

/-! ## Reconcile (10 R323, R324, R476) -/

/-- The attempt with count `c` is the current one; else it is the previous. -/
def isCurrent (r : Run) (c : Nat) : Bool := c % 65536 = r.start % 65536

/-- This chip enters reconcile for the attempt with count `c`, lacking the seals of `lack`; `fin`: how it found the step final (10
R323, R328). A later step is abandoned. -/
def reconcileEnter (c : Nat) (fin : Option Bool) (lack : List Nat) (m : Mem) (d : Dev) : Dev :=
  match d.plan.run with
  | none => d
  | some r =>
    let told := (peers r).filterMap fun k => (reconOf m d r k c).map fun w => bits w 408 393
    let sus := (lack ++ told).filter fun k => k ≠ r.body.self && decide (k < r.body.nRank)
    match sus with
    | [] => d
    | k :: ks =>
      let s := ks.foldl min k
      let moved := !isCurrent r c
      let (cause, rank) := match fin, d.vrd.d with
        | some _, _ => (d.vrd.lastCause, d.vrd.lastRank)
        | none, some x => x.2
        | none, none => (0, 0xFFFF)
      let state := match fin with
        | some true => 3
        | some false => 4
        | none => if (d.vrd.d.map Prod.fst).getD false then 5 else 6
      let step := if fin = some true then r.step - 1 else r.step
      let d := if moved then skipWrites d else d
      let d := modRun (fun r => { r with pendVar := contVariant r 0 s, ent := contFor r 0 s, lost := some s, phase := .reconcile }) d
      let d := markPending m { d with vrd := { d.vrd with
        recon := satAdd d.vrd.recon 1, suspect := some s, recAttempt := some (c, fin), sentTime := d.dbg.now } }
      sendRecords ((peers r).filter (· ≠ s)) (recAddr r r.body.self) r.body.verdict.recT (c + 1)
        (sealRecord 64 (step % 2 ^ 64 * 2 ^ 448 + r.body.self * 2 ^ 432 + state * 2 ^ 429 + cause * 2 ^ 425 + rank * 2 ^ 409 + s * 2 ^ 393)) d

/-- SEAL_TIMEOUT: a chip that lacks a seal at SEAL_TO enters reconcile (10 R319, R323). -/
def sealTimeoutDev (now : Nat) (m : Mem) (d : Dev) : Dev :=
  match d.plan.run with
  | none => d
  | some r =>
    let lack := (peers r).filter fun k => (sealOf m d r k).isNone
    if r.phase ≠ .sealed || decide (max now d.dbg.now < d.vrd.sentTime + r.body.verdict.sealTo) || lack.isEmpty then d
    else
      let bad := (lack.filter fun k => gotRec d 1 k r.start).length
      reconcileEnter r.start none lack m (countBad bad (atTime now d))

/-- A reconcile record of rank `k` with START `start` has arrived: one that names this chip ends its plan; else the chip enters
reconcile for the attempt it concerns, when that is its current or previous one, with the ranks whose seal it lacks among the suspects
(10 R317, R323, R324). -/
def reconArrived (k start : Nat) (m : Mem) (d : Dev) : Dev :=
  match d.plan.run with
  | none => d
  | some r =>
    let c := (start + 65535) % 65536
    match reconOf m d r k c with
    | none => countBad 1 d
    | some w =>
      if bits w 408 393 = r.body.self then planEnd d
      else if r.phase = .reconcile then d
      else if isCurrent r c then
        match if !stepRuns d then (d.vrd.final.filter fun f => f.1 = r.start).map Prod.snd else none with
        | some f => reconcileEnter r.start (some f) [] m d
        | none => reconcileEnter r.start none ((peers r).filter fun k => (sealOf m d r k).isNone) m d
      else
        match d.vrd.final with
        | some (c', f) => if c' % 65536 = c && c' + 1 = r.start then reconcileEnter c' (some f) [] m d else d
        | none => d

/-- A PUT that reaches this chip is applied (09 R285, R286, R288; 11 R339). -/
def putApplies (port : Nat) (h : WireHdr) (m : Mem) (d : Dev) : Bool :=
  ((d.tth.ports[port]?).map portUp).getD false && !isSafe d && h.dstNode = d.tth.self && h.opc = 0 && hcrcOk h
    && reqCheck m d h = 0 && !heldWrite d h.remote (hdrLen h)

/-- PUT_RECEIVE: the request is applied; a reconcile record takes effect (09 R286; 10 R323). -/
def putReceiveBoth (port : Nat) (h : WireHdr) (data : List Byte) (m : Mem) (d : Dev) : Mem × Dev :=
  let x := putBoth port h data m d
  match d.plan.run with
  | some r =>
    match (peers r).find? fun k => overlaps h.remote (hdrLen h) (recAddr r k) 64 with
    | some k => if putApplies port h m d then (x.1, reconArrived k h.start x.1 x.2) else x
    | none => x
  | none => x

/-- The reconcile has ended: a chip that had started a later step drops that start, and its windows move back (07 R232; 10 R476). -/
def reconcileBack (c : Nat) (moved committed : Bool) (d : Dev) : Dev :=
  let d := if moved then
      { d with tth := { d.tth with cur := [], curP := [], nxt := d.tth.cur, nxtP := d.tth.curP } }
    else d
  modRun (fun r => { r with start := if moved then c else r.start, phase := if committed && !moved then .committed else .between })
    { d with vrd := { d.vrd with suspect := none, recAttempt := none } }

/-- RECONCILE_GATHERED: every survivor's record is present and names the same suspect: the step commits when any record or this chip
says FINAL_COMMIT, and is skipped otherwise; with other suspects, or with no variant, the plan stops for re-planning (10 R324; 07
R241). -/
def reconGatheredBoth (now : Nat) (m : Mem) (d : Dev) : Mem × Dev :=
  match d.plan.run, d.vrd.suspect, d.vrd.recAttempt with
  | some r, some s, some (c, fin) =>
    let recs := ((peers r).filter (· ≠ s)).map fun k => reconOf m d r k c
    if r.phase ≠ .reconcile || recs.any Option.isNone then (m, d)
    else
      let d := newFault (atTime now d)
      let n := d.evt.fseq
      let ws := recs.map fun w => w.getD 0
      if ws.any fun w => bits w 408 393 ≠ s then (m, planEnd (also [stopRep clsDegraded s] d))
      else
        let commit := fin = some true || ws.any fun w => bits w 431 429 = 3
        let moved := !isCurrent r c
        let x := match fin with
          | none => finalise commit (if commit then 0 else 0xB) (if commit then 0xFFFF else s) 0xFFFF (some (s, n)) m d
          | some _ => (m, also [lossRep s, lossStepRep false] d)
        if r.pendVar.isNone then (x.1, planEnd (ariseOf n x.2 (stopRep clsDegraded s)))
        else (x.1, reconcileBack c moved commit x.2)
  | _, _, _ => (m, d)

/-- RECONCILE_TIMEOUT: a survivor's record is missing at SEAL_TO, and the plan stops for re-planning (10 R324; 07 R241). -/
def reconTimeoutDev (now : Nat) (m : Mem) (d : Dev) : Dev :=
  match d.plan.run, d.vrd.suspect, d.vrd.recAttempt with
  | some r, some s, some (c, _) =>
    if r.phase ≠ .reconcile || decide (max now d.dbg.now < d.vrd.sentTime + r.body.verdict.sealTo)
      || ((peers r).filter (· ≠ s)).all fun k => (reconOf m d r k c).isSome then d
    else replanStop s (atTime now d)
  | _, _, _ => d

/-! ## Commands -/

/-- PUT_RECEIVE (09 R286). -/
def execPutReceive (port : Nat) (h : WireHdr) (data : List Byte) (s : State) : Out := onBoth (putReceiveBoth port h data) s
/-- STEP_WATCHDOG (07 R234). -/
def execStepWatchdog (s : State) : Out := onRead watchdogDev s
/-- VERDICT_POINT (10 R310). -/
def execVerdictPoint (now : Nat) (s : State) : Out := onRead (verdictPointDev now) s
/-- VOTE_CAST (10 R310). -/
def execVoteCast (now : Nat) (s : State) : Out := onDev (voteCastDev now) s
/-- VOTES_GATHERED (10 R318). -/
def execVotesGathered (now : Nat) (s : State) : Out := onRead (votesGatheredDev now) s
/-- VOTE_DEADLINE (10 R318). -/
def execVoteDeadline (now : Nat) (s : State) : Out := onRead (voteDeadlineDev now) s
/-- SEALS_GATHERED (10 R318). -/
def execSealsGathered (now : Nat) (s : State) : Out := onBoth (sealsGatheredBoth now) s
/-- SEAL_TIMEOUT (10 R323). -/
def execSealTimeout (now : Nat) (s : State) : Out := onRead (sealTimeoutDev now) s
/-- RECONCILE_GATHERED (10 R324). -/
def execReconcileGathered (now : Nat) (s : State) : Out := onBoth (reconGatheredBoth now) s
/-- RECONCILE_TIMEOUT (10 R324). -/
def execReconcileTimeout (now : Nat) (s : State) : Out := onRead (reconTimeoutDev now) s

end Sys2Proof.Machine
end

