-- ==== Sys2Proof/Machine/StepRun.lean ====
section
/-! DEFINITION. Step starts with what takes effect at them (stops, replacements, variants, weight switches, rotations), and the slots
that no other file has: transfers, waits, flag folds and the step-end mark (02 R72; 07 R225, R231 to R234, R237, R241; 08 R245; 12 R375,
R376; 13 R392). -/

namespace Sys2Proof.Machine

/-! ## Weight views of the plan in force (12 R365, R376, R377) -/

/-- Every weight slot is EMPTY. -/
def slotsEmpty (d : Dev) : Bool := allSlots.all fun s => (slotAt d s.1 s.2).state = .empty

/-- The geometry of a newly admitted plan: the same one keeps slots and epoch; another sends every slot to EMPTY and comes into force when
they are (12 R376, R377). -/
def geomTake (v : ViewRec) (d : Dev) : Dev :=
  if d.wgt.geom = geomOf v then d
  else if slotsEmpty d then { d with wgt := { d.wgt with geom := geomOf v, cur := none } }
  else
    let d := allSlots.foldl (fun d s => emptySlot s.1 s.2 d) d
    { d with wgt := { d.wgt with cur := none, pend := none } }

/-- The slot belongs to the current epoch. -/
def inEpoch (d : Dev) (ad : Bool) (k : Nat) : Bool :=
  match d.wgt.cur with
  | some c => (if ad then c.2 else c.1) = k
  | none => false

/-- Slots bound to another plan become EMPTY, with a NOTE (12 R365). -/
def bindTake (h : PlanHdr) (d : Dev) : Dev :=
  allSlots.foldl (fun d s =>
    let w := slotAt d s.1 s.2
    if w.state = .empty || w.zeroing || bindOk w h then d
    else
      let d := if inEpoch d s.1 s.2 then { d with wgt := { d.wgt with cur := none } } else d
      note 0x08 (slotReg s.1 s.2) 0xFFFF 0 (emptySlot s.1 s.2 d)) d

/-- What a plan that comes into force does to the weights: geometry, bindings, traced copies, recorded ranges (12 R360, R365, R376,
R377). -/
def weightsTake (m : Mem) (a : Nat) (h : PlanHdr) (b : PlanBody) (d : Dev) : Dev :=
  let d := bindTake h (geomTake b.view d)
  recordRanges { d with wgt := { d.wgt with traced := tracedOf m d a b } }

/-! ## Layout changes at a step start (07 R237, R241; 08 R268; 10 R328; 11 R338) -/

/-- Tile buffers, scalar banks and vector lengths as an admission leaves them (04 R119). -/
def enginesClear (d : Dev) : Dev :=
  let clear (g : Group) : Group := { g with
    bufs := List.replicate 6 [], queue := [], waiting := [], ctxs := List.replicate 8 VCtx.reset, streamed := false, mending := [] }
  { d with groups := d.groups.map clear }

/-- Selectors and copy states of a new tack table: an entry with the CLASS and copies of an old one keeps both; any other starts with tack A
current (07 R237). -/
def tacksTake (old new : List TackEnt) (d : Dev) : Dev :=
  let was := (old.zip d.tack.sel).zip d.tack.copies
  let same (t : TackEnt) (o : (TackEnt × Bool) × (CopyState × CopyState)) : Bool :=
    o.1.1.cls = t.cls && o.1.1.baseA = t.baseA && o.1.1.baseB = t.baseB && o.1.1.len = t.len
  let found := new.map fun t => was.find? (same t)
  { d with tack := { d.tack with
      sel := found.map fun f => (f.map fun o => o.1.2).getD false
      copies := found.map fun f => (f.map fun o => o.2).getD (.current, .off)
      waits := [] } }

/-- Sweeps of shards that the new layout describes as before go on; any other starts over (08 R268; 10 R331). -/
def sweepsKeep (old new : List Ledger) (d : Dev) : Dev :=
  let keep (s : Nat × Nat × Nat) : Bool := old.any fun o => o.shard = s.1 && new.any fun l => sameLedger o l
  { d with tack := { d.tack with
      sweeps := d.tack.sweeps.filter keep, swept := d.tack.swept.filter fun w => d.tack.sweeps.any fun s => s.1 = w.1 && keep s } }

/-- A new layout epoch becomes current: old-epoch increments go, refreshes and the snapshot in progress are abandoned (05 R189; 10 R328,
R476; 11 R345). -/
def epochTake (e : Nat) (d : Dev) : Dev :=
  if e = d.vrd.epoch then { d with vrd := { d.vrd with pending := 0xFFFF } }
  else drainAbandon (refreshDropAll { d with vrd := { d.vrd with epoch := e, pending := 0xFFFF } })

/-- The waiting variant takes effect at this start: it keeps the step index; a chip loss, or a permutation table, makes the step permute
first (07 R241; 10 R328; 11 R355). -/
def variantTake (v : Nat) (m : Mem) (d : Dev) : Mem × Dev :=
  match d.plan.run with
  | none => (m, d)
  | some r =>
    let b := bodyAt m r.addr v
    let perm := r.lost.isSome || (r.ent.map fun c => decide (c.perm ≠ 0 ∧ c.permN ≠ 0)).getD false
    let sel := d.tack.sel
    let d := sweepsKeep r.body.ledgers b.ledgers (tacksTake r.body.tacks b.tacks d)
    let d := { d with plan := { d.plan with cont := satAdd d.plan.cont 1, permHost := 0 } }
    let d := epochTake b.lepoch (modRun (fun r => { r with
      body := b, sweepSlots := sweepSlotsOf m d r.addr b, pendVar := none, fresh := true, prev := if perm then some r.body else none, prevSel := sel, phase := if perm then .permuting else .between }) d)
    let x := setsTake (rootRecs m r.addr b) r.step m d
    (x.1, { x.2 with solv := { x.2.solv with solvers := solversOf x.1 r.addr b x.2.solv.solvers } })

/-- The snapshot bounds of a plan's tack record come into force (11 R334, R349). -/
def boundsTake (t : TackRec) (d : Dev) : Dev :=
  { d with snap := { d.snap with iMin := t.iMin, iMax := t.iMax, k0 := t.k0, m0 := t.m0 } }

/-- The replacement by the image at `a` takes effect at this start (04 R119; 05 R189; 07 R231, R237; 08 R268). -/
def replaceTake (a : Nat) (m : Mem) (d : Dev) : Mem × Dev :=
  match d.plan.run with
  | none => (m, d)
  | some r =>
    let h := hdrAt m a
    let b := bodyAt m a 0
    let d := tacksTake r.body.tacks b.tacks (enginesClear d)
    let d := { d with plan := { d.plan with req := none, repl := satAdd d.plan.repl 1 } }
    let d := epochTake b.lepoch (refreshDropAll (modRun (fun r => { r with
      addr := a, hdr := h, body := b, sweepSlots := sweepSlotsOf m d a b, t0 := d.dbg.now, j := 0, pendVar := none, ent := none, lateEvent := none, fresh := false, lost := none
      prev := none, prevSel := [], permSig := [], rewind := none }) d))
    let x := ledgersReplace r.body.ledgers m d
    let x := setsTake (rootRecs x.1 a b) r.step x.1 x.2
    let d := weightsTake x.1 a h b { x.2 with solv := { x.2.solv with solvers := solversOf x.1 a b x.2.solv.solvers } }
    let d := if b.tack.iMin = r.body.tack.iMin && b.tack.iMax = r.body.tack.iMax && b.tack.k0 = r.body.tack.k0 && b.tack.m0 = r.body.tack.m0
      then d else boundsTake b.tack d
    let d := if d.snap.next.isNone && b.tack.tgt ≠ 0 then
        { d with snap := { d.snap with next := some (r.step + b.tack.iInit), interval := b.tack.iInit } } else d
    (x.1, hdmCheck d)

/-! ## Weight switches and rotations (12 R375; 13 R392) -/

/-- The weight slots that a carried transfer reads through the views (07 R234; 12 R375). -/
def carriedViews (m : Mem) (d : Dev) (r : Run) : List (Bool × Nat × Nat) :=
  (r.carried.filter fun c => c.issued && c.slot.kind = 3 && !isDrainArg c.slot.arg).filterMap fun c =>
    (viewAt d (xferAt m (c.addr + c.slot.payload)).src).map fun v => (v.1, v.2.2, c.slot.seq)

/-- RETIRING slots that nothing is bound to are READY again (12 R375). -/
def retireDone (d : Dev) : Dev :=
  let f (ad : Bool) (l : List WSlot) : List WSlot := l.zipIdx.map fun w =>
    if w.1.state = .retiring && !d.wgt.bound.any fun b => b.1 = ad && b.2.1 = w.2 then { w.1 with state := .ready } else w.1
  { d with wgt := { d.wgt with base := f false d.wgt.base, adapter := f true d.wgt.adapter } }

/-- The pending switch takes effect at the first start of the step with index `u` (12 R374, R375). -/
def switchTake (m : Mem) (r : Run) (u : Nat) (d : Dev) : Dev :=
  match d.wgt.pend with
  | some (b, a, s) =>
    if s ≠ u then d
    else
      let hasA := decide (0 < slotCount d true)
      let flip (named : Nat) (on : Bool) (l : List WSlot) : List WSlot := l.zipIdx.map fun w =>
        if on && w.2 = named then { w.1 with state := .current }
        else if w.1.state = .current then { w.1 with state := .retiring } else w.1
      retireDone { d with wgt := { d.wgt with
        bound := (d.wgt.bound.filter fun x => r.carried.any fun c => c.slot.seq = x.2.2) ++ carriedViews m d r
        base := flip b true d.wgt.base, adapter := flip a hasA d.wgt.adapter
        cur := some (b, a), pend := none, epoch := (d.wgt.epoch + 1) % 65536, switches := satAdd d.wgt.switches 1 } }
  | none => d

/-- A healthy unit is swapped with the spare of its kind and scope: it is the spare from now on (13 R392, R394, R397). -/
def rotateNow (kind n : Nat) (d : Dev) : Dev :=
  match ballastScope d kind n with
  | none => d
  | some sc =>
    if !spareFor d kind sc then note 0x0A 0x0D2C n n d
    else
      let new := ballastSite d kind sc
      let old := siteOf d kind n
      let d := callUp (if kind = 9 then 7 else kind) kind sc d
      let d := moveSite kind n new { d with integ := { d.integ with rotated := d.integ.rotated ++ [(kind, old, sc)] } }
      let d := if kind = 9 then modPort (n / 4) (fun q => { q with ballast := laneMoved d (n / 4) }) d else d
      repair ⟨kind, n, new, 4, 2, 0, 0xFF, 1, 0, 0⟩ (note 0x0A 0x0D2C n n d)

/-- Rotations whose step has come (13 R392). -/
def rotationsTake (u : Nat) (d : Dev) : Dev :=
  let now := d.integ.rotReq.filter fun q => decide (q.2.2 ≤ u)
  now.foldl (fun d q => rotateNow q.1 q.2.1 d)
    { d with integ := { d.integ with rotReq := d.integ.rotReq.filter fun q => !decide (q.2.2 ≤ u) } }

/-! ## The step start (07 R231 to R233) -/

/-- The admission barrier is complete: every other rank's SIGNAL is in REC_TALLY (07 R232). -/
def barrierDone (d : Dev) (r : Run) : Bool :=
  r.barrier || decide (r.body.nRank ≤ (d.tth.cur.get r.body.verdict.recT).toNat + 1)

/-- A plan with a weight-view record and no epoch holds its first start until a switch names that step (12 R376). -/
def epochReady (d : Dev) (r : Run) : Bool :=
  r.body.view.bN = 0 || d.wgt.cur.isSome || (match d.wgt.pend with
    | some (_, _, s) => s = r.step
    | none => false)

/-- The flip or skip of the previous step is complete, and so is every slot that holds its end back (07 R231, R234). -/
def stepFree (d : Dev) (r : Run) : Bool :=
  if !r.begun then r.phase = .between && barrierDone d r && epochReady d r
  else match r.phase with
    | .between => true
    | .committed => r.body.slots.all fun s => s.carry || r.done.contains s.seq
    | _ => false

/-- Anchor of the next start (07 R231). -/
def nextAnchor (r : Run) : Nat := r.t0 + r.j * r.hdr.period

/-- Slip: whole periods are dropped with a NOTE, the registers move, and SLIP_LIM is reported once (07 R231, R233, R242). -/
def slipTake (d : Dev) : Dev :=
  match d.plan.run with
  | none => d
  | some r =>
    let p := r.hdr.period
    if p = 0 then { d with plan := { d.plan with slip := 0, maxSlip := 0 } }
    else
      let raw := d.dbg.now - nextAnchor r
      let k := raw / p
      let slip := raw % p
      let d := if k = 0 then d else
        note 0x04 0x0714 0xFFFF k (modRun (fun r => { r with t0 := r.t0 + k * p }) { d with plan := { d.plan with drop := satAdd d.plan.drop k } })
      let d := { d with plan := { d.plan with
        slip := slip, maxSlip := max d.plan.maxSlip slip, late := if slip = 0 then d.plan.late else satAdd d.plan.late 1 } }
      if r.hdr.slipLim ≠ 0 ∧ r.hdr.slipLim < slip ∧ r.slipArmed then
        note 0x04 0x0708 0xFFFF slip (modRun (fun r => { r with slipArmed := false }) d)
      else if slip = 0 then modRun (fun r => { r with slipArmed := true }) d else d

/-- The tally windows at a start: the first start clears REC_TALLY; a variant of another layout epoch keeps the pending-epoch counts of the
next window; any other start moves on by one window (07 R232; 09 R287; 10 R476). -/
def windowsTake (first : Bool) (newEpoch : Bool) (d : Dev) : Dev :=
  match d.plan.run with
  | none => d
  | some r => if first then tallyClear r.body.verdict.recT d else if newEpoch then tallyTake false d else tallyRoll d

/-- The run at a step start: counts, times, and nothing issued (07 R226, R231, R232). -/
def runStart (now : Nat) (wgt : Option (Nat × Nat)) (r : Run) : Run :=
  { r with start := if r.begun then r.start + 1 else r.start, begun := true, j := r.j + 1, startTime := now
           phase := if r.phase = .permuting then .permuting else .running, issued := [], waited := [], done := []
           cde := r.cdeNext.map Prod.fst, cdeSeq := r.cdeNext.map Prod.snd, cdeNext := [], wgt := wgt }

/-- What belongs to one attempt starts anew (02 R49; 03 R84; 05 R159; 10 R313, R316, R318, R325; 11 R347). -/
def attemptNew (d : Dev) : Dev :=
  let d := narrowDrop d
  { d with
    groups := d.groups.map fun g => { g with streamed := false }
    vrd := { d.vrd with vote := none, d := none, dcrc := 0, winNow := false }
    curv := { d.curv with tapped := [] }
    snap := { d.snap with drainAtStart := d.snap.drain.isSome } }

/-- What only the first start of a step index does: the weight switch, rotations and the root service (05 R184; 12 R375; 13 R392). -/
def firstStart (m : Mem) (r : Run) (d : Dev) : Dev :=
  if r.attempt = 0 then rootsStep r.step m (rotationsTake r.step (switchTake m r r.step d)) else d

/-- A contingency event of the previous step raises its contained data error at the start; its variant becomes pending at the skip (07 R241;
10 R313). -/
def lateEventTake (d : Dev) : Dev :=
  match d.plan.run with
  | none => d
  | some r =>
    match r.lateEvent with
    | none => d
    | some (e, t, n) =>
      match contVariant r e t with
      | some v => modRun (fun r => { r with lateEvent := none, pendVar := some v, ent := contFor r e t, cde := r.cde ++ [0xC], cdeSeq := r.cdeSeq ++ [n] }) d
      | none => planEnd (ariseOf n d (stopRep clsDegraded t))

/-- The step starts (07 R231; 08 R264; 09 R287; 11 R348, R355). `newEpoch`: the variant that takes effect has another layout epoch. -/
def stepGo (newEpoch : Bool) (m : Mem) (d : Dev) : Mem × Dev :=
  match d.plan.run with
  | none => (m, d)
  | some r =>
    let d := windowsTake (!r.begun) newEpoch (slipTake d)
    let d := attemptNew (firstStart m r d)
    let d := modRun (runStart d.dbg.now d.wgt.cur) d
    let d := lateEventTake (scheduleTake m (sweepsStart m d))
    let x := payReport m d
    match x.2.plan.run with
    | some q =>
      if q.phase ≠ .permuting then x
      else if q.lost.isSome then
        let y := inventorySend x.1 x.2
        permRun (fun e => e.kind = 0) q.step y.1 y.2
      else
        let y := permRun (fun _ => true) q.step x.1 x.2
        (y.1, permOwe y.1 y.2)
    | none => x

/-- A stop or replacement whose step has come takes effect once the tile queues are empty (07 R237). Answers none while it waits. -/
def requestTake (m : Mem) (d : Dev) : Option (Mem × Dev) :=
  match d.plan.run, d.plan.req with
  | some r, some (.stop s) =>
    if s ≤ r.step then
      if d.groups.all fun g => g.queue.isEmpty then some (m, planEnd d) else none
    else some (m, d)
  | some r, some (.replace a s) =>
    if s ≤ r.step then
      if d.groups.all fun g => g.queue.isEmpty then some (replaceTake a m d) else none
    else some (m, d)
  | _, _ => some (m, d)

/-- The variant that a restore names ends with its first committed step: the primary goes on (11 R334, R351). -/
def primaryTake (m : Mem) (d : Dev) : Mem × Dev :=
  match d.plan.run with
  | some r =>
    if r.rvar && r.attempt = 0 && r.begun then
      let b := bodyAt m r.addr 0
      let d := epochTake b.lepoch (modRun (fun r => { r with body := b, sweepSlots := sweepSlotsOf m d r.addr b, rvar := false }) (sweepsKeep r.body.ledgers b.ledgers (tacksTake r.body.tacks b.tacks d)))
      let x := setsTake (rootRecs m r.addr b) r.step m d
      (x.1, { x.2 with solv := { x.2.solv with solvers := solversOf x.1 r.addr b x.2.solv.solvers } })
    else (m, d)
  | none => (m, d)

/-- The CARRY slots of a committed step that are still open run on (07 R234). -/
def settle (d : Dev) : Dev :=
  match d.plan.run with
  | some r => if r.phase = .committed then modRun (carryOn d) d else d
  | none => d

/-- STEP_START: what waits for this start takes effect, then the step starts once its anchor has come (07 R231, R237, R241). -/
def stepStartBoth (now : Nat) (m : Mem) (d : Dev) : Mem × Dev :=
  match d.plan.run with
  | none => (m, d)
  | some r =>
    if !stepFree d r || isSafe d then (m, d)
    else
      match requestTake m (settle (atTime now d)) with
      | none => (m, d)
      | some x =>
        let x := primaryTake x.1 x.2
        match x.2.plan.run with
        | none => x
        | some r' =>
          let y := match r'.pendVar with
            | some v => variantTake v x.1 x.2
            | none => x
          match y.2.plan.run with
          | none => y
          | some q =>
            if q.hdr.period ≠ 0 ∧ y.2.dbg.now < nextAnchor q then (m, d)
            else stepGo (y.2.vrd.epoch ≠ x.2.vrd.epoch) y.1 y.2

/-- ADMISSION_BARRIER_TIMEOUT: a barrier not complete 10 s after admission is reported once (07 R232). -/
def barrierLateDev (d : Dev) : Dev :=
  match d.plan.run with
  | some r =>
    if r.begun || r.barrierNote || barrierDone d r then d
    else note 0x04 0xFFFF 0xFFFF r.body.verdict.recT (modRun (fun r => { r with barrierNote := true }) d)
  | none => d

/-! ## Slots of no engine (02 R72; 07 R224, R225) -/

/-- WAIT_SLOT: it completes when its waits are met (07 R225). -/
def waitSlotDev (seq now : Nat) (d : Dev) : Dev := onSlotDev seq 5 (fun r _ d => complete r.start seq d) (atTime now d)

/-- FLAG_FOLD: the plan-visible words of the mark's context are folded over the engines that its record names into an SRAM word, and
cleared, all in one cycle (02 R72; log entry 31). -/
def flagFoldBoth (seq : Nat) : Mem → Dev → Mem × Dev :=
  onMarkW seq 3 (fun r s m _ => [((foldAt m (r.addr + s.payload)).dst, 2)]) fun r s m d =>
    let k := foldAt m (r.addr + s.payload)
    let f := d.nflag.fold (fun e => k.engines.contains e) s.ctx
    let x := writeSlot m { d with nflag := f.2 } k.dst (leBytes 2 f.1.toNat)
    (x.1, complete r.start seq x.2)

/-- STEP_END: the mark issues and completes (07 R224). -/
def stepEndBoth (seq : Nat) : Mem → Dev → Mem × Dev := onMark seq 4 fun r _ m d => (m, complete r.start seq d)

/-! ## Transfers (08 R245; 11 R344) -/

/-- Ranges that a transfer slot writes (08 R245; 11 R340). -/
def xferWrites (r : Run) (s : Slot) (m : Mem) (_ : Dev) : List (Nat × Nat) :=
  if isDrainArg s.arg then []
  else
    let x := xferAt m (r.addr + s.payload)
    xferRows x.dst x.dstPitch x.rowBytes x.rows

/-- XFER_SLOT: the transfer issues; a drain slot with nothing to copy completes at once (08 R245; 11 R344). -/
def xferSlotBoth (seq : Nat) : Mem → Dev → Mem × Dev :=
  onSlotW seq 3 xferWrites fun r s m d => (m, if isDrainArg s.arg && !drainHasG d then complete r.start seq d else d)

/-- An earlier transfer of the same queue is still in flight (08 R245). -/
def xferBehind (r : Run) (start : Nat) (s : Slot) : Bool :=
  (r.carried.any fun c => c.slot.kind = 3 && c.slot.stream = s.stream &&
    (decide (c.start < start) || (c.start = start && decide (c.slot.seq < s.seq))))
  || (start = r.start && r.body.slots.any fun t =>
        t.kind = 3 && t.stream = s.stream && decide (t.seq < s.seq) && r.issued.contains t.seq && !r.done.contains t.seq)

/-- One row of a transfer, copied unchanged (08 R245). -/
def xferRow (x : Mem × Dev) (p : (Nat × Nat) × (Nat × Nat)) : Mem × Dev :=
  let b := readSlot x.1 x.2 p.1.1 p.1.2
  writeSlot x.1 b.2 p.2.1 b.1

/-- The epoch that a slot reads views by: a carried slot keeps that of the step in which it issued (12 R375). -/
def xferEpoch (d : Dev) (r : Run) (start seq : Nat) : Option (Nat × Nat) :=
  if start = r.start then r.wgt
  else match d.wgt.bound.find? fun b => b.2.2 = seq with
    | some (ad, k, _) => if ad then r.wgt.map fun w => (w.1, k) else r.wgt.map fun w => (k, w.2)
    | none => r.wgt

/-- XFER_COMPLETE: the bytes arrive, in slot order on one queue, and the slots that wait are released (08 R245; 11 R344; 12 R375). -/
def xferDoneBoth (seq : Nat) (m : Mem) (d : Dev) : Mem × Dev :=
  match d.plan.run with
  | none => (m, d)
  | some r =>
    match inFlight r seq with
    | none => (m, d)
    | some (start, addr, s) =>
      if s.kind ≠ 3 || xferBehind r start s then (m, d)
      else
        let x :=
          if isDrainArg s.arg then drainGondola (s.arg % 2 ^ 28) m d
          else
            let t := xferAt m (addr + s.payload)
            let y := ((xferRows t.src t.srcPitch t.rowBytes t.rows).zip (xferRows t.dst t.dstPitch t.rowBytes t.rows)).foldl xferRow
              (m, modRun (fun q => { q with wgt := xferEpoch d r start seq }) d)
            (y.1, modRun (fun q => { q with wgt := r.wgt }) y.2)
        let d := complete start seq x.2
        (x.1, retireDone { d with wgt := { d.wgt with bound := d.wgt.bound.filter fun b => b.2.2 ≠ seq } })

/-! ## Commands -/

/-- STEP_START (07 R231). -/
def execStepStart (now : Nat) (s : State) : Out := onBoth (stepStartBoth now) s
/-- ADMISSION_BARRIER_TIMEOUT (07 R232). -/
def execAdmissionBarrierTimeout (s : State) : Out := onDev barrierLateDev s
/-- WAIT_SLOT (07 R225). -/
def execWaitSlot (seq now : Nat) (s : State) : Out := onDev (waitSlotDev seq now) s
/-- FLAG_FOLD (02 R72). -/
def execFlagFold (seq : Nat) (s : State) : Out := onBoth (flagFoldBoth seq) s
/-- STEP_END (07 R224). -/
def execStepEnd (seq : Nat) (s : State) : Out := onBoth (stepEndBoth seq) s
/-- XFER_SLOT (08 R245). -/
def execXferSlot (seq : Nat) (s : State) : Out := onBoth (xferSlotBoth seq) s
/-- XFER_COMPLETE (08 R245). -/
def execXferComplete (seq : Nat) (s : State) : Out := onBoth (xferDoneBoth seq) s

end Sys2Proof.Machine
end

