-- ==== Sys2Proof/Machine/PlanCmds.lean ====
section
/-! DEFINITION. Admitting, replacing, stopping and restoring plans, and the zeroing that a stop waits for (07 R232, R235 to R237; 11 R349 to
R353; 12 R377; 14 R421). -/

namespace Sys2Proof.Machine

/-! ## Completions (07 R235; 14 R421) -/

/-- The completion of an accepted plan: the simulated minimum step (07 R236). -/
def acceptedAns (m : Mem) (a : Nat) : Ans := { data := Config.simMinStep (imageBytes m a) }

/-- A rejected plan: a NOTE, and a completion with the code, the variant, the section and the SEQ; where no slot is concerned the SEQ field is a
free value (07 R235; log entry 35). -/
def rejectPlan (x : Rej) (d : Dev) : Dev × Ans :=
  let f := draw 32 d
  let d' := if x.seq.isSome then d else f.2
  (note 0x04 0xFFFF 0xFFFF x.code d',
    { status := stRejected, aux := x.code
      data := (x.seq.getD f.1.toNat) % 2 ^ 32 * 2 ^ 32 + x.variant % 2 ^ 16 * 2 ^ 16 + x.sect % 16 * 2 ^ 12 })

/-! ## Admission (02 R72; 04 R119; 07 R231, R232, R236; 11 R338; 12 R376) -/

/-- The run of a plan admitted at step index `step` under variant `v` (07 R231, R232, R236; 11 R351). -/
def runNew (m : Mem) (d : Dev) (a v step : Nat) (now : Nat) : Run :=
  let b := bodyAt m a v
  { addr := a, hdr := hdrAt m a, body := b, t0 := now, j := 0, start := 0, begun := false, barrier := decide (b.nRank ≤ 1), barrierNote := false
    step := step, attempt := 0, startTime := now, phase := .between, issued := [], waited := [], done := [], carried := [], cde := [], cdeSeq := [], cdeNext := [], sweepSlots := sweepSlotsOf m d a b
    slipArmed := true, pendVar := none, ent := none, prevSel := [], permSig := [], lateEvent := none, fresh := false, lost := none, wgt := none, tackLost := none, jobStart := now
    prev := none, rewind := none, rvar := decide (v ≠ 0) }

/-- The verdict's working state at an admission; its registers stay (10 R328, R333). -/
def vrdNew (epoch : Nat) (v : Vrd) : Vrd :=
  { v with epoch := epoch, pending := 0xFFFF, vote := none, d := none, dcrc := 0, sha := none, digestStep := none, stepRuns := 0, winRuns := 0
           winNow := false, suspect := none, recAttempt := none, final := none, got := [] }

/-- Snapshot state at an admission: the first point lies I_INIT steps ahead; the registers stay (11 R334, R347, R348). -/
def snapNew (t : TackRec) (step : Nat) (s : Snap) : Snap :=
  { s with drain := none, interval := t.iInit, next := if t.tgt = 0 then none else some (step + t.iInit), forced := [], costKnown := false
           iMin := t.iMin, iMax := t.iMax, k0 := t.k0, m0 := t.m0, k := 0, hostDone := [], runBase := 0, fails := 0, quietLens := []
           lens := [], drainAtStart := false, owed := none, got := [] }

/-- Engine state at an admission: plan-visible flags, amax histories, tile buffers, scalar banks and vector lengths; nothing is in flight (02 R49, R72; 04
R119; 07 R236). -/
def enginesNew (d : Dev) : Dev :=
  let d := enginesClear d
  { d with nflag := { d.nflag with plan := [] }, narrow := [], arrays := d.arrays.map fun a => { a with passes := [] } }

/-- Tallies start empty, and no request is in flight (07 R232; 11 R353). -/
def talliesNew (d : Dev) : Dev := { d with tth := { d.tth with cur := [], nxt := [], curP := [], nxtP := [], pend := [] } }

/-- The admission of the plan at `a` under variant `v` at step index `step`; the admission barrier begins (07 R232, R236). -/
def admitPlan (a v step : Nat) (m : Mem) (d : Dev) : Mem × Dev :=
  let r := runNew m d a v step d.dbg.now
  let d := talliesNew (enginesNew d)
  let d := { d with
    plan := { d.plan with run := some r, req := none, stopping := false, permHost := 0 }
    vrd := vrdNew r.body.lepoch d.vrd
    tack := { d.tack with commits := 0 }
    snap := snapNew r.body.tack step d.snap
    curv := { d.curv with sets := [] } }
  let x := ledgersNew m (selectorsZero d)
  let x := setsTake (rootRecs x.1 a r.body) step x.1 x.2
  let d := weightsTake x.1 a r.hdr r.body { x.2 with solv := { x.2.solv with solvers := solversOf x.1 a r.body [] } }
  let d := (peers r).foldl (fun d k => mastSignal k r.body.verdict.recT 1 0 d) (hdmCheck d)
  (x.1, d)

/-- The plan at `a` needs space that a slot's zeroing still holds (12 R377). -/
def spaceBusy (m : Mem) (d : Dev) (a : Nat) : Bool :=
  let ps := (bodyAt m a 0).places
  allSlots.any fun s => (slotAt d s.1 s.2).zeroing &&
    ps.any fun p => let q := slotRange d s.1 s.2; overlaps p.base p.len q.1 q.2

/-- Validation and then admission or rejection (07 R235, R236). -/
def tryAdmit (a : Nat) (m : Mem) (d : Dev) : Mem × Dev × Ans :=
  match validate m d a none with
  | some x => let y := rejectPlan x d; (m, y.1, y.2)
  | none => let y := admitPlan a 0 0 m d; (y.1, y.2, acceptedAns m a)

/-- A stop is pending or completing (07 R237). -/
def stopComing (d : Dev) : Bool :=
  d.plan.stopping || (match d.plan.req with
    | some (.stop _) => true
    | _ => false)

/-- PLAN_ADMIT: refused while a plan runs; latched behind a stop that completes or a zeroing whose space it needs (07 R236, R237; 12
R377). -/
def planAdmitBoth (c : CmdRef) (now : Nat) : Mem → Dev → Mem × Dev :=
  runCmdLong c 0x201 fun _ desc m d =>
    let d := atTime now d
    let a := dArg0 desc % 2 ^ 48
    if d.plan.latched.isSome then (m, d, some refused)
    else if stopComing d || (d.plan.run.isNone && spaceBusy m d a) then
      (m, { d with plan := { d.plan with latched := some (c.ring, c.tag, a) } }, none)
    else if d.plan.run.isSome then (m, d, some refused)
    else
      let x := tryAdmit a m d
      (x.1, x.2.1, some x.2.2)

/-- A pending request is superseded, with a NOTE (07 R237). -/
def supersede (d : Dev) : Dev := if d.plan.req.isSome then note 0x04 0x0704 0xFFFF 0 d else d

/-- PLAN_REPLACE: validated at once; refused with a NOTE when the step index already exceeds S (07 R237). -/
def planReplaceDev (c : CmdRef) (m : Mem) (d : Dev) : Dev :=
  runCmd c 0x202 (fun desc d =>
    let a := dArg0 desc % 2 ^ 48
    match d.plan.run with
    | none => (d, refused)
    | some r =>
      if dArg1 desc < r.step then (note 0x04 0x0704 0xFFFF 0 d, refused)
      else
        match validate m d a (some r.body) with
        | some x => rejectPlan x d
        | none => ({ supersede d with plan := { (supersede d).plan with req := some (.replace a (dArg1 desc)) } }, acceptedAns m a)) d

/-- PLAN_STOP: refused with a NOTE when the step index already exceeds S; at once while the admission barrier holds step S (07 R232,
R237). -/
def planStopDev (c : CmdRef) : Dev → Dev :=
  runCmd c 0x203 fun desc d =>
    match d.plan.run with
    | none => (d, refused)
    | some r =>
      if dArg1 desc < r.step then (note 0x04 0x0704 0xFFFF 0 d, refused)
      else if !r.begun && dArg1 desc = r.step then (planEnd (supersede d), {})
      else ({ supersede d with plan := { (supersede d).plan with req := some (.stop (dArg1 desc)) } }, {})

/-! ## Zeroing (12 R377) -/

/-- ZEROING_COMPLETE: slots that were being overwritten are EMPTY, a stop with its traced copies completes, and a latched admission goes
on (07 R237; 12 R377). -/
def zeroedBoth (m : Mem) (d : Dev) : Mem × Dev :=
  let zs := allSlots.filter fun s => (slotAt d s.1 s.2).zeroing
  let ranges := (zs.map fun s => slotRange d s.1 s.2) ++ (if d.plan.stopping then d.wgt.traced else [])
  let m := zeroRanges ranges m
  let d := { d with ecc := ranges.foldl freshRange d.ecc }
  let d := zs.foldl (fun d s => modSlot s.1 s.2 (fun w => { WSlot.reset with result := w.result }) d) d
  let d := if d.plan.stopping then
      { d with plan := { d.plan with stopping := false }, wgt := { d.wgt with traced := [] } } else d
  let d := match d.plan.run with
    | some r => if slotsEmpty d && d.wgt.geom ≠ geomOf r.body.view then { d with wgt := { d.wgt with geom := geomOf r.body.view } } else d
    | none => d
  let d := recordRanges d
  match d.plan.latched, d.plan.run with
  | some (ring, tag, a), none =>
    let x := tryAdmit a m { d with plan := { d.plan with latched := none } }
    (x.1, completeTag ring tag 0x201 x.2.2 x.2.1)
  | _, _ => (m, d)

/-! ## Restore (11 R350 to R353) -/

/-- A slot image as a reader of `n` bytes at an offset. -/
abbrev SlotRd := Nat → Nat → List Byte

/-- A slot image that stands outside the chip. -/
def imageRd (l : List (Nat × Byte)) : SlotRd :=
  let img : Mem := l.foldl (fun m x => m.set x.1 x.2) []
  fun o n => img.read o n

/-- The sources of a restore in their order, those that hold a complete slot of DATA_STEP `s` (11 R350). -/
def restoreSources (m : Mem) (d : Dev) (t : TackRec) (src : RestoreIn) (s : Nat) : List SlotRd :=
  let gon := ((List.range 2).filter fun k => backed d (t.gonBase + k * t.slotBytes)).map fun k =>
    (fun o n => readEngine m d.ecc (t.gonBase + k * t.slotBytes + o) n : SlotRd)
  (gon ++ [imageRd src.buddy, imageRd src.host]).filter fun rd => slotStepOf rd t.slotBytes = some s

/-- Item number `occ` with this TYPE, ID and INDEX in a slot, when its CRC passes (11 R343, R350). -/
def itemFind (ty id idx occ : Nat) (rd : SlotRd) : Option (List Byte) :=
  let n := bits (leNat (rd 0 256)) 1831 1800
  let es := ((List.range n).map fun i => leNat (rd (256 + 32 * i) 32)).filter fun e =>
    bits e 255 252 = ty && bits e 251 236 = id && bits e 235 216 = idx
  match es[occ]? with
  | some e =>
    let bs := rd (bits e 215 168) (bits e 167 120)
    if crc64 bs = bits e 63 0 then some bs else none
  | none => none

/-- An item from the first source that has it (11 R350). -/
def itemOf (srcs : List SlotRd) (ty id idx occ : Nat) : Option (List Byte) := srcs.findSome? (itemFind ty id idx occ)

/-- A list of writes, when every one of them has its bytes. -/
def allThere : List (Nat × Option (List Byte)) → Option (List (Nat × List Byte))
  | [] => some []
  | (a, some bs) :: t => (allThere t).map fun l => (a, bs) :: l
  | (_, none) :: _ => none

/-- The writes of the tack entries of some KINDs: each from the item of its SHARD_ID and KIND, by order among equals, into tack A (11 R350,
R351). -/
def tackWrites (srcs : List SlotRd) (ts : List TackEnt) (kinds : List Nat) : List (Nat × Option (List Byte)) :=
  (ts.zipIdx.filter fun t => kinds.contains t.1.kind).map fun t =>
    let occ := ((ts.take t.2).filter fun u => u.shard = t.1.shard && u.kind = t.1.kind).length
    (t.1.baseA, (itemOf srcs 0 t.1.shard t.1.kind occ).filter fun bs => bs.length = t.1.len)

/-- The writes of the root buffers that the restored descriptors in `m` name (11 R351). -/
def rootWrites (srcs : List SlotRd) (m : Mem) (rs : List RootRec) : List (Nat × Option (List Byte)) :=
  rs.flatMap fun r => (List.range (rootBlocks r)).filterMap fun k =>
    let x := m.readLE (descAddr r k) 64
    if descPub x = 3 then none
    else some (descBuf x (descPub x), (itemOf srcs 1 r.id k 0).filter fun bs => bs.length = rootBytes r)

/-- The writes of a lagged shard: its pending slots as saved, then both status copies equal, with TACK 0 and SWEEP idle (11 R351). -/
def ledgerWrites (srcs : List SlotRd) (l : Ledger) : List (Nat × Option (List Byte)) :=
  match itemOf srcs 2 l.shard 0 0 with
  | none => [(l.status, none)]
  | some bs =>
    let st := statAt (Mem.write [] 0 bs) 0
    let s0 := statBytes { st with tackB := false, sweep := 0, pieces := 0 }
    (pendingSteps st).map (fun n => (ledgerSlot l n, (itemOf srcs 3 l.shard (n % (l.lag + 1)) 0).filter fun bs => bs.length = l.slotBytes))
      ++ [(l.status, some (s0 ++ s0))]

/-- Every write of a restore in the order of R351, when each has a source (11 R350, R351). -/
def restoreWrites (srcs : List SlotRd) (m : Mem) (b : PlanBody) (rs : List RootRec) : Option (List (Nat × List Byte)) :=
  let descs := tackWrites srcs b.tacks [3]
  let m' := ((allThere descs).getD []).foldl (fun m w => m.write w.1 w.2) m
  allThere (tackWrites srcs b.tacks [4] ++ tackWrites srcs b.tacks [1, 2] ++ rootWrites srcs m' rs ++ descs
    ++ b.ledgers.flatMap (ledgerWrites srcs) ++ tackWrites srcs b.tacks [5, 6] ++ tackWrites srcs b.tacks [0])

/-- The restored state is put in place and the draws are checked against DATA_STEP `s` (11 R347, R351, R352, R358). -/
def restoreApply (ws : List (Nat × List Byte)) (head s : Nat) (m : Mem) (d : Dev) : Mem × Dev :=
  let x := ws.foldl (fun x w => devWrite x.1 x.2 w.1 w.2) (m, d)
  let x := drawsFix s x.1 x.2
  (x.1, { x.2 with
    curv := { x.2.curv with sets := x.2.curv.sets.map (bufsFrom x.1) }
    snap := { x.2.snap with runBase := bits head 1687 1656, fails := bits head 1655 1640 + 1, restore := satAdd x.2.snap.restore 1 } })

/-- SNAP_RESTORE: refused while a plan is admitted or stopping, and with a NOTE when an item has no source; else the plan is validated and
admitted under RVAR at step index s with its state written back (11 R350, R351). -/
def restoreBoth (c : CmdRef) (src : RestoreIn) (now : Nat) : Mem → Dev → Mem × Dev :=
  runCmdLong c 0x301 fun _ desc m d =>
    let d := atTime now d
    let a := dArg0 desc % 2 ^ 48
    let s := dArg1 desc
    if d.plan.run.isSome || d.plan.stopping || d.plan.latched.isSome || spaceBusy m d a then (m, d, some refused)
    else
      match validate m d a none with
      | some x => let y := rejectPlan x d; (m, y.1, some y.2)
      | none =>
        let t := (bodyAt m a 0).tack
        let b := bodyAt m a t.rvar
        let srcs := restoreSources m d t src s
        match restoreWrites srcs m b (rootRecs m a b), srcs.head? with
        | some ws, some rd =>
          let ans := acceptedAns m a
          let x := admitPlan a t.rvar s m d
          let y := restoreApply ws (leNat (rd 0 256)) s x.1 x.2
          (y.1, y.2, some ans)
        | _, _ => (m, note 0x07 0xFFFF 0xFFFF 0 d, some refused)

/-! ## Commands -/

/-- PLAN_ADMIT (07 R236). -/
def execPlanAdmit (c : CmdRef) (now : Nat) (s : State) : Out := onBoth (planAdmitBoth c now) s
/-- PLAN_REPLACE (07 R237). -/
def execPlanReplace (c : CmdRef) (s : State) : Out := onRead (planReplaceDev c) s
/-- PLAN_STOP (07 R237). -/
def execPlanStop (c : CmdRef) (s : State) : Out := onDev (planStopDev c) s
/-- ZEROING_COMPLETE (12 R377). -/
def execZeroingComplete (s : State) : Out := onBoth zeroedBoth s
/-- SNAP_RESTORE (11 R350). -/
def execSnapRestore (c : CmdRef) (src : RestoreIn) (now : Nat) (s : State) : Out := onBoth (restoreBoth c src now) s

end Sys2Proof.Machine
end

