-- ==== Sys2Proof/Machine/PortG.lean ====
section
/-! DEFINITION. The faults of port G: reads that time out, failed completions, loss of a bay, and what a tether request that port G
ends with an error is answered (08 R257, R260; 09 R289; 14 R403). -/

namespace Sys2Proof.Machine

/-- The access lies on bay `b`, in its linear view or as a member of the set (08 R256). -/
def onBay (d : Dev) (b a : Nat) : Bool := (gonTarget d a).map Prod.fst = some b

/-- The transfers in flight that read or write bay `b` (08 R245, R257). -/
def bayFlights (m : Mem) (d : Dev) (b : Nat) : List Slot :=
  match d.plan.run with
  | none => []
  | some r => (r.body.slots.filter fun s => s.kind = 3 && !isDrainArg s.arg && r.issued.contains s.seq && !r.done.contains s.seq).filter fun s =>
      let t := xferAt m (r.addr + s.payload)
      (xferRows t.src t.srcPitch t.rowBytes t.rows ++ xferRows t.dst t.dstPitch t.rowBytes t.rows).any fun w =>
        onBay d b w.1 || onBay d b (w.1 + w.2 - 1)

/-- A bay enters GONE: requests in flight end as uncorrectable errors, DEGRADED is reported, the window shrinks, its snapshot targets
are lost, and the plan stops when it places a range there (08 R257, R260; 11 R345). -/
def bayGone (b : Nat) (m : Mem) (d : Dev) : Dev :=
  let y := bayAt d b
  if !(y.state = .online || y.state = .draining) then d
  else
    let placed := placedOn d b
    let onTarget := targetOn d b
    let d := (bayFlights m d b).foldl (fun d _ => countUe 1 d) d
    let d := countHotplug (remap (modBay b (fun y => { y with state := .gone, linkW := 0, gen := 0 }) d))
    let rep : Rep := ⟨clsDegraded, 0x05, 0x0804 + 4 * b, b, b, false⟩
    let d := if placed then planEnd (fault [rep, stopRep clsDegraded b] d) else fault [rep] d
    if onTarget then targetAbort 0 d else d

/-- The request that the chip carried through port G for `h` is answered NACK ADDRESS, and its range is lost until it is written
again (09 R289). -/
def gonNack (port : Nat) (h : WireHdr) (m : Mem) (d : Dev) : Dev :=
  if h.opc < 2 then (takeReq port h.opc h (fun m d => (m, nack port h 5 (gonLose h d))) m d).2 else d

/-- A read without completion in 20 us, or a completion with poison or an error status: an uncorrectable error. For an access of the
running step it is CONTAINED; for a tether request the answer is NACK ADDRESS; otherwise it is a NOTE. Three consecutive
timeouts lose the bay (08 R260, R268; 09 R289; 13 R387). -/
def gonReadError (tmo : Bool) (e : GonErr) (m : Mem) (d : Dev) : Dev :=
  let b := e.bay
  if !((bayAt d b).state = .online || (bayAt d b).state = .draining) then d
  else
    let d := countUe 1 (newFault d)
    let d := if tmo then { d with gon := { d.gon with tmo := satAdd d.gon.tmo 1 } }
      else { d with gon := { d.gon with badRsp := satAdd d.gon.badRsp 1 } }
    let d := match e.req with
      | some (port, h) => gonNack port h m (also [⟨clsNote, 0x09, 0x0D0C, b, b, false⟩] d)
      | none =>
        let d := sweepHit e.addr d
        if stepRuns d then cde 3 d else also [⟨clsNote, 0x09, 0x0D0C, b, b, false⟩] d
    let d := modBay b (fun y => { y with tmo := if tmo then y.tmo + 1 else 0 }) d
    if 3 ≤ (bayAt d b).tmo then bayGone b m d else d

/-- A failed completion: of a read, or of a write, whose range is then lost until it is written again (08 R260). -/
def badCompletionDev (e : GonErr) (wrote : Option (Nat × Nat)) (m : Mem) (d : Dev) : Dev :=
  let d := gonReadError false e m d
  match wrote with
  | some r => { d with ecc := { d.ecc with gonLost := d.ecc.gonLost ++ [r] } }
  | none => d

/-- GONDOLA_READ_TIMEOUT (08 R260). -/
def execGondolaReadTimeout (e : GonErr) (s : State) : Out := onRead (gonReadError true e) s
/-- GONDOLA_BAD_COMPLETION (08 R260). -/
def execGondolaBadCompletion (e : GonErr) (wrote : Option (Nat × Nat)) (s : State) : Out := onRead (badCompletionDev e wrote) s
/-- PORT_G_LINK_DOWN (08 R260). -/
def execPortGLinkDown (b : Nat) (s : State) : Out := onRead (bayGone b) s
/-- GONDOLA_VIRAL (14 R403). -/
def execGondolaViral (b : Nat) (s : State) : Out := onRead (bayGone b) s

end Sys2Proof.Machine
end

