-- ==== Sys2Proof/Machine/Scrub.lean ====
section
/-! DEFINITION. The scrubber: the line it reads next, its corrections, and what an uncorrectable error it finds does (13 R383, R387 to
R389; 11 R341; 12 R371). -/

namespace Sys2Proof.Machine

/-! ## The pass (13 R388, R389) -/

/-- The next backed line of local SRAM after `line`; none: the pass is complete (08 R243; 13 R388). -/
def nextSram (d : Dev) (line : Nat) : Option Nat :=
  let b := line / 0x2000000
  if line + 256 < 0x2000000 * (b + 1) then some (line + 256)
  else ((List.range Config.nBanks).find? fun k => decide (b < k) && !d.integ.bankAbsent.contains k).map (0x2000000 * ·)

/-- The first backed line of local SRAM. -/
def firstSram (d : Dev) : Nat :=
  (((List.range Config.nBanks).find? fun k => !d.integ.bankAbsent.contains k).getD 0) * 0x2000000

/-- The next backed line of HBM after `line`; none: the pass is complete (08 R243; 13 R388). -/
def nextHbm (d : Dev) (line : Nat) : Option Nat :=
  match stackOf line with
  | none => none
  | some s =>
    if line + 256 < hbmBase s + hbmBytes then some (line + 256)
    else ((List.range Config.nStacks).find? fun k => decide (s < k) && !d.integ.stackAbsent.contains k).map hbmBase

/-- The first backed line of HBM. -/
def firstHbm (d : Dev) : Nat := hbmBase (((List.range Config.nStacks).find? fun k => !d.integ.stackAbsent.contains k).getD 0)

/-- A read of the ordinary pass moves its pointer on; at the end of the tier the pass counts (13 R388, R395). -/
def passOn (line : Nat) (d : Dev) : Dev :=
  if line < 0x60000000 then
    match nextSram d line with
    | some l => { d with ecc := { d.ecc with scrubS := l } }
    | none => { d with ecc := { d.ecc with scrubS := firstSram d }, integ := { d.integ with passS := satAdd d.integ.passS 1 } }
  else
    match nextHbm d line with
    | some l => { d with ecc := { d.ecc with scrubH := l } }
    | none => { d with ecc := { d.ecc with scrubH := firstHbm d }, integ := { d.integ with passH := satAdd d.integ.passH 1 } }

/-- The priority list of the tier of a line (13 R383). -/
def prioOf (d : Dev) (line : Nat) : List Nat := if line < 0x60000000 then d.ecc.prioS else d.ecc.prioH

/-- The line is the one the scrubber reads next in its tier by the ordinary pass, which a rate of 0 stops (13 R388, R389). -/
def passLine (d : Dev) (line : Nat) : Bool :=
  if line < 0x60000000 then decide (d.integ.rateS ≠ 0) && decide (line = d.ecc.scrubS)
  else decide (d.integ.rateH ≠ 0) && decide (line = d.ecc.scrubH)

/-- The scrubber reads, or has a line in flight; it does neither before the firmware that serves its lists is ready (13 R388, R389, R395;
log entry 42). -/
def scrubActive (d : Dev) : Bool := d.fw.ready && (d.integ.scrubEn || d.integ.scrubStopping)

/-! ## Corrections (13 R383, R388) -/

/-- A corrected word that the scrubber finds takes the main path; a line of the priority list leaves it when its write-back is queued
(13 R383, R388). -/
def scrubCorrect (a : Nat) (d : Dev) : Dev :=
  let line := lineOf a
  if d.ecc.defer.contains line then
    let d := { d with integ := { d.integ with deferred := satAdd d.integ.deferred 1 } }
    if d.ecc.wbq.contains line || decide (16 ≤ wbqIn d line) then d
    else { d with ecc := { d.ecc with
      wbq := d.ecc.wbq ++ [line], prioS := d.ecc.prioS.filter (· ≠ line), prioH := d.ecc.prioH.filter (· ≠ line) } }
  else correct 3 a d

/-! ## Uncorrectable errors (13 R387) -/

/-- The state of the copy of a tack entry that holds a line: in its tacked view tack A, at BASE_B tack B (11 R339). -/
def tackCopyAt (d : Dev) (line : Nat) : Option CopyState :=
  match d.plan.run with
  | none => none
  | some r =>
    r.body.tacks.zipIdx.findSome? fun t =>
      let cur := copyCurrent d t.2
      let other := copyOff d t.2
      if overlaps line 256 t.1.baseA t.1.len then some (if tackB d t.2 then other else cur)
      else if overlaps line 256 t.1.baseB t.1.len then some (if tackB d t.2 then cur else other)
      else none

/-- The weight slot that holds a line and is not EMPTY (12 R377). -/
def weightSlotAt (d : Dev) (line : Nat) : Option (Bool × Nat) :=
  allSlots.find? fun s => (slotAt d s.1 s.2).state ≠ .empty && overlaps line 256 (slotRange d s.1 s.2).1 (slotRange d s.1 s.2).2

/-- An uncorrectable line of a weight slot marks its shards BAD, with a NOTE (12 R371). -/
def weightUe (s : Bool × Nat) (line : Nat) (d : Dev) : Dev :=
  let base := (slotRange d s.1 s.2).1
  let hit := ((slotAt d s.1 s.2).shards.filter fun x => overlaps line 256 (base + x.dstOff) x.length).map Shard.index
  let d := modSlot s.1 s.2 (fun w => { w with bad := w.bad ++ hit.filter fun i => !w.bad.contains i }) d
  note 0x08 0x0D0C s.2 line d

/-- The line lies in what a slot of the step reads without the plan's own addresses: a root buffer in use, a ledger slot or status block, or
an image of a solver (13 R387). -/
def serviceLine (m : Mem) (d : Dev) (line : Nat) : Bool :=
  let hit (a n : Nat) : Bool := overlaps line 256 a n
  d.curv.sets.any (fun s => s.bufs.zipIdx.any fun b => b.1.zipIdx.any fun x =>
      x.1 ≠ .free && hit (descBuf (descNow m d s.record b.2) x.2) (rootBytes s.record))
    || (match d.plan.run with
        | some r => r.body.ledgers.any fun l => hit l.ledger ((l.lag + 1) * l.slotBytes) || hit l.status 128
        | none => false)
    || d.solv.solvers.any fun s =>
        hit s.record.struct (structBytes s.hdr) || hit s.record.values (valuesBytes s) || hit s.record.work (workBytes m s.record s.hdr)

/-- The line lies in the image of the admitted plan (13 R387). -/
def planLine (m : Mem) (d : Dev) (line : Nat) : Bool :=
  match d.plan.run with
  | some r => overlaps line 256 r.addr (imageLen m r.addr)
  | none => false

/-- The line lies in a placement range of the admitted plan (13 R387). -/
def placedLine (d : Dev) (line : Nat) : Bool :=
  match d.plan.run with
  | some r => r.body.places.any fun p => overlaps line 256 p.base p.len
  | none => false

/-- What an uncorrectable line that the scrubber finds does, by the range it lies in; the last fault is that error (13 R387; 00 R24). -/
def scrubUe (line : Nat) (m : Mem) (d : Dev) : Mem × Dev :=
  let say (d : Dev) : Dev := also [⟨clsNote, 0x09, 0x0D0C, 0xFFFF, line, false⟩] d
  match weightSlotAt d line with
  | some s => (m, weightUe s line d)
  | none =>
    if planLine m d line then (m, planEnd (also [stopRep clsContained 0] d))
    else if serviceLine m d line then (m, if stepRuns d then cde 3 (sweepHit line d) else say d)
    else
      match tackCopyAt d line with
      | some .off => (m, say d)
      | some .written => (m, say d)
      | some c => (m, tackLoss c d)
      | none =>
        if placedLine d line then (m, say d)
        else
          let x := writeMem m d.ecc line (List.replicate 256 0)
          (x.1, say { d with ecc := x.2.1 })

/-- SCRUB_LINE: the scrubber reads `line`, the head of its tier's priority list or else the next of its pass; `find` says what the code
finds in it. A stop completes after it (13 R388, R389). -/
def scrubLineBoth (line : Nat) (find : EccFind) (m : Mem) (d : Dev) : Mem × Dev :=
  let prio := (prioOf d line).head? = some line
  if !scrubActive d || !(prio || ((prioOf d line).isEmpty && passLine d line)) then (m, d)
  else
    let own (l : List Nat) : List Nat := l.filter fun a => lineOf a = line
    let ues := (own find.ue).map wordOf
    let d := { d with ecc := { d.ecc with ue := d.ecc.ue ++ ues.filter fun w => !d.ecc.ue.contains w } }
    let d := (own (find.ce ++ d.ecc.ce)).eraseDups.foldl (fun d a => scrubCorrect a d) d
    let bad := (firstBad d.ecc line 256)
    let d := if prio then d else passOn line d
    let x := match bad with
      | some a => scrubUe line m (ueAt 3 a d)
      | none => (m, d)
    (x.1, scrubStopped x.2)

/-- SCRUB_LINE (13 R388). -/
def execScrubLine (line : Nat) (find : EccFind) (s : State) : Out := onBoth (scrubLineBoth line find) s

end Sys2Proof.Machine
end

