-- ==== Sys2Proof/Machine/Regs.lean ====
section
/-! DEFINITION. BAR0: what every register reads as, and REGISTER_WRITE (14 R406 to R413, R428, R429; the register lists of the
other chapters). No command of the table reads a register except DBG_WTIME_LO_READ; `regRead` says what such a read returns. -/

namespace Sys2Proof.Machine

/-! ## Reading -/

/-- A field of value `x` and width `w` at bit `k` of a register. -/
def fld (k w x : Nat) : Nat := x % 2 ^ w * 2 ^ k

/-- A one-bit field. -/
def fldB (k : Nat) (b : Bool) : Nat := if b then 2 ^ k else 0

/-- A list of fields (lowest bit, width, value) as a register. -/
def word (fs : List (Nat × Nat × Nat)) : Nat := (fs.map fun f => fld f.1 f.2.1 f.2.2).sum

/-- The nth number of a list, 0 beyond it. -/
def nthNat (xs : List Nat) (n : Nat) : Nat := (xs[n]?).getD 0

/-- ID_ registers (14 R409). -/
def readId (d : Dev) (o : Nat) : Nat :=
  match o with
  | 0x00 => word [(16, 16, 0x4B52), (8, 8, d.fuses.step.toNat)]
  | 0x04 => if d.fw.ready then word [(24, 8, d.fw.line), (16, 8, d.fw.minor), (0, 16, d.fw.build)] else 0
  | 0x08 => 1
  | 0x0C => d.fuses.serial.toNat % 2 ^ 32
  | 0x10 => d.fuses.serial.toNat / 2 ^ 32
  | _ => 0

/-- HLY_CTRL, HLY_STAT and HLY_EVT_DROP (14 R412). -/
def readHly (d : Dev) (o : Nat) : Nat :=
  match o with
  | 0x00 => word [(1, 4, maskOf (d.hly.rings.map Ring.en))] + fldB 0 d.hly.en
  | 0x04 => fldB 31 d.fw.ready + fldB 30 (isSafe d) + fldB 29 d.hly.quiesced + fldB 28 d.hly.restPend
  | 0x08 => d.hly.evtDrop
  | _ => 0

/-- The block of a command ring (14 R413). -/
def readRing (r : Ring) (o : Nat) : Nat :=
  match o with
  | 0x00 => r.sqb.toNat % 2 ^ 32
  | 0x04 => r.sqb.toNat / 2 ^ 32
  | 0x08 => r.cqb.toNat % 2 ^ 32
  | 0x0C => r.cqb.toNat / 2 ^ 32
  | 0x10 => word [(16, 5, r.cqLog2), (0, 5, r.sqLog2)]
  | 0x14 => r.tail
  | 0x18 => r.head
  | 0x1C => r.cqHead
  | 0x20 => word [(16, 8, r.coalCount), (0, 16, r.coalTime)]
  | 0x24 => fldB 31 r.quiesced + fldB 30 r.restPend + fld 26 4 r.err
  | _ => 0

/-- The block of the event ring: it has no SQ registers and no HLY_COAL, and it starts and stops with the halyard (14 R413, R415;
DEDUCED, log entry 36). -/
def readEvt (d : Dev) (o : Nat) : Nat :=
  match o with
  | 0x08 => d.evt.base.toNat % 2 ^ 32
  | 0x0C => d.evt.base.toNat / 2 ^ 32
  | 0x10 => word [(16, 5, d.evt.log2)]
  | 0x1C => d.evt.head
  | 0x24 => fldB 31 d.hly.quiesced + fldB 30 d.hly.restPend + fld 26 4 d.evt.err
  | _ => 0

/-- IRQ_ registers (14 R428). -/
def readIrq (d : Dev) (o : Nat) : Nat :=
  match o with
  | 0x0 => d.irq.cause.toNat
  | 0x4 => d.irq.mask.toNat
  | 0x8 => d.irq.cls % 8
  | _ => 0

/-- CXL_G_STAT: the rate and width of the first bay with a link (14 R410; DEDUCED, log entry 36). -/
def readGStat (d : Dev) : Nat :=
  match d.gon.bays.find? fun b => decide (b.gen ≠ 0) with
  | none => 0
  | some b =>
    word [(29, 3, 4 - b.gen), (24, 5, b.linkW)] + fldB 23 (decide (2 ≤ b.gen)) + fldB 22 (d.gon.bays.any Bay.switched)
      + fldB 21 d.cxl.gIde

/-- CXL_ registers (14 R410). -/
def readCxl (d : Dev) (o : Nat) : Nat :=
  match o with
  | 0x00 =>
    word [(29, 3, d.cxl.hMode), (24, 5, d.cxl.hWidth)] + fldB 23 d.cxl.hFlit256 + fldB 22 d.cxl.hLopt + fldB 21 d.cxl.hCache
      + fldB 20 d.cxl.hMem + fldB 19 (!d.cxl.hIde.isEmpty) + fldB 18 d.cxl.hL0p
  | 0x04 => d.cxl.hRetry
  | 0x08 => d.cxl.hIdeFail
  | 0x0C => d.cxl.hdmBase % 2 ^ 32
  | 0x10 => word [(16, 9, d.cxl.hdmLen), (0, 16, d.cxl.hdmBase / 2 ^ 32)]
  | 0x20 => readGStat d
  | 0x24 => d.cxl.gRetry
  | _ => 0

/-- DBG_ registers (14 R411). -/
def readDbg (d : Dev) (o : Nat) : Nat :=
  match o with
  | 0x0 => fldB 31 d.dbg.tapKey + fldB 30 d.dbg.tapAny + fldB 29 d.dbg.tapNow
  | 0x4 => d.dbg.scratch.toNat
  | 0x8 => d.dbg.now % 2 ^ 32
  | 0xC => d.dbg.wtimeHi.toNat
  | _ => 0

/-- CRW_GEN_ registers and the counters of 0x0200 and 0x0300 (14 R408). -/
def readGen (d : Dev) (o : Nat) : Nat :=
  if o = 0x104 then d.gen.rsvdWr
  else if 0x200 ≤ o ∧ o < 0x2A0 then if groupAbsent d ((o - 0x200) / 4) then 0 else nthNat d.gen.stall ((o - 0x200) / 4)
  else if 0x300 ≤ o ∧ o < 0x3A0 then nthNat d.gen.pivTot ((o - 0x300) / 4)
  else 0

/-- CRW_NFLAG_CTX0 to CRW_NFLAG_CTX7 (02 R73). -/
def readNflag (d : Dev) (n : Nat) : Nat :=
  if n < 8 then word [(16, 8, nthNat d.nflag.first n), (0, 10, (hostFlags d.nflag n).toNat)] else 0

/-- Curvature registers (05 R190). -/
def readCurv (d : Dev) (o : Nat) : Nat :=
  match o with
  | 0x504 => d.curv.pub
  | 0x508 => d.curv.late
  | 0x50C => d.curv.skip
  | 0x510 => d.curv.aband
  | 0x514 => d.curv.rej
  | 0x518 => d.curv.tapRows
  | 0x51C => word [(16, 16, d.curv.staleSet), (0, 16, d.curv.stale)]
  | 0x520 => d.curv.gramReplay
  | _ => 0

/-- Solver registers (06 R220). -/
def readSolv (d : Dev) (o : Nat) : Nat :=
  match o with
  | 0x604 => d.solv.done
  | 0x608 => d.solv.dlStop
  | 0x60C => d.solv.overrun
  | 0x610 => d.solv.brk
  | 0x614 => d.solv.aband
  | 0x618 => d.solv.piv
  | 0x61C => d.solv.patch
  | 0x620 => d.solv.prej
  | 0x624 => d.solv.itLost
  | _ => 0

/-- Plan registers (07 R242). -/
def readPlan (d : Dev) (o : Nat) : Nat :=
  match o with
  | 0x704 =>
    word [(16, 16, d.plan.run.elim 0xFFFF fun r => r.body.variant)]
      + fldB 1 (d.plan.req.isSome || d.plan.latched.isSome || d.plan.stopping) + fldB 0 d.plan.run.isSome
  | 0x708 => d.plan.slip
  | 0x70C => d.plan.maxSlip
  | 0x710 => d.plan.late
  | 0x714 => d.plan.drop
  | 0x718 => d.plan.cont
  | 0x71C => d.plan.repl
  | _ => 0

/-- STATE code of a bay (08 R269). -/
def bayCode (b : BayState) : Nat :=
  match b with
  | .empty => 0
  | .training => 1
  | .online => 2
  | .draining => 3
  | .gone => 4

/-- CRW_GON_BAYb (08 R269). -/
def readBay (d : Dev) (n : Nat) : Nat :=
  match d.gon.bays[n]? with
  | none => 0
  | some b =>
    word [(29, 3, bayCode b.state), (21, 5, b.linkW), (18, 3, b.gen), (0, 14, b.cap)] + fldB 28 (b.restPend.isSome || b.restShow)
      + fldB 27 b.switched + fldB 26 (d.gon.il.any fun x => x.1.contains n)

/-- Memory registers (08 R269). -/
def readMemReg (d : Dev) (o : Nat) : Nat :=
  match o with
  | 0x804 => readBay d 0
  | 0x808 => readBay d 1
  | 0x80C => readBay d 2
  | 0x810 => readBay d 3
  | 0x814 => word [(0, 15, gonWin d)]
  | 0x818 => d.gon.tmo
  | 0x81C => d.gon.badRsp
  | 0x820 => d.gon.hotplug
  | 0x824 => d.gon.ledgerHold
  | 0x828 => d.gon.ledgerRestart
  | 0x82C => d.gon.hbmRemap
  | _ => 0

/-- STATE code of a tether port (09 R304). -/
def portCode (p : PortState) : Nat :=
  match p with
  | .off => 0
  | .training => 1
  | .up => 2
  | .swapping => 3
  | .down => 4

/-- CRW_TTH_PORTp (09 R304). -/
def readPort (p : Port) : Nat :=
  let xy := p.partner.getD (0, 0)
  word [(29, 3, p.dir), (26, 3, portCode p.state), (24, 2, p.rate), (19, 4, p.lanes.toNat), (12, 6, xy.1), (6, 6, xy.2)]
    + fldB 23 p.ballast + fldB 18 p.partner.isSome

/-- Tether registers (09 R304). -/
def readTth (d : Dev) (o : Nat) : Nat :=
  if o = 0x904 then d.tth.self % 2 ^ 24
  else if 0x908 ≤ o ∧ o < 0x948 then (d.tth.ports[(o - 0x908) / 4]?).elim 0 readPort
  else
    match o with
    | 0x948 => d.tth.retry
    | 0x94C => d.tth.lswap
    | 0x950 => d.tth.escape
    | 0x954 => d.tth.rejEpoch
    | 0x958 => d.tth.rejWindow
    | 0x95C => d.tth.rejOther
    | 0x960 => d.tth.tmo
    | 0x964 => d.tth.tsat
    | 0x968 => d.tth.accFlag.toNat
    | _ => 0

/-- Verdict registers (10 R333). -/
def readVrd (d : Dev) (o : Nat) : Nat :=
  match o with
  | 0xA04 => word [(30, 2, d.vrd.lastDec), (26, 4, d.vrd.lastCause), (10, 16, d.vrd.lastRank)]
  | 0xA08 => word [(16, 16, d.vrd.epoch), (0, 16, d.vrd.pending)]
  | 0xA0C => d.vrd.commits
  | 0xA10 => d.vrd.skips
  | 0xA14 => d.vrd.missing
  | 0xA18 => d.vrd.recon
  | 0xA1C => d.vrd.digest
  | 0xA20 => d.vrd.badRec
  | 0xA24 => d.vrd.time
  | _ => 0

/-- Snapshot registers; all ones mean none (11 R358). -/
def readSnap (d : Dev) (o : Nat) : Nat :=
  let ones := 2 ^ 64 - 1
  match o with
  | 0xB04 =>
    fldB 31 d.snap.drain.isSome + fldB 30 d.snap.restPend + fldB 29 d.snap.disabled
      + word [(26, 3, d.snap.drain.elim 0 Drain.ok), (0, 16, d.snap.interval)]
  | 0xB08 => d.snap.last.getD ones % 2 ^ 32
  | 0xB0C => d.snap.last.getD ones / 2 ^ 32 % 2 ^ 32
  | 0xB10 => d.snap.next.getD ones % 2 ^ 32
  | 0xB14 => d.snap.next.getD ones / 2 ^ 32 % 2 ^ 32
  | 0xB18 => d.snap.cost
  | 0xB1C => d.snap.mtbf
  | 0xB20 => d.snap.done
  | 0xB24 => d.snap.skip
  | 0xB28 => d.snap.abort
  | 0xB2C => d.snap.hold
  | 0xB30 => d.snap.genFix
  | 0xB34 => d.snap.restore
  | 0xB38 => d.snap.tackLoss
  | _ => 0

/-- STATE code of a weight slot (12 R379). -/
def slotCode (s : SlotState) : Nat :=
  match s with
  | .empty => 0
  | .loading => 1
  | .ready => 2
  | .current => 3
  | .retiring => 4

/-- CRW_WGT_BSLOTk and CRW_WGT_ASLOTk (12 R379). -/
def readWSlot (s : WSlot) : Nat :=
  word [(29, 3, slotCode s.state), (24, 4, s.result), (12, 12, maskOf ((List.range 12).map s.bad.contains))] + fldB 28 s.priv

/-- CRW_WGT_EPOCH (12 R379). -/
def readEpoch (w : Wgt) : Nat :=
  let c := w.cur.getD (0, 0)
  let p := w.pend.getD (0, 0, 0)
  word [(16, 16, w.epoch), (10, 2, c.1), (8, 2, c.2), (6, 2, p.1), (4, 2, p.2.1)] + fldB 12 w.pend.isSome + fldB 3 w.cur.isNone

/-- Weight registers (12 R379). -/
def readWgt (d : Dev) (o : Nat) : Nat :=
  if o = 0xC04 then readEpoch d.wgt
  else if 0xC08 ≤ o ∧ o < 0xC18 then (d.wgt.base[(o - 0xC08) / 4]?).elim 0 readWSlot
  else if 0xC18 ≤ o ∧ o < 0xC28 then (d.wgt.adapter[(o - 0xC18) / 4]?).elim 0 readWSlot
  else
    match o with
    | 0xC28 => d.wgt.chunks
    | 0xC2C => d.wgt.tagFail
    | 0xC30 => d.wgt.digFail
    | 0xC34 => d.wgt.scrubFail
    | 0xC38 => d.wgt.refetch
    | 0xC3C => d.wgt.switches
    | 0xC40 => d.wgt.sealRd
    | _ => 0

/-- CRW_BAL_LEFT (13 R395). -/
def readBal (i : Integ) : Nat :=
  word [(28, 4, (i.balArrays.filter id).length), (26, 2, (i.balGrams.filter id).length), (22, 4, maskOf i.balLanes),
    (20, 2, i.balBanks)] + fldB 19 i.balCore

/-- Integrity registers (13 R385, R395). -/
def readInt (d : Dev) (o : Nat) : Nat :=
  let i := d.integ
  if 0xD40 ≤ o ∧ o < 0xD60 then
    (i.buckets[(o - 0xD40) / 4]?).elim 0 fun b => word [(16, 8, b.thresh), (0, 16, b.leak)]
  else
    match o with
    | 0xD04 => i.corr
    | 0xD08 => i.deferred
    | 0xD0C => i.ue
    | 0xD10 => i.parReplay
    | 0xD14 => i.bktOvf
    | 0xD18 => i.rowRetire
    | 0xD1C => fldB 31 i.scrubEn + word [(16, 12, i.rateH), (0, 12, i.rateS)]
    | 0xD20 =>
      fldB 31 i.scrubPend + fldB 30 (scrubActive d) + fldB 29 i.behind
        + word [(9, 9, d.ecc.prioH.length), (0, 9, d.ecc.prioS.length)]
    | 0xD24 => i.passS
    | 0xD28 => i.passH
    | 0xD2C => readBal i
    | 0xD30 => word [(30, 2, if i.bistRun then 1 else 0), (27, 3, i.bistResult), (0, 16, i.bistSite)]
    | _ => 0

/-- CRW_PWR_STATE (15 R459). -/
def readPwrState (d : Dev) : Nat :=
  let p := d.pwr
  let clk := if d.gpwr.all fun g => decide (g.state = .off) then 0 else p.clk
  word [(30, 2, p.reef), (28, 2, p.host), (26, 2, p.pins), (24, 2, p.therm), (16, 8, clk), (10, 6, p.vid), (0, 8, p.cause)]
    + fldB 9 (decide (p.hold ≠ 0)) + fldB 8 p.ceilLow

/-- Power registers (15 R459). -/
def readPwr (d : Dev) (o : Nat) : Nat :=
  let off := maskOf (d.gpwr.map fun g => decide (g.state = .off))
  let pend := maskOf (d.gpwr.map GroupPwr.pend)
  match o with
  | 0xE04 => readPwrState d
  | 0xE08 => word [(16, 16, d.pwr.watts), (0, 16, d.pwr.peak)]
  | 0xE0C => word [(16, 16, d.pwr.tj.toNat), (8, 8, d.pwr.sensor)]
  | 0xE10 => off % 2 ^ 32
  | 0xE14 => off / 2 ^ 32 % 256
  | 0xE18 => pend % 2 ^ 32
  | 0xE1C => pend / 2 ^ 32 % 256
  | 0xE20 => d.pwr.sgLate
  | 0xE24 => d.pwr.clamps
  | 0xE28 => d.pwr.reefch
  | _ => 0

/-- The crow's nest, by offset from its base (14 R408; the register lists of the other chapters). -/
def readCrw (d : Dev) (o : Nat) : Nat :=
  if o < 0x400 then readGen d o
  else if o < 0x500 then readNflag d ((o - 0x400) / 4)
  else if o < 0x600 then readCurv d o
  else if o < 0x700 then readSolv d o
  else if o < 0x800 then readPlan d o
  else if o < 0x900 then readMemReg d o
  else if o < 0xA00 then readTth d o
  else if o < 0xB00 then readVrd d o
  else if o < 0xC00 then readSnap d o
  else if o < 0xD00 then readWgt d o
  else if o < 0xE00 then readInt d o
  else if o < 0xF00 then readPwr d o
  else 0

/-- The register that a read of BAR0 at byte offset `off` returns: the word that contains it (14 R406, R407). -/
def regRead (d : Dev) (off : Nat) : Nat :=
  let o := off / 4 * 4
  if o < 0x1000 then readId d o
  else if o < 0x1100 then readHly d (o - 0x1000)
  else if o < 0x1200 then (d.hly.rings[(o - 0x1100) / 0x40]?).elim 0 fun r => readRing r ((o - 0x1100) % 0x40)
  else if o < 0x1240 then readEvt d (o - 0x1200)
  else if o < 0x2000 then 0
  else if o < 0x3000 then readIrq d (o - 0x2000)
  else if o < 0x4000 then readCxl d (o - 0x3000)
  else if o < 0x5000 then readDbg d (o - 0x4000)
  else if o < 0x10000 then 0
  else if o < 0x20000 then readCrw d (o - 0x10000)
  else if o < 0x20100 then (d.irq.table.get ((o - 0x20000) / 4)).toNat
  else if o = 0x21000 then d.irq.pba.toNat
  else 0

/-! ## Writing -/

/-- A write that is ignored and counted, or a reserved code: CRW_RSVD_WR rises (00 R16; 14 R407, R413). -/
def rsvdWrite (d : Dev) : Dev := { d with gen := { d.gen with rsvdWr := satAdd d.gen.rsvdWr 1 } }

/-- Bits [31:0] of a 64-bit register. -/
def setLo (x : W64) (w : W32) : W64 := BitVec.ofNat 64 (x.toNat / 2 ^ 32 * 2 ^ 32 + w.toNat)

/-- Bits [63:32] of a 64-bit register. -/
def setHi (x : W64) (w : W32) : W64 := BitVec.ofNat 64 (w.toNat * 2 ^ 32 + x.toNat % 2 ^ 32)

/-- HLY_CTRL: EN, then each RING_EN bit that changes (14 R412, R414, R415). -/
def writeHlyCtrl (w : W32) (d : Dev) : Dev :=
  let d := if w.getLsbD 0 then halyardEnableDev d else halyardDisable d
  (List.range 4).foldl (fun d n =>
    match ringAt d n with
    | some r =>
      if w.getLsbD (n + 1) = r.en then d else if w.getLsbD (n + 1) then ringEnableDev n d else ringDisable n d
    | none => d) d

/-- A size code that HLY_SIZE stores (14 R413). -/
def sizeOk (c : Nat) : Bool := decide (4 ≤ c) && decide (c ≤ 16)

/-- HLY_SIZE of ring `n`: a code outside 4 to 16 is not stored, and counts (14 R413; 00 R16). -/
def writeSize (n : Nat) (w : W32) (d : Dev) : Dev :=
  let cq := bits w.toNat 20 16
  let sq := bits w.toNat 4 0
  let d := if sizeOk cq then modRing n (fun r => { r with cqLog2 := cq }) d else rsvdWrite d
  if sizeOk sq then modRing n (fun r => { r with sqLog2 := sq }) d else rsvdWrite d

/-- HLY_SIZE of the event ring (14 R413). -/
def writeEvtSize (w : W32) (d : Dev) : Dev :=
  let cq := bits w.toNat 20 16
  if sizeOk cq then { d with evt := { d.evt with log2 := cq } } else rsvdWrite d

/-- HLY_COAL of ring `n`: a COUNT of 0 is read as 1 (14 R413). -/
def writeCoal (n : Nat) (w : W32) (d : Dev) : Dev :=
  modRing n (fun r => { r with coalCount := max 1 (bits w.toNat 23 16), coalTime := bits w.toNat 15 0 }) d

/-- A write to a base, size or coalescing register: taken only while the ring is disabled and quiesced, else ignored and
counted (14 R413). -/
def whileOff (off : Bool) (f : Dev → Dev) (d : Dev) : Dev := if off then f d else rsvdWrite d

/-- The block of command ring `n` (14 R413). -/
def writeRing (n o : Nat) (w : W32) (d : Dev) : Dev :=
  let off := (ringAt d n).any fun r => !r.en && r.quiesced
  match o with
  | 0x00 => whileOff off (modRing n fun r => { r with sqb := setLo r.sqb w }) d
  | 0x04 => whileOff off (modRing n fun r => { r with sqb := setHi r.sqb w }) d
  | 0x08 => whileOff off (modRing n fun r => { r with cqb := setLo r.cqb w }) d
  | 0x0C => whileOff off (modRing n fun r => { r with cqb := setHi r.cqb w }) d
  | 0x10 => whileOff off (writeSize n w) d
  | 0x14 => doorbellDev n (bits w.toNat 15 0) d
  | 0x1C => cqHeadDev n (bits w.toNat 15 0) d
  | 0x20 => whileOff off (writeCoal n w) d
  | _ => d

/-- The block of the event ring (14 R413). -/
def writeEvt (o : Nat) (w : W32) (d : Dev) : Dev :=
  let off := !d.hly.en && d.hly.quiesced
  match o with
  | 0x08 => whileOff off (fun d => { d with evt := { d.evt with base := setLo d.evt.base w } }) d
  | 0x0C => whileOff off (fun d => { d with evt := { d.evt with base := setHi d.evt.base w } }) d
  | 0x10 => whileOff off (writeEvtSize w) d
  | 0x1C => evtHeadDev (bits w.toNat 15 0) d
  | _ => d

/-- IRQ_ registers (14 R428). -/
def writeIrq (o : Nat) (w : W32) (d : Dev) : Dev :=
  match o with
  | 0x0 => causeClearDev w 0 d
  | 0x4 => maskWriteDev w d
  | 0x8 => { d with irq := { d.irq with cls := w.toNat % 8 } }
  | _ => d

/-- CRW_SCRUB_CTRL: the two rates, and EN (13 R389, R395). -/
def writeScrub (w : W32) (d : Dev) : Dev :=
  let d := { d with integ := { d.integ with rateH := bits w.toNat 27 16, rateS := bits w.toNat 11 0 } }
  if w.getLsbD 31 then scrubEnableDev d else scrubDisableDev d

/-- The crow's nest: its CTRL registers, flags, CRW_SCRUB_CTRL and CRW_BKT_CFGn take writes; every other register is read-only
(02 R73; 05 R190; 06 R220; 07 R242; 08 R269; 09 R304; 10 R333; 11 R358; 12 R379; 13 R385, R395; 14 R408; 15 R459). -/
def writeCrw (o : Nat) (w : W32) (d : Dev) : Dev :=
  if 0x400 ≤ o ∧ o < 0x420 then { d with nflag := d.nflag.hostClear d.dbg.now ((o - 0x400) / 4) w [] }
  else if 0xD40 ≤ o ∧ o < 0xD60 then bktCfgDev ((o - 0xD40) / 4) w d
  else
    match o with
    | 0x100 => ifClr w clrGen d
    | 0x500 => ifClr w clrCurv d
    | 0x600 => ifClr w clrSolv d
    | 0x700 => ifClr w clrPlan d
    | 0x800 => ifClr w clrMem d
    | 0x900 => ifClr w clrTth d
    | 0x968 => accflagClearDev w 0 d
    | 0xA00 => ifClr w clrVrd d
    | 0xB00 => ifClr w clrSnap d
    | 0xC00 => ifClr w clrWgt d
    | 0xD00 => ifClr w clrInt d
    | 0xD1C => writeScrub w d
    | 0xE00 => ifClr w clrPwr d
    | _ => d

/-- Word `k` of the MSI-X table; clearing the mask bit of a vector unmasks it (14 R406, R429). -/
def writeMsix (k : Nat) (w : W32) (d : Dev) : Dev :=
  if k % 4 = 3 then
    if w.getLsbD 0 then { d with irq := { d.irq with table := d.irq.table.set k 1 } } else msixUnmaskDev (k / 4) d
  else { d with irq := { d.irq with table := d.irq.table.set k w } }

/-- An aligned 32-bit write to BAR0: read-only registers and offsets with no register ignore it (14 R406, R407; 00 R15). -/
def writeWord (o : Nat) (w : W32) (d : Dev) : Dev :=
  if o = 0x1000 then writeHlyCtrl w d
  else if 0x1100 ≤ o ∧ o < 0x1200 then writeRing ((o - 0x1100) / 0x40) ((o - 0x1100) % 0x40) w d
  else if 0x1200 ≤ o ∧ o < 0x1240 then writeEvt (o - 0x1200) w d
  else if 0x2000 ≤ o ∧ o < 0x3000 then writeIrq (o - 0x2000) w d
  else if o = 0x4004 then { d with dbg := { d.dbg with scratch := w } }
  else if 0x10000 ≤ o ∧ o < 0x20000 then writeCrw (o - 0x10000) w d
  else if 0x20000 ≤ o ∧ o < 0x20100 then writeMsix ((o - 0x20000) / 4) w d
  else d

/-- A write to BAR0: one that is not an aligned 32-bit word is completed, ignored and counted (14 R407). -/
def regWriteDev (off : Nat) (w : W32) (bytes : Nat) (d : Dev) : Dev :=
  if 0x100000 ≤ off then d
  else if bytes = 4 ∧ off % 4 = 0 then writeWord off w d
  else rsvdWrite d

/-- REGISTER_WRITE (14 R407). -/
def execRegisterWrite (off : Nat) (w : W32) (bytes : Nat) (s : State) : Out := onDev (regWriteDev off w bytes) s

end Sys2Proof.Machine
end

