-- ==== Sys2Proof/Machine/Dispatch.lean ====
section
/-! DEFINITION. One arm per command, each one call of its meaning. -/

namespace Sys2Proof.Machine

def exec (i : Instr) (s : State) : Host.Outcome State Fault Refusal :=
  match i with
  | .powerOnReset => Sys2Proof.Machine.execPowerOnReset s
  | .resetNRelease selfCheckOk => Sys2Proof.Machine.execResetNRelease selfCheckOk s
  | .pwrokRise b => Sys2Proof.Machine.execPwrokRise b s
  | .portTrainingComplete p r => Sys2Proof.Machine.execPortTrainingComplete p r s
  | .pwrokTimeout => Sys2Proof.Machine.execPwrokTimeout s
  | .pwrokFall => Sys2Proof.Machine.execPwrokFall s
  | .railMonitorTrip r => Sys2Proof.Machine.execRailMonitorTrip r s
  | .vddaoLoss => Sys2Proof.Machine.execVddaoLoss s
  | .reefReqChange v => Sys2Proof.Machine.execReefReqChange v s
  | .thermalRequestChange t => Sys2Proof.Machine.execThermalRequestChange t s
  | .thermalTrip t => Sys2Proof.Machine.execThermalTrip t s
  | .governorStepDown watts => Sys2Proof.Machine.execGovernorStepDown watts s
  | .governorStepUp watts => Sys2Proof.Machine.execGovernorStepUp watts s
  | .fastClamp estimate => Sys2Proof.Machine.execFastClamp estimate s
  | .fastClampEnd => Sys2Proof.Machine.execFastClampEnd s
  | .vidSettleClockRise => Sys2Proof.Machine.execVidSettleClockRise s
  | .sparGroupIdle g => Sys2Proof.Machine.execSparGroupIdle g s
  | .sleepMark g => Sys2Proof.Machine.execSleepMark g s
  | .wakeMark g => Sys2Proof.Machine.execWakeMark g s
  | .sparGroupPowerDownDone g => Sys2Proof.Machine.execSparGroupPowerDownDone g s
  | .sparGroupRun g => Sys2Proof.Machine.execSparGroupRun g s
  | .corePowerGate c => Sys2Proof.Machine.execCorePowerGate c s
  | .portHLinkUp l => Sys2Proof.Machine.execPortHLinkUp l s
  | .halyardReset => Sys2Proof.Machine.execHalyardReset s
  | .portHLinkDown => Sys2Proof.Machine.execPortHLinkDown s
  | .halyardEnable => Sys2Proof.Machine.execHalyardEnable s
  | .halyardShutDown => Sys2Proof.Machine.execHalyardShutDown s
  | .ringEnable n => Sys2Proof.Machine.execRingEnable n s
  | .ringShutDown n => Sys2Proof.Machine.execRingShutDown n s
  | .shutDownComplete n => Sys2Proof.Machine.execShutDownComplete n s
  | .doorbell n tail => Sys2Proof.Machine.execDoorbell n tail s
  | .commandFetch n d => Sys2Proof.Machine.execCommandFetch n d s
  | .cqHeadWrite n head => Sys2Proof.Machine.execCqHeadWrite n head s
  | .eventRingHeadWrite head => Sys2Proof.Machine.execEventRingHeadWrite head s
  | .coalescingTimer n => Sys2Proof.Machine.execCoalescingTimer n s
  | .msixUnmask v => Sys2Proof.Machine.execMsixUnmask v s
  | .irqCauseClear w hw => Sys2Proof.Machine.execIrqCauseClear w hw s
  | .irqMaskWrite w => Sys2Proof.Machine.execIrqMaskWrite w s
  | .dbgWtimeLoRead => Sys2Proof.Machine.execDbgWtimeLoRead s
  | .nflagClear c w hw => Sys2Proof.Machine.execNflagClear c w hw s
  | .accflagClear w hw => Sys2Proof.Machine.execAccflagClear w hw s
  | .crwGenCtrlClr w => Sys2Proof.Machine.execCrwGenCtrlClr w s
  | .crwCurvCtrlClr w => Sys2Proof.Machine.execCrwCurvCtrlClr w s
  | .crwSolvCtrlClr w => Sys2Proof.Machine.execCrwSolvCtrlClr w s
  | .crwPlanCtrlClr w => Sys2Proof.Machine.execCrwPlanCtrlClr w s
  | .crwMemCtrlClr w => Sys2Proof.Machine.execCrwMemCtrlClr w s
  | .crwTthCtrlClr w => Sys2Proof.Machine.execCrwTthCtrlClr w s
  | .crwVrdCtrlClr w => Sys2Proof.Machine.execCrwVrdCtrlClr w s
  | .crwSnapCtrlClr w => Sys2Proof.Machine.execCrwSnapCtrlClr w s
  | .crwWgtCtrlClr w => Sys2Proof.Machine.execCrwWgtCtrlClr w s
  | .crwIntCtrlClr w => Sys2Proof.Machine.execCrwIntCtrlClr w s
  | .crwPwrCtrlClr w => Sys2Proof.Machine.execCrwPwrCtrlClr w s
  | .scrubEnable => Sys2Proof.Machine.execScrubEnable s
  | .scrubDisable => Sys2Proof.Machine.execScrubDisable s
  | .bktCfgWrite n w => Sys2Proof.Machine.execBktCfgWrite n w s
  | .registerWrite off w bytes => Sys2Proof.Machine.execRegisterWrite off w bytes s
  | .nop c => Sys2Proof.Machine.execNop c s
  | .discover c => Sys2Proof.Machine.execDiscover c s
  | .nflagRead c => Sys2Proof.Machine.execNflagRead c s
  | .counterRead c => Sys2Proof.Machine.execCounterRead c s
  | .repairRead c => Sys2Proof.Machine.execRepairRead c s
  | .memRead c => Sys2Proof.Machine.execMemRead c s
  | .memWrite c buf => Sys2Proof.Machine.execMemWrite c buf s
  | .planLoad c buf => Sys2Proof.Machine.execPlanLoad c buf s
  | .planAdmit c now => Sys2Proof.Machine.execPlanAdmit c now s
  | .planReplace c => Sys2Proof.Machine.execPlanReplace c s
  | .planStop c => Sys2Proof.Machine.execPlanStop c s
  | .patchPost c buf => Sys2Proof.Machine.execPatchPost c buf s
  | .permHostDone c => Sys2Proof.Machine.execPermHostDone c s
  | .snapSetBounds c => Sys2Proof.Machine.execSnapSetBounds c s
  | .snapForcePoint c => Sys2Proof.Machine.execSnapForcePoint c s
  | .snapDisable c => Sys2Proof.Machine.execSnapDisable c s
  | .snapEnable c => Sys2Proof.Machine.execSnapEnable c s
  | .snapHostWindow c => Sys2Proof.Machine.execSnapHostWindow c s
  | .snapRestore c src now => Sys2Proof.Machine.execSnapRestore c src now s
  | .wgtOpen c pub => Sys2Proof.Machine.execWgtOpen c pub s
  | .wgtKey c k m => Sys2Proof.Machine.execWgtKey c k m s
  | .wgtChunks c chunks => Sys2Proof.Machine.execWgtChunks c chunks s
  | .wgtClose c => Sys2Proof.Machine.execWgtClose c s
  | .wgtSwitch c => Sys2Proof.Machine.execWgtSwitch c s
  | .pubKeyEnrol c key => Sys2Proof.Machine.execPubKeyEnrol c key s
  | .pubKeyClear c => Sys2Proof.Machine.execPubKeyClear c s
  | .digestPeriod c => Sys2Proof.Machine.execDigestPeriod c s
  | .gonConfigure c => Sys2Proof.Machine.execGonConfigure c s
  | .gonRemove c => Sys2Proof.Machine.execGonRemove c s
  | .ballastRotate c => Sys2Proof.Machine.execBallastRotate c s
  | .bistRun c => Sys2Proof.Machine.execBistRun c s
  | .hdmMap c => Sys2Proof.Machine.execHdmMap c s
  | .reefSet c => Sys2Proof.Machine.execReefSet c s
  | .powerRead c => Sys2Proof.Machine.execPowerRead c s
  | .calRead c => Sys2Proof.Machine.execCalRead c s
  | .calWrite c rec => Sys2Proof.Machine.execCalWrite c rec s
  | .attest c => Sys2Proof.Machine.execAttest c s
  | .identCert c => Sys2Proof.Machine.execIdentCert c s
  | .flashWrite c img => Sys2Proof.Machine.execFlashWrite c img s
  | .bootSelect c => Sys2Proof.Machine.execBootSelect c s
  | .bootSelectCommitSvn c => Sys2Proof.Machine.execBootSelectCommitSvn c s
  | .safeInfo c => Sys2Proof.Machine.execSafeInfo c s
  | .deviceReset c => Sys2Proof.Machine.execDeviceReset c s
  | .hdmHostRead off len => Sys2Proof.Machine.execHdmHostRead off len s
  | .hdmHostWrite off data => Sys2Proof.Machine.execHdmHostWrite off data s
  | .shroudWindowWrite off data => Sys2Proof.Machine.execShroudWindowWrite off data s
  | .scanChainEnable ch => Sys2Proof.Machine.execScanChainEnable ch s
  | .stepStart now => Sys2Proof.Machine.execStepStart now s
  | .admissionBarrierTimeout => Sys2Proof.Machine.execAdmissionBarrierTimeout s
  | .stepWatchdog => Sys2Proof.Machine.execStepWatchdog s
  | .arraySlot seq carry => Sys2Proof.Machine.execArraySlot seq carry s
  | .weightLoadComplete a waited => Sys2Proof.Machine.execWeightLoadComplete a waited s
  | .tileClaim a => Sys2Proof.Machine.execTileClaim a s
  | .tileSeal a => Sys2Proof.Machine.execTileSeal a s
  | .arrayReplay a p rows => Sys2Proof.Machine.execArrayReplay a p rows s
  | .mainArraySwap a => Sys2Proof.Machine.execMainArraySwap a s
  | .gramSlot seq => Sys2Proof.Machine.execGramSlot seq s
  | .gramReplay g again => Sys2Proof.Machine.execGramReplay g again s
  | .vblockSlot b => Sys2Proof.Machine.execVblockSlot b s
  | .add u f => Sys2Proof.Machine.execAdd u f s
  | .sub u f => Sys2Proof.Machine.execSub u f s
  | .mul u f => Sys2Proof.Machine.execMul u f s
  | .fma u f => Sys2Proof.Machine.execFma u f s
  | .fnma u f => Sys2Proof.Machine.execFnma u f s
  | .min u f => Sys2Proof.Machine.execMin u f s
  | .max u f => Sys2Proof.Machine.execMax u f s
  | .abs u f => Sys2Proof.Machine.execAbs u f s
  | .neg u f => Sys2Proof.Machine.execNeg u f s
  | .div u f => Sys2Proof.Machine.execDiv u f s
  | .sqrt u f => Sys2Proof.Machine.execSqrt u f s
  | .rsqrt u f => Sys2Proof.Machine.execRsqrt u f s
  | .recip u f => Sys2Proof.Machine.execRecip u f s
  | .exp2 u f => Sys2Proof.Machine.execExp2 u f s
  | .log2 u f => Sys2Proof.Machine.execLog2 u f s
  | .cvt u f srcFmt d => Sys2Proof.Machine.execCvt u f srcFmt d s
  | .sum u f => Sys2Proof.Machine.execSum u f s
  | .sumsq u f => Sys2Proof.Machine.execSumsq u f s
  | .redMax u f => Sys2Proof.Machine.execRedMax u f s
  | .redMin u f => Sys2Proof.Machine.execRedMin u f s
  | .amax u f => Sys2Proof.Machine.execAmax u f s
  | .perm u f => Sys2Proof.Machine.execPerm u f s
  | .scat u f => Sys2Proof.Machine.execScat u f s
  | .scatadd u f => Sys2Proof.Machine.execScatadd u f s
  | .cgath u f => Sys2Proof.Machine.execCgath u f s
  | .rbcast u f => Sys2Proof.Machine.execRbcast u f s
  | .cbcast u f => Sys2Proof.Machine.execCbcast u f s
  | .xpose u f => Sys2Proof.Machine.execXpose u f s
  | .selSmallest u f => Sys2Proof.Machine.execSelSmallest u f s
  | .selLargest u f => Sys2Proof.Machine.execSelLargest u f s
  | .lu u f => Sys2Proof.Machine.execLu u f s
  | .chol u f => Sys2Proof.Machine.execChol u f s
  | .gjinv u f => Sys2Proof.Machine.execGjinv u f s
  | .trinv u f => Sys2Proof.Machine.execTrinv u f s
  | .ld u f ext => Sys2Proof.Machine.execLd u f ext s
  | .st u f ext d => Sys2Proof.Machine.execSt u f ext d s
  | .lds u f ext => Sys2Proof.Machine.execLds u f ext s
  | .gath u f ext => Sys2Proof.Machine.execGath u f ext s
  | .setvl u f => Sys2Proof.Machine.execSetvl u f s
  | .pop u f => Sys2Proof.Machine.execPop u f s
  | .ckpt u f => Sys2Proof.Machine.execCkpt u f s
  | .ctrlNop u f => Sys2Proof.Machine.execCtrlNop u f s
  | .vectorBlockRestart u buf row rowBad => Sys2Proof.Machine.execVectorBlockRestart u buf row rowBad s
  | .queueEntryReplay u q row rowBad => Sys2Proof.Machine.execQueueEntryReplay u q row rowBad s
  | .xferSlot seq => Sys2Proof.Machine.execXferSlot seq s
  | .xferComplete seq => Sys2Proof.Machine.execXferComplete seq s
  | .waitSlot seq now => Sys2Proof.Machine.execWaitSlot seq now s
  | .fenceSlot seq => Sys2Proof.Machine.execFenceSlot seq s
  | .putIssue seq => Sys2Proof.Machine.execPutIssue seq s
  | .getIssue seq => Sys2Proof.Machine.execGetIssue seq s
  | .accumulateIssue seq => Sys2Proof.Machine.execAccumulateIssue seq s
  | .signalIssue seq => Sys2Proof.Machine.execSignalIssue seq s
  | .putReceive port h data => Sys2Proof.Machine.execPutReceive port h data s
  | .getReceive port h => Sys2Proof.Machine.execGetReceive port h s
  | .accumulateReceive port h data => Sys2Proof.Machine.execAccumulateReceive port h data s
  | .signalReceive port h => Sys2Proof.Machine.execSignalReceive port h s
  | .getRespReceive h data => Sys2Proof.Machine.execGetRespReceive h data s
  | .ackReceive h => Sys2Proof.Machine.execAckReceive h s
  | .nackReceive h => Sys2Proof.Machine.execNackReceive h s
  | .meshTransit h data => Sys2Proof.Machine.execMeshTransit h data s
  | .messageTimeout tag => Sys2Proof.Machine.execMessageTimeout tag s
  | .linkReplay port => Sys2Proof.Machine.execLinkReplay port s
  | .laneFailure lane ballastTrains partnerFree => Sys2Proof.Machine.execLaneFailure lane ballastTrains partnerFree s
  | .partnerGone port => Sys2Proof.Machine.execPartnerGone port s
  | .patchPoint id now build => Sys2Proof.Machine.execPatchPoint id now build s
  | .solveSlot seq now => Sys2Proof.Machine.execSolveSlot seq now s
  | .solveScheduledStart id now => Sys2Proof.Machine.execSolveScheduledStart id now s
  | .solveStop id e => Sys2Proof.Machine.execSolveStop id e s
  | .haloTimeout h => Sys2Proof.Machine.execHaloTimeout h s
  | .rootSlot seq => Sys2Proof.Machine.execRootSlot seq s
  | .rootCheck set blk lost => Sys2Proof.Machine.execRootCheck set blk lost s
  | .refreshAbandon set => Sys2Proof.Machine.execRefreshAbandon set s
  | .publicationPoint seq => Sys2Proof.Machine.execPublicationPoint seq s
  | .flagFold seq => Sys2Proof.Machine.execFlagFold seq s
  | .stepEnd seq => Sys2Proof.Machine.execStepEnd seq s
  | .verdictPoint now => Sys2Proof.Machine.execVerdictPoint now s
  | .voteCast now => Sys2Proof.Machine.execVoteCast now s
  | .votesGathered now => Sys2Proof.Machine.execVotesGathered now s
  | .voteDeadline now => Sys2Proof.Machine.execVoteDeadline now s
  | .sealsGathered now => Sys2Proof.Machine.execSealsGathered now s
  | .sealTimeout now => Sys2Proof.Machine.execSealTimeout now s
  | .reconcileGathered now => Sys2Proof.Machine.execReconcileGathered now s
  | .reconcileTimeout now => Sys2Proof.Machine.execReconcileTimeout now s
  | .snapshotComplete c => Sys2Proof.Machine.execSnapshotComplete c s
  | .intervalCompute m => Sys2Proof.Machine.execIntervalCompute m s
  | .inventoryComplete hostSlots => Sys2Proof.Machine.execInventoryComplete hostSlots s
  | .inventoryTimeout => Sys2Proof.Machine.execInventoryTimeout s
  | .permutationComplete => Sys2Proof.Machine.execPermutationComplete s
  | .sweepComplete shard => Sys2Proof.Machine.execSweepComplete shard s
  | .pseudoChannelFailure stack pc => Sys2Proof.Machine.execPseudoChannelFailure stack pc s
  | .gondolaDevicePresence d => Sys2Proof.Machine.execGondolaDevicePresence d s
  | .bayTrainingComplete b ok => Sys2Proof.Machine.execBayTrainingComplete b ok s
  | .bayDrainComplete b => Sys2Proof.Machine.execBayDrainComplete b s
  | .gondolaReadTimeout e => Sys2Proof.Machine.execGondolaReadTimeout e s
  | .gondolaBadCompletion e wrote => Sys2Proof.Machine.execGondolaBadCompletion e wrote s
  | .portGLinkDown b => Sys2Proof.Machine.execPortGLinkDown b s
  | .scrubLine line find => Sys2Proof.Machine.execScrubLine line find s
  | .correctiveWriteBack line => Sys2Proof.Machine.execCorrectiveWriteBack line s
  | .bucketLeakTick n => Sys2Proof.Machine.execBucketLeakTick n s
  | .bankMigrationComplete b => Sys2Proof.Machine.execBankMigrationComplete b s
  | .bankFailure b => Sys2Proof.Machine.execBankFailure b s
  | .coreHeartbeatMiss c => Sys2Proof.Machine.execCoreHeartbeatMiss c s
  | .bistComplete pass sig => Sys2Proof.Machine.execBistComplete pass sig s
  | .bistBudgetExpiry => Sys2Proof.Machine.execBistBudgetExpiry s
  | .weightFetchResponse session ch => Sys2Proof.Machine.execWeightFetchResponse session ch s
  | .weightFetchTimeout session => Sys2Proof.Machine.execWeightFetchTimeout session s
  | .digestScrub bad => Sys2Proof.Machine.execDigestScrub bad s
  | .reefClockStep => Sys2Proof.Machine.execReefClockStep s
  | .cxlLinkRetry portG => Sys2Proof.Machine.execCxlLinkRetry portG s
  | .ideIntegrityFailure => Sys2Proof.Machine.execIdeIntegrityFailure s
  | .doeRequest d => Sys2Proof.Machine.execDoeRequest d s
  | .l0pChange reduced => Sys2Proof.Machine.execL0pChange reduced s
  | .gondolaViral b => Sys2Proof.Machine.execGondolaViral b s
  | .linkControlBallastNotice dir => Sys2Proof.Machine.execLinkControlBallastNotice dir s
  | .zeroingComplete => Sys2Proof.Machine.execZeroingComplete s

end Sys2Proof.Machine
end

