-- ==== Sys2Proof/Machine/Tick.lean ====
section
/-! DEFINITION. What a watch cycle does when no command waits (14 R411; DESIGN CHOICE, log entry 38). -/

namespace Sys2Proof.Machine

/-- The watch clock runs: the watch domain is powered and out of reset (15 R434, R440). -/
def watchRuns (d : Dev) : Bool := d.pins.vddao && d.pins.resetN

/-- One watch cycle passes while no command waits: the watch counter and the counters of cycles spent waiting advance. In reset, or
without power, the block idles. -/
def tick (s : State) : Out := .next { s with dev := if watchRuns s.dev then timePasses 1 s.dev else s.dev }

end Sys2Proof.Machine
end

