-- ==== Sys2Proof/WellFormed.lean ====
section
/-! DEFINITION. Which commands are well formed: every operand within the width or the range that the rules give it. The meanings
are total, so an ill-formed command has a meaning too (log entry 37). -/

namespace Sys2Proof

/-- A ring number and a TAG (14 R412, R418). -/
def wfCmd (c : CmdRef) : Bool := decide (c.ring < 4) && decide (c.tag < 65536)

/-- A spar group and a context (04 R112, R117). -/
def wfUse (u : VUse) : Bool := decide (u.group < 40) && decide (u.ctx < 8)

/-- The fields of an instruction word fit their widths (04 R122). -/
def wfFields (f : VFields) : Bool :=
  decide (f.type < 4) && decide (f.dst < 16) && decide (f.a < 16) && decide (f.b < 16) && decide (f.c < 16)
    && decide (f.row0 < 128) && decide (f.rowsM1 < 128) && decide (f.scal < 32) && decide (f.imm < 65536)

/-- The fields of a message header fit their widths (09 R285). -/
def wfHdr (h : WireHdr) : Bool :=
  decide (h.opc < 16) && decide (h.accOp < 4) && decide (h.fmt < 16) && decide (h.vc < 4) && decide (h.tally < 4096)
    && decide (h.lenM1 < 8192) && decide (h.srcNode < 2 ^ 24) && decide (h.dstNode < 2 ^ 24) && decide (h.srcRank < 65536)
    && decide (h.dstRank < 65536) && decide (h.lepoch < 65536) && decide (h.tag < 65536) && decide (h.remote < 2 ^ 48)
    && decide (h.step < 2 ^ 64) && decide (h.job < 2 ^ 32) && decide (h.inc < 65536) && decide (h.status < 256)
    && decide (h.start < 65536) && decide (h.hcrc < 2 ^ 32)

/-- A port G error is of one of the 4 bays, and its request came by one of the 16 ports. -/
def wfGonErr (e : GonErr) : Bool :=
  decide (e.bay < 4) && match e.req with
  | some (p, h) => decide (p < 16) && wfHdr h
  | none => true

/-- What a tether partner claims fits its fields (09 R275, R277). -/
def wfTrain (r : PortTrain) : Bool :=
  decide (r.rate < 4) && decide (r.board < 4096) && decide (r.x < 64) && decide (r.y < 64) && decide (r.dir < 8)

/-- What a port H partner offers: mode codes 1 to 6 and a width that CXL_H_STAT names (14 R402, R410). -/
def wfLink (l : LinkIn) : Bool :=
  l.modes.all (fun m => decide (m < 7)) && (l.width == 0 || l.width == 4 || l.width == 8 || l.width == 16)

/-- A port G device: a GEN code and a width that CRW_GON_BAY names (08 R269). -/
def wfCxl (d : CxlDev) : Bool :=
  decide (d.gen < 4) && (d.linkW == 1 || d.linkW == 2 || d.linkW == 4 || d.linkW == 8 || d.linkW == 16)

/-- Every operand of the command within its range. -/
def Instr.wf (i : Instr) : Bool :=
  match i with
  | .powerOnReset => true
  | .resetNRelease _ => true
  | .pwrokRise _ => true
  | .portTrainingComplete p r => decide (p < 16) && wfTrain r
  | .pwrokTimeout => true
  | .pwrokFall => true
  | .railMonitorTrip _ => true
  | .vddaoLoss => true
  | .reefReqChange v => decide (v < 4)
  | .thermalRequestChange _ => true
  | .thermalTrip _ => true
  | .governorStepDown _ => true
  | .governorStepUp _ => true
  | .fastClamp _ => true
  | .fastClampEnd => true
  | .vidSettleClockRise => true
  | .sparGroupIdle g => decide (g < 40)
  | .sleepMark g => decide (g < 40)
  | .wakeMark g => decide (g < 40)
  | .sparGroupPowerDownDone g => decide (g < 40)
  | .sparGroupRun g => decide (g < 40)
  | .corePowerGate c => decide (c < 4)
  | .portHLinkUp l => wfLink l
  | .halyardReset => true
  | .portHLinkDown => true
  | .halyardEnable => true
  | .halyardShutDown => true
  | .ringEnable n => decide (n < 4)
  | .ringShutDown n => decide (n < 4)
  | .shutDownComplete n => decide (n < 4)
  | .doorbell n tail => decide (n < 4) && decide (tail < 65536)
  | .commandFetch n _ => decide (n < 4)
  | .cqHeadWrite n head => decide (n < 4) && decide (head < 65536)
  | .eventRingHeadWrite head => decide (head < 65536)
  | .coalescingTimer n => decide (n < 4)
  | .msixUnmask v => decide (v < 16)
  | .irqCauseClear _ _ => true
  | .irqMaskWrite _ => true
  | .dbgWtimeLoRead => true
  | .nflagClear c _ hw => decide (c < 8) && hw.all fun x => decide (x.1 < 240)
  | .accflagClear _ _ => true
  | .crwGenCtrlClr _ => true
  | .crwCurvCtrlClr _ => true
  | .crwSolvCtrlClr _ => true
  | .crwPlanCtrlClr _ => true
  | .crwMemCtrlClr _ => true
  | .crwTthCtrlClr _ => true
  | .crwVrdCtrlClr _ => true
  | .crwSnapCtrlClr _ => true
  | .crwWgtCtrlClr _ => true
  | .crwIntCtrlClr _ => true
  | .crwPwrCtrlClr _ => true
  | .scrubEnable => true
  | .scrubDisable => true
  | .bktCfgWrite n _ => decide (n < 8)
  | .registerWrite off _ _ => decide (off < 0x100000)
  | .nop c => wfCmd c
  | .discover c => wfCmd c
  | .nflagRead c => wfCmd c
  | .counterRead c => wfCmd c
  | .repairRead c => wfCmd c
  | .memRead c => wfCmd c
  | .memWrite c _ => wfCmd c
  | .planLoad c _ => wfCmd c
  | .planAdmit c _ => wfCmd c
  | .planReplace c => wfCmd c
  | .planStop c => wfCmd c
  | .patchPost c _ => wfCmd c
  | .permHostDone c => wfCmd c
  | .snapSetBounds c => wfCmd c
  | .snapForcePoint c => wfCmd c
  | .snapDisable c => wfCmd c
  | .snapEnable c => wfCmd c
  | .snapHostWindow c => wfCmd c
  | .snapRestore c _ _ => wfCmd c
  | .wgtOpen c _ => wfCmd c
  | .wgtKey c _ _ => wfCmd c
  | .wgtChunks c _ => wfCmd c
  | .wgtClose c => wfCmd c
  | .wgtSwitch c => wfCmd c
  | .pubKeyEnrol c _ => wfCmd c
  | .pubKeyClear c => wfCmd c
  | .digestPeriod c => wfCmd c
  | .gonConfigure c => wfCmd c
  | .gonRemove c => wfCmd c
  | .ballastRotate c => wfCmd c
  | .bistRun c => wfCmd c
  | .hdmMap c => wfCmd c
  | .reefSet c => wfCmd c
  | .powerRead c => wfCmd c
  | .calRead c => wfCmd c
  | .calWrite c _ => wfCmd c
  | .attest c => wfCmd c
  | .identCert c => wfCmd c
  | .flashWrite c _ => wfCmd c
  | .bootSelect c => wfCmd c
  | .bootSelectCommitSvn c => wfCmd c
  | .safeInfo c => wfCmd c
  | .deviceReset c => wfCmd c
  | .hdmHostRead _ _ => true
  | .hdmHostWrite _ _ => true
  | .shroudWindowWrite _ _ => true
  | .scanChainEnable _ => true
  | .stepStart _ => true
  | .admissionBarrierTimeout => true
  | .stepWatchdog => true
  | .arraySlot seq _ => decide (seq < 2 ^ 30)
  | .weightLoadComplete a _ => decide (a < 160)
  | .tileClaim a => decide (a < 160)
  | .tileSeal a => decide (a < 160)
  | .arrayReplay a _ _ => decide (a < 160)
  | .mainArraySwap a => decide (a < 160)
  | .gramSlot seq => decide (seq < 2 ^ 30)
  | .gramReplay g _ => decide (g < 40)
  | .vblockSlot b => decide (b.seq < 2 ^ 30) && (b.scalar.ce ++ b.scalar.ue).all fun w => decide (w < 2 ^ 28)
  | .add u f => wfUse u && wfFields f
  | .sub u f => wfUse u && wfFields f
  | .mul u f => wfUse u && wfFields f
  | .fma u f => wfUse u && wfFields f
  | .fnma u f => wfUse u && wfFields f
  | .min u f => wfUse u && wfFields f
  | .max u f => wfUse u && wfFields f
  | .abs u f => wfUse u && wfFields f
  | .neg u f => wfUse u && wfFields f
  | .div u f => wfUse u && wfFields f
  | .sqrt u f => wfUse u && wfFields f
  | .rsqrt u f => wfUse u && wfFields f
  | .recip u f => wfUse u && wfFields f
  | .exp2 u f => wfUse u && wfFields f
  | .log2 u f => wfUse u && wfFields f
  | .cvt u f srcFmt _ => wfUse u && wfFields f && decide (srcFmt < 16)
  | .sum u f => wfUse u && wfFields f
  | .sumsq u f => wfUse u && wfFields f
  | .redMax u f => wfUse u && wfFields f
  | .redMin u f => wfUse u && wfFields f
  | .amax u f => wfUse u && wfFields f
  | .perm u f => wfUse u && wfFields f
  | .scat u f => wfUse u && wfFields f
  | .scatadd u f => wfUse u && wfFields f
  | .cgath u f => wfUse u && wfFields f
  | .rbcast u f => wfUse u && wfFields f
  | .cbcast u f => wfUse u && wfFields f
  | .xpose u f => wfUse u && wfFields f
  | .selSmallest u f => wfUse u && wfFields f
  | .selLargest u f => wfUse u && wfFields f
  | .lu u f => wfUse u && wfFields f
  | .chol u f => wfUse u && wfFields f
  | .gjinv u f => wfUse u && wfFields f
  | .trinv u f => wfUse u && wfFields f
  | .ld u f _ => wfUse u && wfFields f
  | .st u f _ _ => wfUse u && wfFields f
  | .lds u f _ => wfUse u && wfFields f
  | .gath u f _ => wfUse u && wfFields f
  | .setvl u f => wfUse u && wfFields f
  | .pop u f => wfUse u && wfFields f
  | .ckpt u f => wfUse u && wfFields f
  | .ctrlNop u f => wfUse u && wfFields f
  | .vectorBlockRestart u buf row _ => wfUse u && decide (buf < 6) && decide (row < 128)
  | .queueEntryReplay u q row _ => wfUse u && decide (q < 8) && decide (row < 128)
  | .xferSlot seq => decide (seq < 2 ^ 30)
  | .xferComplete seq => decide (seq < 2 ^ 30)
  | .waitSlot seq _ => decide (seq < 2 ^ 30)
  | .fenceSlot seq => decide (seq < 2 ^ 30)
  | .putIssue seq => decide (seq < 2 ^ 30)
  | .getIssue seq => decide (seq < 2 ^ 30)
  | .accumulateIssue seq => decide (seq < 2 ^ 30)
  | .signalIssue seq => decide (seq < 2 ^ 30)
  | .putReceive port h _ => decide (port < 16) && wfHdr h
  | .getReceive port h => decide (port < 16) && wfHdr h
  | .accumulateReceive port h _ => decide (port < 16) && wfHdr h
  | .signalReceive port h => decide (port < 16) && wfHdr h
  | .getRespReceive h _ => wfHdr h
  | .ackReceive h => wfHdr h
  | .nackReceive h => wfHdr h
  | .meshTransit h _ => wfHdr h
  | .messageTimeout tag => decide (tag < 65536)
  | .linkReplay port => decide (port < 16)
  | .laneFailure lane _ _ => decide (lane < 68)
  | .partnerGone port => decide (port < 16)
  | .patchPoint id _ _ => decide (id < 65536)
  | .solveSlot seq _ => decide (seq < 2 ^ 30)
  | .solveScheduledStart id _ => decide (id < 65536)
  | .solveStop id _ => decide (id < 65536)
  | .haloTimeout h => decide (h.id < 65536)
  | .rootSlot seq => decide (seq < 2 ^ 30)
  | .rootCheck set _ _ => decide (set < 65536)
  | .refreshAbandon set => decide (set < 65536)
  | .publicationPoint seq => decide (seq < 2 ^ 30)
  | .flagFold seq => decide (seq < 2 ^ 30)
  | .stepEnd seq => decide (seq < 2 ^ 30)
  | .verdictPoint _ => true
  | .voteCast _ => true
  | .votesGathered _ => true
  | .voteDeadline _ => true
  | .sealsGathered _ => true
  | .sealTimeout _ => true
  | .reconcileGathered _ => true
  | .reconcileTimeout _ => true
  | .snapshotComplete _ => true
  | .intervalCompute _ => true
  | .inventoryComplete _ => true
  | .inventoryTimeout => true
  | .permutationComplete => true
  | .sweepComplete shard => decide (shard < 65536)
  | .pseudoChannelFailure stack pc => decide (stack < 8) && decide (pc < 32)
  | .gondolaDevicePresence d => wfCxl d
  | .bayTrainingComplete b _ => decide (b < 4)
  | .bayDrainComplete b => decide (b < 4)
  | .gondolaReadTimeout e => wfGonErr e
  | .gondolaBadCompletion e _ => wfGonErr e
  | .portGLinkDown b => decide (b < 4)
  | .scrubLine line _ => decide (line % 256 = 0)
  | .correctiveWriteBack line => decide (line % 256 = 0)
  | .bucketLeakTick n => decide (n < 8)
  | .bankMigrationComplete b => decide (b < 48)
  | .bankFailure b => decide (b < 48)
  | .coreHeartbeatMiss c => decide (c.core < 4) && (match c.event with | .corrected now => decide (now < 2 ^ 64) | _ => true)
  | .bistComplete _ _ => true
  | .bistBudgetExpiry => true
  | .weightFetchResponse session _ => decide (session < 4)
  | .weightFetchTimeout session => decide (session < 4)
  | .digestScrub _ => true
  | .reefClockStep => true
  | .cxlLinkRetry _ => true
  | .ideIntegrityFailure => true
  | .doeRequest _ => true
  | .l0pChange _ => true
  | .gondolaViral b => decide (b < 4)
  | .linkControlBallastNotice dir => decide (dir < 4)
  | .zeroingComplete => true

end Sys2Proof
end

