-- ==== Sys2Proof/Safety.lean ====
section
/-! DEFINITION. What a safe run of the block is, and the invariants that statements use. -/

namespace Sys2Proof.Machine

/-- Device memory has its one canonical form, so that equal memories are equal lists (log entry 1). -/
def MemCanonical (s : State) : Prop := s.mem.wf = true

/-- The step that comes next has a meaning: it neither faults nor is refused (00 R22). -/
def StepSafe (s : State) : Prop := ∃ t, step s = .next t

/-- Every command that waits is well formed. -/
def QueueWellFormed (s : State) : Prop := s.pending.all Instr.wf = true

/-- The two devices agree but for what reports, interrupts and completions change: the halyard with its rings, the event ring, the
interrupt registers and host memory (14 R416, R426, R428). -/
def ReportsOnly (d d' : Dev) : Prop := d' = { d with hly := d'.hly, evt := d'.evt, irq := d'.irq, host := d'.host }

/-- From `d` the device has entered its safe state with cause `c`, in `d'`: groups and tether ports are OFF, no bay's link is up, no plan
runs, no weight session is open and no key is held, IRQ_CAUSE.FATAL is set and AER was signalled (15 R449, R450). The last clause
is the frame. -/
def SafeEntered (c : Nat) (d d' : Dev) : Prop :=
  d'.pwr.cause = c ∧ (∀ g ∈ d'.gpwr, g.state = .off) ∧ (∀ p ∈ d'.tth.ports, p.state = .off)
    ∧ (∀ b ∈ d'.gon.bays, b.state = .empty ∨ b.state = .gone) ∧ (∀ i < 4, (sessionAt d' i).isOpen = false)
    ∧ (∀ x ∈ d'.wgt.sessions, x.cek = false) ∧ (∀ k ∈ d'.wgt.pubKeys, k = none) ∧ d'.plan.run = none
    ∧ d'.irq.cause.getLsbD 7 = true ∧ d'.irq.aer = d.irq.aer + 1
    ∧ d' = { d with pins := d'.pins, pwr := d'.pwr, gpwr := d'.gpwr, tth := d'.tth, gon := d'.gon, wgt := d'.wgt, plan := d'.plan,
                    curv := { d.curv with sets := [], staleSet := 0xFFFF }
                    snap := { d.snap with drain := none, owed := none, next := none, forced := [] }
                    integ := { d.integ with bistRun := d'.integ.bistRun, bistResult := d'.integ.bistResult, bistCmd := d'.integ.bistCmd }
                    cxl := d'.cxl, hly := d'.hly, evt := d'.evt, irq := d'.irq, host := d'.host }

/-- The interrupt registers went from `q` to `q'` as the message rule says: a bit of cause-and-mask that rose sent its vector's message, in
ascending order, or set its pending bit where the vector is masked; the table, IRQ_CLASS and AER stay (14 R429). -/
def MessagesFor (q q' : Irq) : Prop :=
  let rose (v : Nat) : Bool := (q'.cause &&& q'.mask).getLsbD v && !(q.cause &&& q.mask).getLsbD v
  q'.sent = q.sent ++ (List.range 10).filter (fun v => rose v && !vecMasked q v)
    ∧ (∀ v < 16, q'.pba.getLsbD v = (q.pba.getLsbD v || (decide (v < 10) && rose v && vecMasked q v)))
    ∧ q'.table = q.table ∧ q'.cls = q.cls ∧ q'.aer = q.aer

/-- A halyard command of opcode `opc` that `c` names may run on `d`: it stands at place `ord` of its ring with descriptor `desc`,
nothing earlier holds it, the safe state does not turn it away, and the host serves its buffer (14 R419, R420, R425). -/
def Runs (d : Dev) (c : CmdRef) (opc ord : Nat) (desc : BitVec 512) : Prop :=
  cmdFor d c opc = some (ord, desc) ∧ turnedAway d desc = false ∧ bufferLost c desc = false

/-- As `Runs`, for one of several commands that share an opcode: `p` tells its descriptors. -/
def RunsIf (p : BitVec 512 → Bool) (d : Dev) (c : CmdRef) (opc ord : Nat) (desc : BitVec 512) : Prop :=
  cmdIf p d c opc = some (ord, desc) ∧ turnedAway d desc = false ∧ bufferLost c desc = false

/-- The halyard command that an `Instr` carries: the reference to its ring and tag, its opcode, and which descriptors of that opcode are
its own (14 R420, R421). -/
def hlyCommand : Instr → Option (CmdRef × Nat × (BitVec 512 → Bool))
  | .nop c => some (c, 0x000, fun _ => true)
  | .discover c => some (c, 0x001, fun _ => true)
  | .nflagRead c => some (c, 0x002, fun _ => true)
  | .counterRead c => some (c, 0x003, fun _ => true)
  | .repairRead c => some (c, 0x004, fun _ => true)
  | .memRead c => some (c, 0x100, fun _ => true)
  | .memWrite c _ => some (c, 0x101, fun _ => true)
  | .planLoad c _ => some (c, 0x200, fun _ => true)
  | .planAdmit c _ => some (c, 0x201, fun _ => true)
  | .planReplace c => some (c, 0x202, fun _ => true)
  | .planStop c => some (c, 0x203, fun _ => true)
  | .patchPost c _ => some (c, 0x204, fun _ => true)
  | .permHostDone c => some (c, 0x205, fun _ => true)
  | .snapSetBounds c => some (c, 0x300, snapOp 0)
  | .snapForcePoint c => some (c, 0x300, snapOp 1)
  | .snapDisable c => some (c, 0x300, snapOp 2)
  | .snapEnable c => some (c, 0x300, snapOp 3)
  | .snapHostWindow c => some (c, 0x300, snapOp 4)
  | .snapRestore c _ _ => some (c, 0x301, fun _ => true)
  | .wgtOpen c _ => some (c, 0x400, fun _ => true)
  | .wgtKey c _ _ => some (c, 0x401, fun _ => true)
  | .wgtChunks c _ => some (c, 0x402, fun _ => true)
  | .wgtClose c => some (c, 0x403, fun _ => true)
  | .wgtSwitch c => some (c, 0x404, fun _ => true)
  | .pubKeyEnrol c _ => some (c, 0x405, fun x => bit (dArg0 x) 3)
  | .pubKeyClear c => some (c, 0x405, fun x => !bit (dArg0 x) 3)
  | .digestPeriod c => some (c, 0x406, fun _ => true)
  | .gonConfigure c => some (c, 0x500, fun _ => true)
  | .gonRemove c => some (c, 0x501, fun _ => true)
  | .ballastRotate c => some (c, 0x600, fun _ => true)
  | .bistRun c => some (c, 0x601, fun _ => true)
  | .hdmMap c => some (c, 0x700, fun _ => true)
  | .reefSet c => some (c, 0x800, fun _ => true)
  | .powerRead c => some (c, 0x801, fun _ => true)
  | .calRead c => some (c, 0x802, fun _ => true)
  | .calWrite c _ => some (c, 0x803, fun _ => true)
  | .attest c => some (c, 0x804, fun _ => true)
  | .identCert c => some (c, 0x805, fun _ => true)
  | .flashWrite c _ => some (c, 0x806, fun _ => true)
  | .bootSelect c => some (c, 0x807, fun x => !bit (dArg0 x) 1)
  | .bootSelectCommitSvn c => some (c, 0x807, fun x => bit (dArg0 x) 1)
  | .safeInfo c => some (c, 0x808, fun _ => true)
  | .deviceReset c => some (c, 0x809, fun _ => true)
  | _ => none

/-- Commands whose meaning may write device memory. Every other command leaves all of it as it is. -/
def mayWriteMem : Instr → Bool
  | .powerOnReset | .vddaoLoss | .deviceReset _ | .bayDrainComplete _ | .rootCheck _ _ _
  | .pwrokRise _ | .memWrite _ _ | .planLoad _ _ | .planAdmit _ _ | .patchPost _ _ | .snapRestore _ _ _ | .wgtKey _ _ _
  | .wgtChunks _ _ | .gonConfigure _ | .gonRemove _ | .bistRun _ | .hdmHostWrite _ _ | .stepStart _ | .arraySlot _ _ | .gramSlot _
  | .st _ _ _ _ | .xferSlot _ | .xferComplete _ | .putIssue _ | .getIssue _ | .accumulateIssue _ | .signalIssue _
  | .putReceive _ _ _ | .accumulateReceive _ _ _ | .getRespReceive _ _ | .patchPoint _ _ _ | .solveSlot _ _ | .solveStop _ _
  | .rootSlot _ | .publicationPoint _ | .flagFold _ | .stepEnd _ | .sealsGathered _ | .reconcileGathered _ | .snapshotComplete _
  | .intervalCompute _ | .inventoryComplete _ | .permutationComplete | .scrubLine _ _ | .weightFetchResponse _ _
  | .zeroingComplete => true
  | _ => false

/-- Slot `seq` of kind `kind` issues: the plan names it as `w`, it has not issued in this step start, its stream is free, both its waits
are met, its arbitration point grants it, no other context's head slot goes first, the device is not in its safe state, and its spar group
runs; no carried slot of an earlier start has this SEQ (07 R225 to R227, R229, R234; 15 R437). -/
def Issues (d : Dev) (seq kind : Nat) (r : Run) (w : Slot) : Prop :=
  d.plan.run = some r ∧ carriedHead r seq = none ∧ slotOf r seq = some w ∧ w.kind = kind ∧ slotReady d r w = true ∧ otherFirst d r w = false
    ∧ groupReady d w = true

/-- At the time of `d` a step start went from run `r` to run `q`: the start count rose from the second start on, the step index stays, nothing
has issued or completed, the open CARRY slots of a committed step run on, and of contained data errors only those stand that came after the
vote (07 R226, R231, R234; 10 R313). -/
def StartsAnew (d : Dev) (r q : Run) : Prop :=
  q.start = (if r.begun then r.start + 1 else r.start) ∧ q.begun = true ∧ q.phase = .running ∧ q.issued = [] ∧ q.done = []
    ∧ q.waited = [] ∧ q.cde = r.cdeNext.map Prod.fst ∧ q.cdeSeq = r.cdeNext.map Prod.snd ∧ q.cdeNext = [] ∧ q.startTime = d.dbg.now
    ∧ q.step = r.step ∧ q.attempt = r.attempt ∧ q.carried = (if r.phase = .committed then (carryOn d r).carried else r.carried)
    ∧ q.j = r.j + 1 ∧ q.body = r.body ∧ q.hdr = r.hdr

/-- Slot `seq` of the running step start has issued and completed between `r` and `q`, and nothing else of the run changed (07
R225, R226). -/
def SlotDone (r q : Run) (seq : Nat) : Prop :=
  q = { r with issued := r.issued ++ [seq], done := if r.done.contains seq then r.done else r.done ++ [seq] }

/-- Where a slot's store of `n` bytes at `a` lands: per line, the address that the tacked view gives and the bytes from it (11 R336; 13
R381). -/
def slotBytes (d : Dev) (a n : Nat) : List (Nat × Nat) :=
  (linePieces (n / 256 + 2) a (List.replicate n 0)).map fun p => (resolveWrite d p.1, p.2.length)

/-- Address `a` is outside every store of the ranges `rs`. -/
def Outside (d : Dev) (rs : List (Nat × Nat)) (a : Nat) : Prop :=
  ∀ x ∈ rs, ∀ y ∈ slotBytes d x.1 x.2, a < y.1 ∨ y.1 + y.2 ≤ a

/-- No word of memory is bad: nothing uncorrectable, no region lost (08 R253; 13 R387). -/
def NoBadWords (d : Dev) : Prop := d.ecc.ue = [] ∧ d.ecc.lost = [] ∧ d.ecc.gonLost = []

/-- An instruction of class `cls` and operation `op` with fields `f` and extension word `ext` issues on `u`: it stands next in its block and
its context has the turn; `i` is what it finds, `t` the tile buffer it writes, in canonical form (04 R114, R118, R120 to R122; 07
R227). -/
def VecAt (s : State) (u : VUse) (cls op : Nat) (f : VFields) (ext : Option W64) (i : VIn) (t : Sparse 32) : Prop :=
  vecIn s.mem s.dev u cls op f ext = some i ∧ i.g.bufs[f.dst]? = some t ∧ f.dst ≤ 5 ∧ t.Pairwise (fun p q => p.1 < q.1) ∧ i.x.vl ≤ 128

/-- Lanes of a view. -/
def viewLanes (v64 : Bool) : Nat := if v64 then 64 else 128

/-- Next state `st` of an instruction of `n` words on `u` in device `d`: tile buffer `b`, that held `t`, takes in view `v64` the values that `val` gives
by row and lane, and keeps every other slot; flags `fl` are set; then the context moves past the instruction, and nothing else of `d`
changes (04 R118, R150; 02 R71). -/
def TileTakes (s : State) (d : Dev) (u : VUse) (b : Nat) (t : Sparse 32) (v64 : Bool) (n : Nat) (val : Nat → Nat → Option Nat) (fl : Nat)
    (st : State) : Prop :=
  ∃ t', st = { s with dev := vecNext u n (vecFlags u fl { d with
      groups := modAt (fun g => { g with bufs := modAt (fun _ => t') b g.bufs }) u.group d.groups }) } ∧
    ∀ r < 128, ∀ c < viewLanes v64, slotGet v64 t' r c = ((val r c).map (· % 2 ^ (if v64 then 64 else 32))).getD (slotGet v64 t r c)

/-- `val` on the rows of `f` and the first `n` lanes, nothing elsewhere. -/
def onLanes (f : VFields) (n : Nat) (val : Nat → Nat → Nat) (r l : Nat) : Option Nat :=
  if r ∈ f.rowList ∧ l < n then some (val r l) else none

/-- Next state `st` of ARITH instruction `op` of lane function `lane` (04 R118, R126, R129): in vector mode each active lane of each of its rows takes
the lane function's result; in scalar mode scalar word SCAL takes the result of the three words that IMM names; flags are the OR of the
results' flags. An instruction that waits, or of a form that validation rejects, changes nothing. -/
def ArithDoes (s : State) (u : VUse) (op : Nat) (f : VFields) (lane : Nat → Nat → Nat → Res) (st : State) : Prop :=
  (∀ i t, VecAt s u 0 op f none i t → arithForm op f = true →
    TileTakes s s.dev u f.dst t f.wide 1
      (onLanes f (lanesOf f.wide i.x.vl) fun r l => (lane (i.a.at f.wide r l) (i.b.at f.wide r l) (i.c.at f.wide r l)).code)
      (laneAll f i lane).2 st) ∧
  (∀ i, vecIn s.mem s.dev u 0 op f none = some i → arithForm op f = true → f.dst = 14 →
    let v := lane (i.x.word f.wide (bits f.imm 14 10)) (i.x.word f.wide (bits f.imm 9 5)) (i.x.word f.wide (bits f.imm 4 0))
    st = { s with dev := vecNext u 1 (vecFlags u v.flags (putScal u f.scal v.code s.dev)) }) ∧
  ((vecIn s.mem s.dev u 0 op f none = none ∨ arithForm op f = false) → st = s)

/-- Next state `st` of RED instruction `k` (04 R131 to R133): along a row its column IMM[6:0] takes the row's reduction, down the rows row IMM[6:0]
takes each lane's, and with DST = S scalar word SCAL takes the reduction of the rows' reductions. -/
def RedDoes (s : State) (u : VUse) (k : Nat) (f : VFields) (op : RedOp) (st : State) : Prop :=
  (∀ i t, VecAt s u 2 k f none i t → redForm k f = true → f.axis = false →
    let row (r : Nat) : Res := redOut f (redSlots f op i ((List.range (lanesOf f.wide i.x.vl)).map fun l => (r, l)))
    TileTakes s s.dev u f.dst t f.wide 1 (fun r c => if r ∈ f.rowList ∧ c = f.imm % 128 then some (row r).code else none)
      (f.rowList.foldl (fun fl r => fl ||| (row r).flags) 0) st) ∧
  (∀ i t, VecAt s u 2 k f none i t → redForm k f = true → f.axis = true →
    let col (l : Nat) : Res := redOut f (redSlots f op i (f.rowList.map fun r => (r, l)))
    TileTakes s s.dev u f.dst t f.wide 1 (fun r c => if r = f.imm % 128 ∧ c < lanesOf f.wide i.x.vl then some (col c).code else none)
      ((List.range (lanesOf f.wide i.x.vl)).foldl (fun fl l => fl ||| (col l).flags) 0) st) ∧
  (∀ i, vecIn s.mem s.dev u 2 k f none = some i → redForm k f = true → f.dst = 14 →
    let v := redOut f (redTree f op (f.rowList.map fun r => redSlots f op i ((List.range (lanesOf f.wide i.x.vl)).map fun l => (r, l))))
    st = { s with dev := vecNext u 1 (vecFlags u v.flags (putScal u f.scal v.code s.dev)) }) ∧
  ((vecIn s.mem s.dev u 2 k f none = none ∨ redForm k f = false) → st = s)

/-- Next state `st` of PIV instruction `k` (04 R138 to R141): each block of DST takes the result of its elimination, the count buffer takes in row
IMM[8:2] the substitutions of each block, last where it is DST itself, and they are added to the block's count; flags are the OR of the
blocks' flags. -/
def PivDoes (s : State) (u : VUse) (k : Nat) (f : VFields) (op : PivOp) (st : State) : Prop :=
  let b := pivSize f
  let blk (i : VIn) (t : Sparse 32) (p q : Nat) : PivSt := pivBlock f op b (thresh f (i.x.word f.wide f.scal))
    ((List.range b).map fun r => (List.range b).map fun k => slotGet f.wide t (b * p + r) (b * q + k))
  let total (i : VIn) (t : Sparse 32) : Nat := ((pivBlocks f).map fun pq => (blk i t pq.1 pq.2).count).foldl (· + ·) 0
  let flags (i : VIn) (t : Sparse 32) : Nat := ((pivBlocks f).map fun pq => (blk i t pq.1 pq.2).flags).foldl (· ||| ·) 0
  let leaves (i : VIn) (t : Sparse 32) (bs : List (Sparse 32)) : State := { s with dev := vecNext u 1 (vecFlags u (flags i t)
    (modCtx u (fun x => { x with pivs := x.pivs + total i t }) { s.dev with
      groups := modAt (fun g => { g with bufs := bs }) u.group s.dev.groups })) }
  (∀ i t c, VecAt s u 5 k f none i t → i.g.bufs[f.b]? = some c → c.Pairwise (fun p q => p.1 < q.1) → pivForm k f = true → f.b ≠ f.dst →
    ∃ t' c', st = leaves i t (modAt (fun _ => c') f.b (modAt (fun _ => t') f.dst i.g.bufs)) ∧
      (∀ p q, (p, q) ∈ pivBlocks f → ∀ r < b, ∀ j < b,
        slotGet f.wide t' (b * p + r) (b * q + j) = entry (blk i t p q).a r j % 2 ^ (if f.wide then 64 else 32)) ∧
      (∀ p q, (p, q) ∈ pivBlocks f → slotGet false c' (bits f.imm 8 2) (4 * p + q) = min (blk i t p q).count 2147483647)) ∧
  (∀ i t, VecAt s u 5 k f none i t → pivForm k f = true → f.b = f.dst →
    ∃ t', st = leaves i t (modAt (fun _ => t') f.dst i.g.bufs) ∧
      (∀ p q, (p, q) ∈ pivBlocks f → slotGet false t' (bits f.imm 8 2) (4 * p + q) = min (blk i t p q).count 2147483647) ∧
      ∀ p q, (p, q) ∈ pivBlocks f → ∀ r < b, ∀ j < b, b * p + r ≠ bits f.imm 8 2 →
        slotGet f.wide t' (b * p + r) (b * q + j) = entry (blk i t p q).a r j % 2 ^ (if f.wide then 64 else 32)) ∧
  ((vecIn s.mem s.dev u 5 k f none = none ∨ pivForm k f = false) → st = s)

/-- The port and channel by which a request that came by `port` is answered: the same far port's bundle, or the mesh as in transit (09
R281). -/
def respRoute (d : Dev) (port : Nat) (h : WireHdr) : Option (Nat × Bool) :=
  let dir := ((d.tth.ports[port]?).map Port.dir).getD 0
  if 4 ≤ dir then (farPort d (dir - 4)).map fun p => (p, false)
  else (meshOut d h.srcNode false).map fun x => (member x.1 h.dstNode h.srcNode, x.2)

/-- From `d` to `d'` the request of header `h` that came by `port` was answered with code `opc`, STATUS and data, to its source and under
its TAG; with no route the response is dropped (09 R281, R285, R286). -/
def Answers (d d' : Dev) (port : Nat) (h : WireHdr) (opc status : Nat) (data : List Byte) : Prop :=
  match respRoute d port h with
  | some (p, esc) => ∃ r : WireHdr, d'.tth.out = d.tth.out ++ [⟨p, r, data⟩] ∧ r.opc = opc ∧ r.status = status ∧ r.srcNode = h.dstNode ∧
      r.dstNode = h.srcNode ∧ r.tag = h.tag ∧ r.lepoch = h.lepoch ∧ r.start = h.start ∧ r.vc = (if esc then 3 else 1) ∧ hcrcOk r = true
  | none => d'.tth.out = d.tth.out

/-- A request of code `opc` reaches this chip by a port that is UP, with a good header, and passes every check of 09 R288 for the plan
run `r`; it names the window `next` (09 R287, R288). -/
def Accepted (s : State) (port opc : Nat) (h : WireHdr) (r : Run) (next : Bool) : Prop :=
  s.dev.plan.run = some r ∧ ((s.dev.tth.ports[port]?).map portUp) = some true ∧ isSafe s.dev = false ∧ h.dstNode = s.dev.tth.self ∧
    h.opc = opc ∧ hcrcOk h = true ∧ reqCheck s.mem s.dev h = 0 ∧ windowOf r h.start = some next

/-- A response of code `opc` whose request `p` is in flight, with a good header and an epoch that is accepted (09 R285, R290; 10 R328). -/
def RespFor (d : Dev) (opc : Nat) (h : WireHdr) (p : Pend) : Prop :=
  h.opc = opc ∧ h.dstNode = d.tth.self ∧ isSafe d = false ∧ hcrcOk h = true ∧ (h.lepoch = d.vrd.epoch ∨ isPending d h.lepoch = true) ∧
    d.tth.pend.find? (fun q => q.tag = h.tag && q.hdr.dstNode = h.srcNode && q.hdr.start = h.start) = some p

/-- From `d` to `d'` the request `p` of the slot `seq` of the running step start has completed: it is in flight no more, and its slot is
complete (09 R286, R290). -/
def MsgCompleted (d d' : Dev) (p : Pend) (seq : Nat) : Prop :=
  d'.tth.pend = d.tth.pend.filter (fun q => q.tag ≠ p.tag) ∧ ∃ q, d'.plan.run = some q ∧ seq ∈ q.done

/-- From `d` to `d'` tally `t` rose by `n`, saturating, in the next or the current window, for the pending or the current layout epoch; no
other count changed (09 R287; 10 R476). -/
def TallyTakes (d d' : Dev) (t n : Nat) (next pending : Bool) : Prop :=
  let up (w : Sparse 18) : Sparse 18 := w.set t (tallySum (w.get t) n)
  d'.tth.cur = (if !next && !pending then up d.tth.cur else d.tth.cur) ∧ d'.tth.nxt = (if next && !pending then up d.tth.nxt else d.tth.nxt) ∧
    d'.tth.curP = (if !next && pending then up d.tth.curP else d.tth.curP) ∧ d'.tth.nxtP = (if next && pending then up d.tth.nxtP else d.tth.nxtP)

/-- No tally changed. -/
def TalliesStay (d d' : Dev) : Prop :=
  d'.tth.cur = d.tth.cur ∧ d'.tth.nxt = d.tth.nxt ∧ d'.tth.curP = d.tth.curP ∧ d'.tth.nxtP = d.tth.nxtP

/-- No tacked, ledger or root view leads a write elsewhere, and no root buffer is barred to writes (05 R176; 08 R263; 11 R336). -/
def PlainWrites (d : Dev) : Prop := (∀ a, resolveWrite d a = a) ∧ ∀ a, rootBarred d a = false

/-- The contained data error of cause `c` that a fault raised: of the running attempt before its vote, of the next start after it (10
R313). -/
def CdeRaised (c : Nat) (r q : Run) : Prop :=
  if voteOpen r then q.cde = r.cde ++ [c] else q.cde = r.cde ∧ ∃ n, q.cdeNext = r.cdeNext ++ [(c, n)]

end Sys2Proof.Machine
end

