-- ==== Sys2Proof/Certificates/Slice0/Obligations.lean ====
section
/-! DEFINITION. The statements for the provers. Each is about every state that meets its hypotheses; a conclusion of the form
exec c s = .next t says that the command completes there and what its next state holds. -/

open Sys2Proof Sys2Proof.Machine

/-- A step runs the command at the front of the queue on the state with the queue's rest. -/
def Obligations.StepRunsFrontCommand : Prop :=
  ∀ (i : Instr) (s : State), step { s with pending := i :: s.pending } = exec i s

/-- With no command waiting, one watch cycle passes while the watch domain is powered and out of reset: the reports that wait for the end of the
cycle are delivered (00 R25), the watch counter rises by one, the counters of cycles spent waiting move, and nothing else changes; otherwise the
block idles (the model's choice, log entry 38). -/
def Obligations.EmptyQueueIsOneWatchCycle : Prop :=
  ∀ s : State, s.pending = [] →
    (s.dev.pins.vddao = true → s.dev.pins.resetN = true →
      ∃ d, step s = .next { s with dev := d } ∧ d.dbg = { s.dev.dbg with now := s.dev.dbg.now + 1 } ∧
        d.snap = { s.dev.snap with hold := if s.dev.tack.waits = [] then s.dev.snap.hold else satAdd s.dev.snap.hold 1 } ∧
        d.evt.wait = [] ∧
        (s.dev.evt.wait = [] → d.hly = s.dev.hly ∧ d.evt = s.dev.evt ∧ d.irq = s.dev.irq ∧ d.host = s.dev.host) ∧
        d = { s.dev with dbg := d.dbg, gen := { s.dev.gen with stall := d.gen.stall, stallRem := d.gen.stallRem }, snap := d.snap,
                         gon := { s.dev.gon with ledgerHold := d.gon.ledgerHold }
                         hly := d.hly, evt := d.evt, irq := d.irq, host := d.host }) ∧
    ((s.dev.pins.vddao = false ∨ s.dev.pins.resetN = false) → step s = .next s)

/-- Every command answers a next state, whatever its operands and whatever the device holds: the block reports under an error class and
goes on. No command changes the queue of waiting commands, and a command that `mayWriteMem` does not name leaves every byte of device memory. -/
def Obligations.EveryCommandAnswers : Prop :=
  ∀ (i : Instr) (s : State), ∃ t, exec i s = .next t ∧ t.pending = s.pending ∧ (mayWriteMem i = false → ∀ a, t.mem.get a = s.mem.get a)

/-- Device memory keeps its canonical form: from every state that has it, whatever command waits first, the step's next state has it. -/
def Obligations.MemoryStaysCanonical : Prop :=
  ∀ s t : State, MemCanonical s → step s = .next t → MemCanonical t

/-- At reset device memory has its canonical form and no command waits.
The registers at reset, as the chapters' register tables give them: the rings and the event ring, IRQ_CLASS, the engines that no flag names, the ports' OFF
codes, the epochs and steps that are none, the scrubber's rates, the ballast, the bucket table, and the masks of the MSI-X table (02 R74; 05 R190; 07 R242;
09 R304; 10 R333; 11 R358; 12 R379; 13 R385, R395; 14 R406, R412, R413, R428; 15 R459); no command waits, memory lists nothing, and every general
counter reads 0. -/
def Obligations.ResetState : Prop :=
  (MemCanonical State.reset ∧ State.reset.pending = [] ∧ QueueWellFormed State.reset) ∧
  (let d := State.reset.dev
  let r (o : Nat) := regRead d o
  let w (o : Nat) := regRead d (0x10000 + o)
  State.reset.pending = [] ∧ State.reset.mem = [] ∧
    r 0x1000 = 0 ∧ r 0x1004 = 0x20000000 ∧ (∀ n < 4, r (0x1110 + 0x40 * n) = 0x00040004 ∧ r (0x1120 + 0x40 * n) = 0x00010000) ∧
    r 0x1210 = 0x00040000 ∧ r 0x2000 = 0 ∧ r 0x2004 = 0 ∧ r 0x2008 = 2 ∧ r 0x4000 = 0 ∧ r 0x4004 = 0 ∧
    (∀ n < 8, w (0x400 + 4 * n) = 0x00FF0000) ∧ w 0x704 = 0xFFFF0000 ∧ (∀ p < 16, w (0x908 + 4 * p) = w 0x908) ∧
    w 0xA08 = 0xFFFF ∧ w 0xB08 = 0xFFFFFFFF ∧ w 0xB0C = 0xFFFFFFFF ∧ w 0xB10 = 0xFFFFFFFF ∧ w 0xB14 = 0xFFFFFFFF ∧
    w 0xD1C = 0x80100010 ∧ w 0xD20 = 0 ∧ w 0xD40 = 0x00400064 ∧ w 0xD44 = 0x00400064 ∧ w 0xD48 = 0x001003E8 ∧ w 0xD4C = 0x000803E8 ∧ w 0xD50 = 0x000803E8 ∧
    w 0xD54 = 0x00FF000A ∧ w 0xD58 = 0x00042710 ∧ w 0xD5C = 0x00FF000A ∧ (∀ n < 16, r (0x2000C + 16 * n) = 1) ∧
    (∀ n < 40, w (0x104 + 4 * n) = 0))

/-- The queue drains: as many steps as commands wait run them all, with no fault and no refusal, and the queue is empty then. -/
def Obligations.QueueDrains : Prop :=
  ∀ s : State, ∃ t : State, core.run s.pending.length s = .next t ∧ t.pending = []

/-- RESET_N driven low resets the device, its watch domain included, and loss of VDDAO stops it: every register takes its reset
value (15 R434; 16 R469). Fuses, flash and the host's memory are outside the reset; the record of weight ranges that the watch domain
keeps lives as long as VDDAO (12 R377; log entries 1 and 2 name what the model keeps). Of memory, what a gondola device held is gone
(08 R254): it reads as blank, and every byte below the gondola tier stays.
RESET_N_RELEASE with VDDAO present: a passed self-check drives VID to 0x14 and asserts PWR_EN; a failed one asserts FAULT_N and
the device stays in reset (15 R440). -/
def Obligations.PowerOnResetAndRelease : Prop :=
  (∀ s : State,
    exec .powerOnReset s = .next { s with mem := resetMem s.mem, dev := { Dev.reset s.dev.fuses s.dev.flash with
      wgt := { Wgt.reset with recorded := if s.dev.pins.vddao then s.dev.wgt.recorded else [] }
      host := s.dev.host
      freeCtr := s.dev.freeCtr } } ∧
    exec .vddaoLoss s = .next { s with mem := resetMem s.mem, dev := { Dev.reset s.dev.fuses s.dev.flash with
      pins := { Pins.reset with vddao := false }
      host := s.dev.host
      freeCtr := s.dev.freeCtr } } ∧
    (s.mem.wf = true → ∀ a, (resetMem s.mem).get a = if a < gonBase 0 then s.mem.get a else 0)) ∧
  (∀ s : State, s.dev.pins.resetN = false → s.dev.pins.vddao = true →
    exec (.resetNRelease true) s = .next { s with dev := { s.dev with
      pins := { s.dev.pins with resetN := true, pwrEn := true }
      pwr := { s.dev.pwr with vid := 0x14 } } } ∧
    exec (.resetNRelease false) s = .next { s with dev := { s.dev with pins := { s.dev.pins with faultN := true } } })

/-- PWROK_RISE (15 R440 to R447, R450; 12 R377; 13 R391; 09 R277). When the rails are good after RESET_N and PWR_EN the bring-up runs: no PLL lock is
the safe state with cause 9, no valid image cause 2, a bad factory record cause 8, an uncovered test failure or HBM cause 1; otherwise the
firmware of the booted image is ready, the user record that is newest applies, the clock stands at the ceiling and VID at that clock's code, every
key is gone, the recorded weight ranges are zeros, and each used port that its record allows trains; a failed array or buffer row that ballast covers is repaired with DEGRADED. Before its time it changes nothing. -/
def Obligations.BringUpAfterPowerGood : Prop :=
  ∀ (s : State) (b : BootIn) (i : FwImage) (isB fb : Bool) (f : UnitFail) (g : Group) (row : Nat),
    let due := s.dev.pins.pwrok = false ∧ s.dev.pins.pwrEn = true ∧ s.dev.pins.resetN = true ∧ s.dev.pins.vddao = true ∧ s.dev.pwr.cause = 0
    let fw : Fw := ⟨i.line, i.minor, i.build, i.svn, isB, i.hash, true⟩
    let boots := due ∧ b.pllOk = true ∧ bootImage s.dev.fuses s.dev.flash = some (i, isB, fb)
    let cal := (bootCal s.dev.flash).getD s.dev.pwr.cal
    let ofs := if (bootCal s.dev.flash).isSome then calField cal 200 else s.dev.pwr.vddcOfs
    let rows := s.dev.wgt.recorded
    let up (t : State) : Prop := t.pending = s.pending ∧ t.dev.pins = { s.dev.pins with pwrok := true, clocksOff := false, perstN := true } ∧
      t.dev.fw = fw ∧ t.dev.pwr.cause = 0 ∧ t.dev.pwr.cal = cal ∧ t.dev.pwr.clk = min (levelCeil s.dev.pwr.reef) (barredCeil s.dev.flash ofs) ∧
      t.dev.pwr.vid = vidFor s.dev.flash (calField cal 200) t.dev.pwr.clk ∧
      (∀ x ∈ t.dev.wgt.pubKeys, x = none) ∧ (∀ x ∈ t.dev.wgt.sessions, x.cek = false) ∧ t.dev.wgt.recorded = [] ∧ t.dev.wgt.bootZero = [] ∧
      t.dev.tth.self = nodeOf s.dev.flash.tether ∧
      (∀ p < 16, p < s.dev.tth.ports.length → ∀ v w, s.dev.flash.tether.dirs[p]? = some v → s.dev.flash.tether.rates[p]? = some w → w ≠ 3 → v < 4 →
        t.dev.tth.ports[p]? = some ⟨v, .training, w, laneMoved s.dev p, 0, none⟩) ∧
      (∀ p < 16, s.dev.flash.tether.dirs[p]? = some 6 → t.dev.tth.ports[p]? = s.dev.tth.ports[p]?) ∧
      (∀ x ∈ rows, ∀ a, x.1 ≤ a → a < x.1 + x.2 → t.mem.get a = 0) ∧
      (∀ a, (∀ x ∈ rows, a < x.1 ∨ x.1 + x.2 ≤ a) → t.mem.get a = s.mem.get a)
    (due → b.pllOk = false →
      ∃ d, exec (.pwrokRise b) s = .next { s with dev := d } ∧ SafeEntered 9 s.dev d ∧ d.pins.pwrok = true ∧ d.pins.faultN = true) ∧
    (due → b.pllOk = true → bootImage s.dev.fuses s.dev.flash = none →
      ∃ d, exec (.pwrokRise b) s = .next { s with dev := d } ∧ SafeEntered 2 { s.dev with fw := { s.dev.fw with ready := true } } d) ∧
    (boots → s.dev.flash.factoryOk = false →
      ∃ d, exec (.pwrokRise b) s = .next { s with dev := d } ∧ SafeEntered 8 { s.dev with fw := fw } d) ∧
    (boots → s.dev.flash.factoryOk = true → (b.hbmOk = false ∨ b.bist = [f] ∧ f.kind = 0 ∧ f.ballast = false ∧
        s.dev.integ.balArrays[f.unit / 20]? = some false) →
      ∃ d, exec (.pwrokRise b) s = .next { s with dev := d } ∧ d.pwr.cause = 1 ∧ d.fw = fw ∧ (∀ p ∈ d.tth.ports, p.state = .off)) ∧
    (boots → s.dev.flash.factoryOk = true → b.hbmOk = true → b.bist = [] → MemCanonical s →
      ∃ t, exec (.pwrokRise b) s = .next t ∧ up t ∧ t.dev.integ = s.dev.integ) ∧
    (boots → s.dev.flash.factoryOk = true → b.hbmOk = true → b.bist = [f] → f.kind = 0 → f.ballast = false →
        s.dev.integ.balArrays[f.unit / 20]? = some true → MemCanonical s →
      ∃ t, exec (.pwrokRise b) s = .next t ∧ up t ∧ siteOf t.dev 0 f.unit = 160 + f.unit / 20 ∧
        (∀ k n, (k, n) ≠ (0, f.unit) → siteOf t.dev k n = siteOf s.dev k n) ∧
        t.dev.integ.balArrays = modAt (fun _ => false) (f.unit / 20) s.dev.integ.balArrays ∧ s.dev.evt.fseq < t.dev.evt.fseq) ∧
    (boots → s.dev.flash.factoryOk = true → b.hbmOk = true → b.bist = [f] → f.kind = 2 → f.ballast = false → f.addr = some row →
        s.dev.groups[f.unit]? = some g → g.rowsVu < 16 → MemCanonical s →
      ∃ t, exec (.pwrokRise b) s = .next t ∧ up t ∧ s.dev.evt.fseq < t.dev.evt.fseq ∧ t.dev.integ.sites = s.dev.integ.sites ∧
        t.dev.groups = modAt (fun g => { g with rowsVu := g.rowsVu + 1 }) f.unit s.dev.groups) ∧
    (¬ due → exec (.pwrokRise b) s = .next s)

/-- PWROK_TIMEOUT, PWROK_FALL, RAIL_MONITOR_TRIP and THERMAL_TRIP take the device into its safe state with the cause that R441, R455
and R469 name, and do all that R449 lists: every spar group and tether port OFF, port G's links down, no weight session open and no
key held, FAULT_N low, IRQ_CAUSE.FATAL set and AER signalled once. What else stays is the frame. -/
def Obligations.SafeStateEntry : Prop :=
  ∀ (s : State), s.dev.pwr.cause = 0 →
    (s.dev.pins.pwrEn = true → s.dev.pins.pwrok = false →
      ∃ d, exec .pwrokTimeout s = .next { s with dev := d } ∧ SafeEntered 3 s.dev d ∧ d.pins = { s.dev.pins with faultN := true }) ∧
    (s.dev.pins.pwrok = true →
      ∃ d, exec .pwrokFall s = .next { s with dev := d } ∧ SafeEntered 3 s.dev d ∧
        d.pins = { s.dev.pins with pwrok := false, clocksOff := true, faultN := true }) ∧
    (∀ r : Rail, s.dev.pins.pwrok = true →
      ∃ d, exec (.railMonitorTrip r) s = .next { s with dev := d } ∧ SafeEntered 3 s.dev d ∧
        d.pins = { s.dev.pins with clocksOff := true, faultN := true }) ∧
    (∀ t : ThermIn, (∃ v ∈ t.tj, 480 ≤ v) ∨ (∃ v ∈ t.hbm, 420 ≤ v) →
      ∃ d, exec (.thermalTrip t) s = .next { s with dev := d } ∧ SafeEntered 4 s.dev d ∧
        d.pins = { s.dev.pins with thermtrip := true, faultN := true })

/-- REEF_REQ_CHANGE and THERMAL_REQUEST_CHANGE set the board's and the thermal request. The effective level becomes the highest of
the three (15 R452), a change of it counts in CRW_PWR_REEFCH, and each change of the thermal request sets IRQ_CAUSE.THERM (15 R454).
Only power and interrupt registers move, and the clock setting does not move with the request.
Clock moves under a changed ceiling (15 R448, R452). REEF_CLOCK_STEP moves a clock above the ceiling down one step of 50 MHz (never
below 0.40 GHz), VID following the last step; VID_SETTLE_CLOCK_RISE moves the clock up one step after its VID. Only the power
registers change. -/
def Obligations.ReefLevelAndClock : Prop :=
  (∀ (s : State) (v : Nat) (t : ThermIn),
    (∃ p, exec (.reefReqChange v) s = .next { s with dev := { s.dev with pwr := p } } ∧
      p.pins = v % 4 ∧ p.host = s.dev.pwr.host ∧ p.therm = s.dev.pwr.therm ∧
      p.reef = max s.dev.pwr.host (max (v % 4) s.dev.pwr.therm) ∧
      p.reefch = (if p.reef = s.dev.pwr.reef then s.dev.pwr.reefch else satAdd s.dev.pwr.reefch 1) ∧
      p.clk = s.dev.pwr.clk ∧ p.hold = s.dev.pwr.hold ∧ p.clamped = s.dev.pwr.clamped) ∧
    (∃ p q, exec (.thermalRequestChange t) s = .next { s with dev := { s.dev with pwr := p, irq := q } } ∧
      p.therm = thermRequest s.dev t ∧ p.host = s.dev.pwr.host ∧ p.pins = s.dev.pwr.pins ∧
      (p.therm ≠ s.dev.pwr.therm →
        p.reef = max s.dev.pwr.host (max s.dev.pwr.pins p.therm) ∧ q = (raise irqTherm s.dev).irq) ∧
      (p.therm = s.dev.pwr.therm → p.reef = s.dev.pwr.reef ∧ q = s.dev.irq) ∧
      p.clk = s.dev.pwr.clk ∧ p.hold = s.dev.pwr.hold ∧ p.clamped = s.dev.pwr.clamped)) ∧
  (∀ s : State,
    (clkCeil s.dev < s.dev.pwr.clk → 45 ≤ s.dev.pwr.clk →
      ∃ p, exec .reefClockStep s = .next { s with dev := { s.dev with pwr := p } } ∧ p.clk = s.dev.pwr.clk - 5 ∧
        p.vid = (if s.dev.pwr.clk - 5 ≤ clkCeil s.dev then vidFor s.dev.flash (calField s.dev.pwr.cal 200) (s.dev.pwr.clk - 5)
          else s.dev.pwr.vid) ∧
        p.reef = s.dev.pwr.reef) ∧
    (s.dev.pwr.rising ≠ 0 → s.dev.pwr.clk + 5 ≤ clkCeil s.dev →
      ∃ p, exec .vidSettleClockRise s = .next { s with dev := { s.dev with pwr := p } } ∧ p.clk = s.dev.pwr.clk + 5 ∧
        p.reef = s.dev.pwr.reef ∧
        (s.dev.pwr.rising ≤ s.dev.pwr.clk + 5 → p.rising = 0 ∧ p.vid = s.dev.pwr.vid)))

/-- The governor (15 R453). GOVERNOR_STEP_DOWN above the cap lowers the clock one step of 50 MHz with the VID of the new clock, and at
the 0.40 GHz floor holds one more sixteenth of issue; GOVERNOR_STEP_UP below 95 % of the cap gives held issue back, or starts a rise by
raising VID for the next step first (15 R448). FAST_CLAMP above 110 % of the cap clamps and counts; FAST_CLAMP_END releases. -/
def Obligations.GovernorKeepsTheCap : Prop :=
  ∀ (s : State) (w : Nat), w < 65536 →
    (levelCap s.dev.pwr.reef < w → 40 < s.dev.pwr.clk →
      exec (.governorStepDown w) s = .next { s with dev := { s.dev with pwr := { s.dev.pwr with
        watts := w, peak := max s.dev.pwr.peak w, clk := s.dev.pwr.clk - 5, rising := 0
        vddcOfs := calField s.dev.pwr.cal 200, vid := vidFor s.dev.flash (calField s.dev.pwr.cal 200) (s.dev.pwr.clk - 5)
        ceilLow := decide (barredCeil s.dev.flash (calField s.dev.pwr.cal 200) < 120) } } }) ∧
    (levelCap s.dev.pwr.reef < w → s.dev.pwr.clk ≤ 40 →
      exec (.governorStepDown w) s = .next { s with dev := { s.dev with pwr := { s.dev.pwr with
        watts := w, peak := max s.dev.pwr.peak w, hold := min 15 (s.dev.pwr.hold + 1) } } }) ∧
    (w * 100 < levelCap s.dev.pwr.reef * 95 → 0 < s.dev.pwr.hold →
      exec (.governorStepUp w) s = .next { s with dev := { s.dev with pwr := { s.dev.pwr with
        watts := w, peak := max s.dev.pwr.peak w, hold := s.dev.pwr.hold - 1 } } }) ∧
    (w * 100 < levelCap s.dev.pwr.reef * 95 → s.dev.pwr.hold = 0 → s.dev.pwr.clk < clkCeil s.dev → s.dev.pwr.rising = 0 →
      exec (.governorStepUp w) s = .next { s with dev := { s.dev with pwr := { s.dev.pwr with
        watts := w, peak := max s.dev.pwr.peak w, rising := s.dev.pwr.clk + 5
        vddcOfs := calField s.dev.pwr.cal 200, vid := vidFor s.dev.flash (calField s.dev.pwr.cal 200) (s.dev.pwr.clk + 5)
        ceilLow := decide (barredCeil s.dev.flash (calField s.dev.pwr.cal 200) < 120) } } }) ∧
    (levelCap s.dev.pwr.reef * 11 < w * 10 →
      exec (.fastClamp w) s = .next { s with dev := { s.dev with pwr := { s.dev.pwr with
        clamped := true, clamps := satAdd s.dev.pwr.clamps 1 } } }) ∧
    exec .fastClampEnd s = .next { s with dev := { s.dev with pwr := { s.dev.pwr with clamped := false } } }

/-- Spar-group power and core gating (15 R436 to R439), for one group `g` and one core `c`: RUN to IDLE after 2 us, sleep and wake
marks, the latched start behind a power-down, OFF, RUN; and a core with no work. Every other group, core and part stays. -/
def Obligations.SparGroupPowerStates : Prop :=
  ∀ (s : State) (g : Nat) (p : GroupPwr), s.dev.gpwr[g]? = some p →
    (p.state = .run →
      exec (.sparGroupIdle g) s = .next { s with dev := { s.dev with gpwr := modAt (fun _ => { p with state := .idle }) g s.dev.gpwr } }) ∧
    (p.state ≠ .off →
      exec (.sleepMark g) s = .next { s with dev := { s.dev with
        gpwr := modAt (fun _ => { p with state := .idle, falling := true, starting := false }) g s.dev.gpwr } }) ∧
    (planUses s.dev g = true → p.absent = false → p.state ≠ .run → p.falling = false →
      exec (.wakeMark g) s = .next { s with dev := { s.dev with gpwr := modAt (fun _ => { p with starting := true }) g s.dev.gpwr } }) ∧
    (planUses s.dev g = true → p.absent = false → p.state ≠ .run → p.falling = true →
      exec (.wakeMark g) s = .next { s with dev := { s.dev with gpwr := modAt (fun _ => { p with pend := true }) g s.dev.gpwr } }) ∧
    (p.falling = true →
      exec (.sparGroupPowerDownDone g) s = .next { s with dev := { s.dev with
        gpwr := modAt (fun _ => { p with state := .off, falling := false, starting := p.pend }) g s.dev.gpwr } }) ∧
    (p.absent = false → p.starting = true →
      exec (.sparGroupRun g) s = .next { s with dev := { s.dev with
        gpwr := modAt (fun _ => { p with state := .run, starting := false, pend := false }) g s.dev.gpwr } }) ∧
    (∀ c, s.dev.integ.cores[c]? = some .clockGated → (c ≠ 0 ∨ hLinkUp s.dev = false) →
      exec (.corePowerGate c) s = .next { s with dev := { s.dev with
        integ := { s.dev.integ with cores := modAt (fun _ => .powerGated) c s.dev.integ.cores } } })

/-- PORT_H_LINK_UP, PORT_H_LINK_DOWN and HALYARD_RESET (14 R402, R405). The link takes the best mode that both ends support and sets
LINK, and with no common mode or width it stays as it is; a link that comes back after a surprise link-down does it after a halyard reset; a link-down clears the link's fields and
leaves the admitted plan running; a halyard reset returns the HLY_, IRQ_ and DBG_ registers to their reset values and ends the HDM mapping and
every session, and touches no plan, memory, tether, bay state or counter of the crow's nest. Which order the modes take is log entry 17. -/
def Obligations.PortHLinkAndHalyardReset : Prop :=
  ∀ (s : State) (l : LinkIn) (m : Nat),
    (modeOrder.find? (fun x => l.modes.contains x) = some m → (l.width = 4 ∨ l.width = 8 ∨ l.width = 16) → s.dev.cxl.hWasDown = false →
      ∃ d, exec (.portHLinkUp l) s = .next { s with dev := d } ∧
        ReportsOnly { s.dev with cxl := { s.dev.cxl with
          hMode := m, hWidth := l.width, hFlit256 := modeFlit256 m, hLopt := modeFlit256 m && l.lopt
          hCache := decide (m ≤ 3) && l.cache, hMem := decide (m ≤ 2) && l.mem, hL0p := false, hWasDown := false } } d ∧
        d.irq.cause.getLsbD 8 = true ∧ d.irq.mask = s.dev.irq.mask) ∧
    ((modeOrder.find? (fun x => l.modes.contains x) = none ∨ l.width ≠ 4 ∧ l.width ≠ 8 ∧ l.width ≠ 16) →
      exec (.portHLinkUp l) s = .next s) ∧
    (modeOrder.find? (fun x => l.modes.contains x) = some m → (l.width = 4 ∨ l.width = 8 ∨ l.width = 16) → s.dev.cxl.hWasDown = true →
      ∃ t, exec .halyardReset s = .next t ∧
        exec (.portHLinkUp l) s =
          exec (.portHLinkUp l) { t with dev := { t.dev with cxl := { t.dev.cxl with hWasDown := false } } }) ∧
    (s.dev.cxl.hMode ≠ 0 → s.dev.plan.run = none →
      exec .portHLinkDown s = .next { s with dev := { s.dev with cxl := { s.dev.cxl with
        hMode := 0, hWidth := 0, hFlit256 := false, hLopt := false, hCache := false, hMem := false, hIde := [], hL0p := false
        hWasDown := true } } }) ∧
    (s.dev.cxl.hMode = 0 → exec .portHLinkDown s = .next s) ∧
    (s.dev.cxl.hMode ≠ 0 →
      ∃ d, exec .portHLinkDown s = .next { s with dev := d } ∧ d.plan = s.dev.plan ∧ d.cxl.hMode = 0 ∧ d.cxl.hWasDown = true ∧
        d = { s.dev with cxl := d.cxl, snap := d.snap, hly := d.hly, evt := d.evt, irq := d.irq, host := d.host }) ∧
    (∃ d, exec .halyardReset s = .next { s with dev := d } ∧ d.hly = Hly.reset ∧ d.irq.cause = 0 ∧ d.irq.mask = 0 ∧ d.irq.cls = 2 ∧
      d.irq.table = msixReset ∧ d.dbg = { s.dev.dbg with scratch := 0 } ∧ d.cxl.hdmLen = 0 ∧ d.cxl.hdmBase = 0 ∧
      (∀ i < 4, (sessionAt d i).isOpen = false) ∧ d.plan = { s.dev.plan with latched := none } ∧
      d.integ = { s.dev.integ with bistCmd := none } ∧ d.gon.bays.map Bay.state = s.dev.gon.bays.map Bay.state ∧
      d = { s.dev with hly := d.hly, evt := d.evt, irq := d.irq, cxl := d.cxl, dbg := d.dbg, integ := d.integ, gon := d.gon,
                       plan := d.plan, wgt := d.wgt, host := d.host })

/-- Port H's counters and messages while the link runs (14 R403, R404, R410; 13 R385): a link retry of either port and an IDE
integrity failure count in their register and as one event of bucket class 7; a DOE request is answered or programs an IDE key; an
L0p change shows in CXL_H_STAT.L0P and sets LINK. The texts that carry a signature, and the CDAT, are free values (log entry 9).
SCAN_CHAIN_ENABLE (13 R393; 14 R411). Test access shows in DBG_STAT; a chain that reaches key material finds the key store zeroized (IDE streams that end with their keys set LINK), and while
firmware runs it ends every session and puts the device in its safe state with cause 7. -/
def Obligations.PortHCountersAndTestAccess : Prop :=
  (∀ (s : State) (nonce : BitVec 256) (k : Nat) (r : Bool),
    exec (.cxlLinkRetry true) s =
      .next { s with dev := bucketHit 7 1 { s.dev with cxl := { s.dev.cxl with gRetry := satAdd s.dev.cxl.gRetry 1 } } } ∧
    exec (.cxlLinkRetry false) s =
      .next { s with dev := bucketHit 7 0 { s.dev with cxl := { s.dev.cxl with hRetry := satAdd s.dev.cxl.hRetry 1 } } } ∧
    (s.dev.cxl.hIde = [] → exec .ideIntegrityFailure s = .next s) ∧
    (s.dev.cxl.hIde ≠ [] → exec .ideIntegrityFailure s =
      .next { s with dev := bucketHit 7 0 { s.dev with cxl := { s.dev.cxl with hIdeFail := satAdd s.dev.cxl.hIdeFail 1 } } }) ∧
    exec (.doeRequest (.spdm nonce)) s =
      .next { s with dev := { s.dev with cxl := { s.dev.cxl with doeOut := s.dev.cxl.doeOut ++ [attestBytes s.dev nonce.toNat] } } } ∧
    exec (.doeRequest .cdat) s =
      .next { s with dev := { s.dev with cxl := { s.dev.cxl with doeOut := s.dev.cxl.doeOut ++ [Config.cdat] } } } ∧
    (s.dev.cxl.hIde = [] → exec (.doeRequest (.ideKeyProg k)) s =
      .next { s with dev := raise irqLink { s.dev with cxl := { s.dev.cxl with hIde := [k] } } }) ∧
    (s.dev.cxl.hIde ≠ [] → exec (.doeRequest (.ideKeyProg k)) s =
      .next { s with dev := { s.dev with cxl := { s.dev.cxl with
        hIde := if k ∈ s.dev.cxl.hIde then s.dev.cxl.hIde else s.dev.cxl.hIde ++ [k] } } }) ∧
    (s.dev.cxl.hIde = [k] → exec (.doeRequest (.ideKeyStop k)) s =
      .next { s with dev := raise irqLink { s.dev with cxl := { s.dev.cxl with hIde := [] } } }) ∧
    ((∃ i ∈ s.dev.cxl.hIde, i ≠ k) → exec (.doeRequest (.ideKeyStop k)) s =
      .next { s with dev := { s.dev with cxl := { s.dev.cxl with hIde := s.dev.cxl.hIde.filter (· ≠ k) } } }) ∧
    ((s.dev.cxl.hFlit256 = false ∨ s.dev.cxl.hL0p = r) → exec (.l0pChange r) s = .next s) ∧
    (s.dev.cxl.hFlit256 = true → s.dev.cxl.hL0p ≠ r → exec (.l0pChange r) s =
      .next { s with dev := raise irqLink { s.dev with cxl := { s.dev.cxl with hL0p := r } } })) ∧
  (∀ (s : State) (c : ScanChain),
    ((c = .ballastUnit ∨ c = .other) →
      exec (.scanChainEnable c) s = .next { s with dev := { s.dev with dbg := { s.dev.dbg with tapAny := true, tapNow := true } } }) ∧
    (c ≠ .ballastUnit → c ≠ .other → s.dev.fw.ready = false →
      exec (.scanChainEnable c) s = .next { s with dev := { s.dev with
        dbg := { s.dev.dbg with tapAny := true, tapNow := true, tapKey := true }
        wgt := { s.dev.wgt with
          sessions := s.dev.wgt.sessions.map fun x => { x with cek := false, pub := none }
          pubKeys := s.dev.wgt.pubKeys.map fun _ => none }
        cxl := { s.dev.cxl with hIde := [] }
        irq := if s.dev.cxl.hIde = [] then s.dev.irq else (raise irqLink s.dev).irq } }) ∧
    (c ≠ .ballastUnit → c ≠ .other → s.dev.fw.ready = true → s.dev.pwr.cause = 0 →
      ∃ d, exec (.scanChainEnable c) s = .next { s with dev := d } ∧
        SafeEntered 7 { s.dev with dbg := { s.dev.dbg with tapAny := true, tapNow := true, tapKey := true } } d))

/-- A bucket counts the events of its class and region below THRESH; the event that reaches THRESH sets the level to 0, delivers one
CORRECTED report naming class and region, counts in CRW_INT_BKTOVF and sets IRQ_CAUSE.BUCKET (13 R385). Other buckets, other
regions and the rest of the device stay.
CRW_SCRUB_CTRL.EN and CRW_BKT_CFGn (13 R385, R389). A disable stops the scrubber after the line in flight; an enable during that stop is
latched in SCRUB_PEND. A bucket configuration write sets THRESH and LEAK of one class; a LEAK of 0 stops that class's timer. Levels and
other classes stay. -/
def Obligations.BucketsAndScrubberControl : Prop :=
  (∀ (d : Dev) (n r : Nat) (b : Bucket), d.integ.buckets[n]? = some b → r < b.regions →
    ((b.level.get r).toNat + 1 < b.thresh →
      bucketHit n r d = { d with integ := { d.integ with
        buckets := modAt (fun b => { b with level := b.level.set r (BitVec.ofNat 16 ((b.level.get r).toNat + 1)) }) n d.integ.buckets } }) ∧
    (b.thresh ≤ (b.level.get r).toNat + 1 →
      ReportsOnly { d with integ := { d.integ with
        bktOvf := satAdd d.integ.bktOvf 1, buckets := modAt (fun b => { b with level := b.level.set r 0 }) n d.integ.buckets } }
        (bucketHit n r d) ∧
      (bucketHit n r d).irq.cause.getLsbD 6 = true ∧ (bucketHit n r d).evt.fseq = d.evt.fseq + 1) ∧
    (∀ k, k ≠ n → (bucketHit n r d).integ.buckets[k]? = d.integ.buckets[k]?)) ∧
  (∀ (s : State) (n : Nat) (w : W32),
    (s.dev.integ.scrubEn = true →
      exec .scrubDisable s = .next { s with dev := { s.dev with integ := { s.dev.integ with
        scrubEn := false, scrubPend := false, scrubStopping := true } } }) ∧
    exec .scrubEnable s = .next { s with dev := { s.dev with integ := { s.dev.integ with
      scrubEn := true, scrubPend := s.dev.integ.scrubPend || s.dev.integ.scrubStopping } } } ∧
    exec (.bktCfgWrite n w) s = .next { s with dev := { s.dev with integ := { s.dev.integ with
      buckets := modAt (fun b => { b with
        thresh := w.toNat / 65536 % 256, leak := w.toNat % 65536, timer := decide (w.toNat % 65536 ≠ 0) }) n s.dev.integ.buckets } } })

/-- Writes of IRQ_MASK and of ones to IRQ_CAUSE (14 R428, R429). Cleared bits go unless hardware sets them in the same cycle; for every
bit of cause-and-mask that rises, in ascending order, the vector's message is sent, or its pending bit is set while the vector is masked; nothing
else sends. A cleared ring bit starts that ring's count of unsignalled completions afresh (R430).
MSIX_UNMASK of a vector below 16 clears the vector's mask bit; a pending vector whose cause is still set and enabled sends its
message, and the pending bit goes (14 R429). A read of DBG_WTIME_LO latches the high half of the watch time (14 R411). -/
def Obligations.MsixMessages : Prop :=
  (∀ (s : State) (w : W32) (hw : BitVec 10),
    (∃ q, exec (.irqMaskWrite w) s = .next { s with dev := { s.dev with irq := q } } ∧
      q.cause = s.dev.irq.cause ∧ q.mask = BitVec.ofNat 10 w.toNat ∧ MessagesFor s.dev.irq q) ∧
    (∃ q rs, exec (.irqCauseClear w hw) s = .next { s with dev := { s.dev with irq := q, hly := { s.dev.hly with rings := rs } } } ∧
      q.cause = (s.dev.irq.cause &&& ~~~(BitVec.ofNat 10 w.toNat)) ||| hw ∧ q.mask = s.dev.irq.mask ∧ MessagesFor s.dev.irq q ∧
      ∀ n, rs[n]? = (s.dev.hly.rings[n]?).map fun r =>
        if n < 4 ∧ (BitVec.ofNat 10 w.toNat).getLsbD n = true then { r with sinceClear := 0 } else r)) ∧
  (∀ (s : State) (v : Nat),
    (v < 16 → s.dev.irq.pba.getLsbD v = false →
      exec (.msixUnmask v) s = .next { s with dev := { s.dev with irq := { s.dev.irq with
        table := s.dev.irq.table.set (4 * v + 3) (s.dev.irq.table.get (4 * v + 3) &&& 0xFFFFFFFE) } } }) ∧
    (v < 10 → s.dev.irq.pba.getLsbD v = true → (s.dev.irq.cause &&& s.dev.irq.mask).getLsbD v = true →
      exec (.msixUnmask v) s = .next { s with dev := { s.dev with irq := { s.dev.irq with
        table := s.dev.irq.table.set (4 * v + 3) (s.dev.irq.table.get (4 * v + 3) &&& 0xFFFFFFFE)
        pba := s.dev.irq.pba &&& ~~~(BitVec.ofNat 16 (2 ^ v)), sent := s.dev.irq.sent ++ [v] } } }) ∧
    exec .dbgWtimeLoRead s = .next { s with dev := { s.dev with dbg := { s.dev.dbg with
      wtimeHi := BitVec.ofNat 32 (s.dev.dbg.now / 2 ^ 32) } } })

/-- Clears of flag registers (02 R73, R74; 09 R304; 00 R14). Writing ones to CRW_NFLAG_CTXn clears those bits of context n in every
engine's host-visible word and leaves the plan-visible words and the other contexts; with no bit left FIRST_ENG is 0xFF. A flag that
hardware sets in the same cycle stays set. The same for CRW_TTH_ACCFLAG.
The eleven counter clears of the crow's nest: a 1 in CLR sets to 0 exactly the registers that the chapter lists, and a 0 changes
nothing (05 R190, 06 R220, 07 R242, 08 R269, 09 R304, 10 R333, 11 R358, 12 R379, 13 R395, 14 R408, 15 R459). -/
def Obligations.FlagAndCounterClears : Prop :=
  (∀ (s : State) (c e : Nat) (w a : W32) (f : W16), c < 8 →
    (∃ n, exec (.nflagClear c w []) s = .next { s with dev := { s.dev with nflag := n } } ∧ n.plan = s.dev.nflag.plan ∧
      hostFlags n c = hostFlags s.dev.nflag c &&& ~~~(BitVec.ofNat 16 (w.toNat % 1024)) ∧
      (∀ k, k ≠ c → k < 8 → hostFlags n k = hostFlags s.dev.nflag k ∧ n.first[k]? = s.dev.nflag.first[k]?) ∧
      n.first[c]? = if hostFlags n c = 0 then (s.dev.nflag.first[c]?).map (fun _ => 0xFF) else s.dev.nflag.first[c]?) ∧
    (∃ n, exec (.nflagClear c w [(e, f)]) s = .next { s with dev := { s.dev with nflag := n } } ∧
      n.host.get (8 * e + c) &&& f = f) ∧
    (∃ x, exec (.accflagClear w a) s = .next { s with dev := { s.dev with tth := { s.dev.tth with accFlag := x } } } ∧
      ∀ i < 8, x.getLsbD i =
        ((s.dev.tth.accFlag.getLsbD i && !w.getLsbD i || a.getLsbD i) && (0xCD : BitVec 8).getLsbD i))) ∧
  (∀ (s : State) (w : W32),
    (w.getLsbD 0 = true →
      exec (.crwGenCtrlClr w) s = .next { s with dev := { s.dev with
        gen := ⟨0, List.replicate 40 0, List.replicate 40 0, List.replicate 40 0⟩ } } ∧
      exec (.crwCurvCtrlClr w) s = .next { s with dev := { s.dev with curv := { s.dev.curv with
        pub := 0, late := 0, skip := 0, aband := 0, rej := 0, tapRows := 0, gramReplay := 0 } } } ∧
      exec (.crwSolvCtrlClr w) s = .next { s with dev := { s.dev with solv := { s.dev.solv with
        done := 0, dlStop := 0, overrun := 0, brk := 0, aband := 0, piv := 0, patch := 0, prej := 0, itLost := 0 } } } ∧
      exec (.crwPlanCtrlClr w) s = .next { s with dev := { s.dev with plan := { s.dev.plan with
        maxSlip := 0, late := 0, drop := 0, cont := 0, repl := 0 } } } ∧
      exec (.crwMemCtrlClr w) s = .next { s with dev := { s.dev with gon := { s.dev.gon with
        tmo := 0, badRsp := 0, hotplug := 0, ledgerHold := 0, ledgerRestart := 0, hbmRemap := 0 } } } ∧
      exec (.crwTthCtrlClr w) s = .next { s with dev := { s.dev with tth := { s.dev.tth with
        retry := 0, lswap := 0, escape := 0, rejEpoch := 0, rejWindow := 0, rejOther := 0, tmo := 0, tsat := 0 } } } ∧
      exec (.crwVrdCtrlClr w) s = .next { s with dev := { s.dev with vrd := { s.dev.vrd with
        commits := 0, skips := 0, missing := 0, recon := 0, digest := 0, badRec := 0 } } } ∧
      exec (.crwSnapCtrlClr w) s = .next { s with dev := { s.dev with snap := { s.dev.snap with
        done := 0, skip := 0, abort := 0, hold := 0, genFix := 0, restore := 0, tackLoss := 0 } } } ∧
      exec (.crwWgtCtrlClr w) s = .next { s with dev := { s.dev with wgt := { s.dev.wgt with
        chunks := 0, tagFail := 0, digFail := 0, scrubFail := 0, refetch := 0, switches := 0, sealRd := 0 } } } ∧
      exec (.crwIntCtrlClr w) s = .next { s with dev := { s.dev with integ := { s.dev.integ with
        corr := 0, deferred := 0, ue := 0, parReplay := 0, bktOvf := 0, rowRetire := 0, passS := 0, passH := 0 } } } ∧
      exec (.crwPwrCtrlClr w) s = .next { s with dev := { s.dev with pwr := { s.dev.pwr with
        sgLate := 0, clamps := 0, reefch := 0, peak := 0 } } }) ∧
    (w.getLsbD 0 = false →
      exec (.crwGenCtrlClr w) s = .next s ∧ exec (.crwCurvCtrlClr w) s = .next s ∧ exec (.crwSolvCtrlClr w) s = .next s ∧
      exec (.crwPlanCtrlClr w) s = .next s ∧ exec (.crwMemCtrlClr w) s = .next s ∧ exec (.crwTthCtrlClr w) s = .next s ∧
      exec (.crwVrdCtrlClr w) s = .next s ∧ exec (.crwSnapCtrlClr w) s = .next s ∧ exec (.crwWgtCtrlClr w) s = .next s ∧
      exec (.crwIntCtrlClr w) s = .next s ∧ exec (.crwPwrCtrlClr w) s = .next s))

/-- A write to BAR0 that is not one aligned 32-bit word is ignored and counted (14 R407); DBG_SCRATCH and IRQ_CLASS store; a base register of
an enabled or unquiesced ring ignores the write and counts it (14 R413); read-only registers ignore it (14 R406, R411); and a write to a
register that has a command of its own is that command. -/
def Obligations.RegisterWrites : Prop :=
  ∀ (s : State) (off : Nat) (w : W32) (bytes : Nat),
    (off < 0x100000 → (bytes ≠ 4 ∨ off % 4 ≠ 0) →
      exec (.registerWrite off w bytes) s = .next { s with dev := { s.dev with gen := { s.dev.gen with
        rsvdWr := satAdd s.dev.gen.rsvdWr 1 } } }) ∧
    exec (.registerWrite 0x4004 w 4) s = .next { s with dev := { s.dev with dbg := { s.dev.dbg with scratch := w } } } ∧
    exec (.registerWrite 0x2008 w 4) s = .next { s with dev := { s.dev with irq := { s.dev.irq with cls := w.toNat % 8 } } } ∧
    (∀ n r, n < 4 → s.dev.hly.rings[n]? = some r → r.en = false → r.quiesced = true →
      exec (.registerWrite (0x1100 + 0x40 * n) w 4) s = .next { s with dev := { s.dev with hly := { s.dev.hly with
        rings := modAt (fun r => { r with sqb := BitVec.ofNat 64 (r.sqb.toNat / 2 ^ 32 * 2 ^ 32 + w.toNat) }) n s.dev.hly.rings } } }) ∧
    (∀ n r, n < 4 → s.dev.hly.rings[n]? = some r → (r.en = true ∨ r.quiesced = false) →
      exec (.registerWrite (0x1100 + 0x40 * n) w 4) s = .next { s with dev := { s.dev with gen := { s.dev.gen with
        rsvdWr := satAdd s.dev.gen.rsvdWr 1 } } }) ∧
    (off < 0x1000 → exec (.registerWrite off w 4) s = .next s ∨ off % 4 ≠ 0) ∧
    (0x100000 ≤ off → exec (.registerWrite off w bytes) s = .next s) ∧
    exec (.registerWrite 0x2000 w 4) s = exec (.irqCauseClear w 0) s ∧
    exec (.registerWrite 0x2004 w 4) s = exec (.irqMaskWrite w) s ∧
    exec (.registerWrite 0x1114 w 4) s = exec (.doorbell 0 (w.toNat % 65536)) s ∧
    exec (.registerWrite 0x111C w 4) s = exec (.cqHeadWrite 0 (w.toNat % 65536)) s ∧
    exec (.registerWrite 0x121C w 4) s = exec (.eventRingHeadWrite (w.toNat % 65536)) s ∧
    (∀ c < 8, exec (.registerWrite (0x10400 + 4 * c) w 4) s = exec (.nflagClear c w []) s) ∧
    (∀ n < 8, exec (.registerWrite (0x10D40 + 4 * n) w 4) s = exec (.bktCfgWrite n w) s) ∧
    exec (.registerWrite 0x10D00 w 4) s = exec (.crwIntCtrlClr w) s

/-- Enabling and shutting down the halyard as a whole (14 R412, R414, R415). An enable on a quiesced halyard starts it and every ring
whose RING_EN bit is set; one during a shut-down is latched, EN reading 1; a disable stops every ring, or cancels a latched enable. An enable
before the firmware is ready, or of a running halyard, changes nothing.
RING_ENABLE and RING_SHUT_DOWN of ring `n` (14 R414, R415, R417): a start from index 0, the latched enable, a base that is not 4 KiB
aligned, the enable while the halyard is off, the cancelled latch, and a shut-down. Other rings stay. -/
def Obligations.HalyardAndRingsStartAndStop : Prop :=
  (∀ s : State,
    (s.dev.fw.ready = true → s.dev.hly.en = false → s.dev.hly.quiesced = true →
      ∃ d, exec .halyardEnable s = .next { s with dev := d } ∧ ReportsOnly s.dev d ∧ d.hly.en = true ∧ d.hly.running = true ∧
        d.hly.quiesced = false ∧ d.hly.restPend = false ∧
        ∀ n r, n < 4 → s.dev.hly.rings[n]? = some r → r.en = true → r.quiesced = true → r.sqb.toNat % 4096 = 0 → r.cqb.toNat % 4096 = 0 →
          ∃ r', d.hly.rings[n]? = some r' ∧ r'.running = true ∧ r'.quiesced = false ∧ r'.err = 0 ∧ r'.head = 0 ∧ r'.tail = 0 ∧
            r'.cqHead = 0 ∧ r'.cqTail = 0 ∧ r'.phase = true) ∧
    (s.dev.fw.ready = true → s.dev.hly.en = false → s.dev.hly.quiesced = false →
      exec .halyardEnable s = .next { s with dev := { s.dev with hly := { s.dev.hly with en := true, restPend := true } } }) ∧
    ((s.dev.fw.ready = false ∨ s.dev.hly.en = true) → exec .halyardEnable s = .next s) ∧
    (s.dev.hly.restPend = true →
      exec .halyardShutDown s = .next { s with dev := { s.dev with hly := { s.dev.hly with en := false, restPend := false } } }) ∧
    (s.dev.hly.restPend = false → s.dev.hly.en = false → exec .halyardShutDown s = .next s) ∧
    (s.dev.hly.restPend = false → s.dev.hly.en = true →
      ∃ d, exec .halyardShutDown s = .next { s with dev := d } ∧ d.hly.en = false ∧ d.hly.quiesced = false ∧
        (∀ n r, n < 4 → s.dev.hly.rings[n]? = some r →
          ∃ r', d.hly.rings[n]? = some r' ∧ r'.running = false ∧ r'.restPend = false ∧ r'.en = r.en ∧
            r'.quiesced = (r.quiesced && !r.running) ∧ r'.sqb = r.sqb ∧ r'.cqb = r.cqb ∧ r'.head = r.head ∧ r'.tail = r.tail) ∧
        d = { s.dev with hly := d.hly, evt := d.evt, irq := d.irq, host := d.host, wgt := d.wgt, integ := d.integ })) ∧
  (∀ (s : State) (n : Nat) (r : Ring), s.dev.hly.rings[n]? = some r →
    ((r.running = true ∨ s.dev.hly.en = false ∨ s.dev.hly.running = false ∨ s.dev.hly.restPend = true) →
      exec (.ringEnable n) s = .next { s with dev := { s.dev with hly := { s.dev.hly with
        rings := modAt (fun _ => { r with en := true }) n s.dev.hly.rings } } }) ∧
    (r.running = false → s.dev.hly.en = true → s.dev.hly.running = true → s.dev.hly.restPend = false → r.quiesced = true →
        r.sqb.toNat % 4096 = 0 → r.cqb.toNat % 4096 = 0 →
      exec (.ringEnable n) s = .next { s with dev := { s.dev with hly := { s.dev.hly with
        rings := modAt (fun _ => { r with
          en := true, running := true, quiesced := false, restPend := false, err := 0
          head := 0, tail := 0, cqHead := 0, cqTail := 0, used := 0, phase := true, sinceClear := 0, bells := [] }) n s.dev.hly.rings } } }) ∧
    (r.running = false → s.dev.hly.en = true → s.dev.hly.running = true → s.dev.hly.restPend = false → r.quiesced = true →
        (r.sqb.toNat % 4096 ≠ 0 ∨ r.cqb.toNat % 4096 ≠ 0) →
      ∃ d, exec (.ringEnable n) s = .next { s with dev := d } ∧ ReportsOnly s.dev d ∧ d.evt.fseq = s.dev.evt.fseq + 1 ∧
        d.hly.rings = modAt (fun _ => { r with err := 3, restPend := false, en := true }) n s.dev.hly.rings) ∧
    (r.running = false → s.dev.hly.en = true → s.dev.hly.running = true → s.dev.hly.restPend = false → r.quiesced = false →
      exec (.ringEnable n) s = .next { s with dev := { s.dev with hly := { s.dev.hly with
        rings := modAt (fun _ => { r with en := true, restPend := true }) n s.dev.hly.rings } } }) ∧
    (r.restPend = true →
      exec (.ringShutDown n) s = .next { s with dev := { s.dev with hly := { s.dev.hly with
        rings := modAt (fun _ => { r with en := false, restPend := false }) n s.dev.hly.rings } } }) ∧
    (r.restPend = false → r.running = false →
      exec (.ringShutDown n) s = .next { s with dev := { s.dev with hly := { s.dev.hly with
        rings := modAt (fun _ => { r with en := false }) n s.dev.hly.rings } } }) ∧
    (r.restPend = false → r.running = true → r.inProg = [] →
      exec (.ringShutDown n) s = .next { s with dev := { s.dev with hly := { s.dev.hly with
        rings := modAt (fun _ => { r with en := false, running := false, quiesced := false }) n s.dev.hly.rings } } }) ∧
    (r.restPend = false → r.running = true →
      ∃ d r', exec (.ringShutDown n) s = .next { s with dev := d } ∧ d.hly.rings[n]? = some r' ∧ r'.en = false ∧ r'.running = false ∧
        r'.quiesced = false ∧ r'.head = r.head ∧ r'.tail = r.tail ∧ r'.sqb = r.sqb ∧ r'.cqb = r.cqb ∧
        d = { s.dev with hly := d.hly, evt := d.evt, irq := d.irq, host := d.host, wgt := d.wgt, integ := d.integ }) ∧
    (r.running = false → r.quiesced = false → r.inProg = [] → r.held = [] → r.restPend = false → s.dev.hly.en = true → s.dev.hly.restPend = false →
      exec (.shutDownComplete n) s = .next { s with dev := { s.dev with hly := { s.dev.hly with
        rings := modAt (fun _ => { r with quiesced := true }) n s.dev.hly.rings } } }) ∧
    (r.running = false → r.quiesced = false → r.inProg = [] → r.held = [] → r.restPend = true →
        r.sqb.toNat % 4096 = 0 → r.cqb.toNat % 4096 = 0 →
      exec (.shutDownComplete n) s = .next { s with dev := { s.dev with hly := { s.dev.hly with
        rings := modAt (fun _ => { r with
          running := true, quiesced := false, restPend := false, err := 0
          head := 0, tail := 0, cqHead := 0, cqTail := 0, used := 0, phase := true, sinceClear := 0, bells := [] }) n s.dev.hly.rings } } }))

/-- DOORBELL and COMMAND_FETCH of ring `n` (14 R416, R417, R420, R421). A doorbell stores the tail, takes its place in the order of arrival, and
wakes a gated core; a tail outside a running ring sets BAD_TAIL and shuts the ring down with a NOTE. A ring whose turn it is fetches: the
descriptor joins the commands in progress in fetch order; one the device does not run is answered at once (in the order of log entry 11); a fetch
the host fails sets FETCH and shuts the ring down. A ring that may not fetch, or whose turn another ring's earlier doorbell takes, fetches nothing. -/
def Obligations.DoorbellAndFetch : Prop :=
  ∀ (s : State) (n tail : Nat) (r : Ring) (x : BitVec 512), s.dev.hly.rings[n]? = some r → tail < 65536 →
    let rung : Ring := { r with tail := tail, bells := if tail = r.head then [] else r.bells ++ [(tail, s.dev.hly.order)] }
    let head := (r.head + 1) % 2 ^ r.sqLog2
    let taken : Dev := { s.dev with hly := { s.dev.hly with
      order := s.dev.hly.order + 1
      rings := modAt (fun _ => { r with
        head := head, bells := bellsFrom head r.tail r.bells, inProg := r.inProg ++ [(s.dev.hly.order, x)] }) n s.dev.hly.rings } }
    let shut (d : Dev) (err : Nat) : Prop := ∃ r', d.hly.rings[n]? = some r' ∧ r'.err = err ∧ r'.running = false ∧ r'.quiesced = false ∧
      r'.head = r.head ∧ r'.sqb = r.sqb ∧ r'.cqb = r.cqb ∧ d.evt.fseq = s.dev.evt.fseq + 1 ∧
      d = { s.dev with hly := d.hly, evt := d.evt, irq := d.irq, host := d.host, wgt := d.wgt, integ := d.integ }
    ((r.running = false ∨ tail < 2 ^ r.sqLog2) →
      exec (.doorbell n tail) s = .next { s with dev := { s.dev with
        hly := { s.dev.hly with order := s.dev.hly.order + 1, rings := modAt (fun _ => rung) n s.dev.hly.rings }
        integ := { s.dev.integ with cores := (wakeCore s.dev).integ.cores } } }) ∧
    (r.running = true → 2 ^ r.sqLog2 ≤ tail →
      ∃ d, exec (.doorbell n tail) s = .next { s with dev := d } ∧ shut d 1) ∧
    (mayFetch s.dev r = true → bellBefore n r s.dev = false → atOnce s.dev x = none →
      exec (.commandFetch n (some x)) s = .next { s with dev := taken }) ∧
    (∀ a, mayFetch s.dev r = true → bellBefore n r s.dev = false → atOnce s.dev x = some a →
      exec (.commandFetch n (some x)) s = .next { s with dev := finish n s.dev.hly.order x a taken }) ∧
    (mayFetch s.dev r = true → bellBefore n r s.dev = false →
      ∃ d, exec (.commandFetch n none) s = .next { s with dev := d } ∧ shut d 2) ∧
    (∀ f, (mayFetch s.dev r = false ∨ bellBefore n r s.dev = true) → exec (.commandFetch n f) s = .next s)

/-- CQ_HEAD_WRITE, EVENT_RING_HEAD_WRITE and COALESCING_TIMER (14 R417, R427, R430; 00 R16). A head inside the ring frees the entries it
passes and lets what is held be written; one outside is a reserved code and is counted (log entry 11); the timer raises the ring's cause while
completions are unsignalled.
A completion entry (14 R416, R417, R419): a command that ends while its ring has a free entry and holds nothing writes 32 bytes at the
ring's tail, with TAG, OPCODE, STATUS, CLASS, DATA, AUX, the ring's SQ_HEAD and its phase bit; the tail moves on, and the phase turns at the
ring's end. With no free entry the completion is held. Shown for NOP, whose only effect it is (14 R421). -/
def Obligations.RingHeadsAndCompletions : Prop :=
  (∀ (s : State) (n head : Nat) (r : Ring), s.dev.hly.rings[n]? = some r →
    (2 ^ r.cqLog2 ≤ head →
      exec (.cqHeadWrite n head) s = .next { s with dev := { s.dev with gen := { s.dev.gen with
        rsvdWr := satAdd s.dev.gen.rsvdWr 1 } } }) ∧
    (head < 2 ^ r.cqLog2 → r.held = [] →
      exec (.cqHeadWrite n head) s = .next { s with dev := { s.dev with hly := { s.dev.hly with
        rings := modAt (fun _ => { r with
          cqHead := head, used := r.used - min ((head + 2 ^ r.cqLog2 - r.cqHead) % 2 ^ r.cqLog2) r.used }) n s.dev.hly.rings } } }) ∧
    (head < 2 ^ r.cqLog2 →
      ∃ d r', exec (.cqHeadWrite n head) s = .next { s with dev := d } ∧ ReportsOnly s.dev d ∧ d.hly.rings[n]? = some r' ∧
        r'.cqHead = head ∧ (r'.held = [] ∨ 2 ^ r.cqLog2 ≤ r'.used)) ∧
    (2 ^ s.dev.evt.log2 ≤ head →
      exec (.eventRingHeadWrite head) s = .next { s with dev := { s.dev with gen := { s.dev.gen with
        rsvdWr := satAdd s.dev.gen.rsvdWr 1 } } }) ∧
    (head < 2 ^ s.dev.evt.log2 → s.dev.evt.held = [] →
      exec (.eventRingHeadWrite head) s = .next { s with dev := { s.dev with evt := { s.dev.evt with
        head := head
        used := s.dev.evt.used - min ((head + 2 ^ s.dev.evt.log2 - s.dev.evt.head) % 2 ^ s.dev.evt.log2) s.dev.evt.used } } }) ∧
    (head < 2 ^ s.dev.evt.log2 →
      ∃ d, exec (.eventRingHeadWrite head) s = .next { s with dev := d } ∧ ReportsOnly s.dev d ∧ d.evt.head = head) ∧
    (n < 4 → 0 < r.sinceClear → r.coalTime ≠ 0 →
      exec (.coalescingTimer n) s = .next { s with dev := raise (irqCq n) s.dev }) ∧
    ((r.sinceClear = 0 ∨ r.coalTime = 0) → exec (.coalescingTimer n) s = .next s)) ∧
  (∀ (s : State) (c : CmdRef) (ord : Nat) (desc : BitVec 512) (r : Ring),
    Runs s.dev c 0x000 ord desc → s.dev.hly.rings[c.ring]? = some r → s.dev.cxl.hMode ≠ 0 → s.dev.host.wf = true →
    (r.held = [] → r.used < 2 ^ r.cqLog2 →
      ∃ d r', exec (.nop c) s = .next { s with dev := d } ∧ ReportsOnly s.dev d ∧ d.evt = s.dev.evt ∧ d.hly.rings[c.ring]? = some r' ∧
        r'.inProg = r.inProg.filter (fun e => e.1 ≠ ord) ∧ r'.used = r.used + 1 ∧ r'.cqTail = (r.cqTail + 1) % 2 ^ r.cqLog2 ∧
        r'.phase = (if r.cqTail + 1 = 2 ^ r.cqLog2 then !r.phase else r.phase) ∧
        d.host.read (r.cqb.toNat + 32 * r.cqTail) 32 =
          leBytes 32 (dTag desc * 2 ^ 112 + r.head % 2 ^ 16 * 2 ^ 96 + ofBool r.phase)) ∧
    ((r.held ≠ [] ∨ 2 ^ r.cqLog2 ≤ r.used) →
      ∃ d r', exec (.nop c) s = .next { s with dev := d } ∧ ReportsOnly s.dev d ∧ d.host = s.dev.host ∧ d.irq = s.dev.irq ∧
        d.hly.rings[c.ring]? = some r' ∧ r'.held = r.held ++ [(BitVec.ofNat 256 (dTag desc * 2 ^ 112), dIrqNow desc)] ∧
        r'.used = r.used ∧ r'.cqTail = r.cqTail))

/-- NFLAG_READ, COUNTER_READ, REPAIR_READ, POWER_READ, SAFE_INFO, CAL_READ, IDENT_CERT, DISCOVER and ATTEST (02 R73; 13 R385, R394; 14 R421,
R422; 15 R456 to R458): each that runs writes its record to the host buffer, LEN bytes at most, completes with STATUS OK and the DATA its
row names, and changes nothing else. The factory record and the certificate chain are free values (log entry 9). -/
def Obligations.ReadCommandsReport : Prop :=
  ∀ (s : State) (c : CmdRef) (ord : Nat) (x : BitVec 512) (b : Bucket),
    let out (bs : List Byte) : Dev := { s.dev with host := s.dev.host.write (dHaddr x) (bs.take (dLen x)) }
    (Runs s.dev c 0x001 ord x → exec (.discover c) s =
      .next { s with dev := finish c.ring ord x {} (out (leBytes 256 (discoveryWord s.dev))) }) ∧
    (Runs s.dev c 0x002 ord x → exec (.nflagRead c) s =
      .next { s with dev := (finish c.ring ord x {}
        (out ((List.range 240).flatMap fun e => leBytes 2 (s.dev.nflag.host.get (8 * e + dArg0 x % 8)).toNat))) }) ∧
    (Runs s.dev c 0x003 ord x → s.dev.integ.buckets[dArg0 x % 8]? = some b → exec (.counterRead c) s =
      .next { s with dev := (finish c.ring ord x { data := b.regions }
        (out ((List.range b.regions).map fun r => (b.level.get r).truncate 8))) }) ∧
    (Runs s.dev c 0x004 ord x → exec (.repairRead c) s =
      .next { s with dev := (finish c.ring ord x { data := s.dev.integ.repairs.length }
        (out (((s.dev.integ.repairs.drop (dArg0 x % 256)).take (dArg0 x / 256 % 256 + 1)).flatMap repairBytes))) }) ∧
    (Runs s.dev c 0x801 ord x → exec (.powerRead c) s =
      .next { s with dev := (finish c.ring ord x
        { data := (s.dev.pwr.watts * 65536 + s.dev.pwr.peak) * 2 ^ 32 + s.dev.pwr.tj.toNat * 65536 + s.dev.pwr.sensor % 256 * 256 } s.dev) }) ∧
    (Runs s.dev c 0x802 ord x → exec (.calRead c) s =
      .next { s with dev := finish c.ring ord x {} (out (Config.factoryBytes ++ leBytes 32 s.dev.pwr.cal.toNat)) }) ∧
    (Runs s.dev c 0x804 ord x → exec (.attest c) s =
      .next { s with dev := finish c.ring ord x {} (out (attestBytes s.dev (nonceOf x))) }) ∧
    (Runs s.dev c 0x805 ord x → exec (.identCert c) s =
      .next { s with dev := finish c.ring ord x { data := Config.certChain.length } (out Config.certChain) }) ∧
    (Runs s.dev c 0x808 ord x → exec (.safeInfo c) s =
      .next { s with dev := finish c.ring ord x { data := s.dev.pwr.cause } s.dev })

/-- In the safe state the halyard accepts the commands of class 0x0 and those of class 0x8; every other command completes with STATUS SAFE
and has no effect (14 R425). A command reference that names no descriptor of the command's own changes nothing. A command whose buffer the host
fails completes with STATUS ADDRESS (R419; log entry 61). -/
def Obligations.SafeStateTurnsCommandsAway : Prop :=
  ∀ (i : Instr) (s : State) (c : CmdRef) (opc ord : Nat) (own : BitVec 512 → Bool) (x : BitVec 512), hlyCommand i = some (c, opc, own) →
    (cmdIf own s.dev c opc = some (ord, x) → s.dev.pwr.cause ≠ 0 → opc / 256 ≠ 0 → opc / 256 ≠ 8 →
      exec i s = .next { s with dev := finish c.ring ord x { status := 0x07 } s.dev }) ∧
    (cmdIf own s.dev c opc = some (ord, x) → (opc / 256 = 0 ∨ opc / 256 = 8) → turnedAway s.dev x = false) ∧
    (cmdIf own s.dev c opc = some (ord, x) → turnedAway s.dev x = false → c.hostFail = true → dLen x ≠ 0 → opc ≠ 0x809 →
      exec i s = .next { s with dev := finish c.ring ord x { status := 0x05 } s.dev }) ∧
    (cmdIf own s.dev c opc = none → exec i s = .next s)

/-- MEM_READ copies device memory to the host buffer: with every byte backed, none sealed and none in a bad word, the buffer holds exactly the
bytes of the range and STATUS is OK; sealed bytes read as zeros, counted (12 R360); a range with an unbacked byte answers ADDRESS and writes
nothing (14 R423). Memory is unchanged. -/
def Obligations.MemReadCopiesMemory : Prop :=
  ∀ (s : State) (c : CmdRef) (ord : Nat) (x : BitVec 512), Runs s.dev c 0x100 ord x → s.dev.host.wf = true →
    (rangeBacked s.dev (dArg0 x) (dLen x) = true → touchesSealed s.dev (dArg0 x) (dLen x) = false →
        badLines s.dev.ecc (dArg0 x) (dLen x) = [] →
      ∃ h, exec (.memRead c) s = .next { s with dev := finish c.ring ord x {} { s.dev with host := h } } ∧
        (∀ k < dLen x, h.get (dHaddr x + k) = s.mem.get (dArg0 x + k)) ∧
        ∀ a, (a < dHaddr x ∨ dHaddr x + dLen x ≤ a) → h.get a = s.dev.host.get a) ∧
    (rangeBacked s.dev (dArg0 x) (dLen x) = true → touchesSealed s.dev (dArg0 x) (dLen x) = true → badLines s.dev.ecc (dArg0 x) (dLen x) = [] →
      ∃ d, exec (.memRead c) s = .next { s with dev := finish c.ring ord x {} d } ∧ d.evt.fseq = s.dev.evt.fseq + 1 ∧
        (∀ k < dLen x, d.host.get (dHaddr x + k) = if touchesSealed s.dev (dArg0 x + k) 1 then 0 else s.mem.get (dArg0 x + k)) ∧
        d = { s.dev with host := d.host, evt := d.evt, wgt := { s.dev.wgt with sealRd := satAdd s.dev.wgt.sealRd 1 } }) ∧
    (∀ l ls, rangeBacked s.dev (dArg0 x) (dLen x) = true → touchesSealed s.dev (dArg0 x) (dLen x) = false →
        badLines s.dev.ecc (dArg0 x) (dLen x) = l :: ls →
      ∃ d, exec (.memRead c) s = .next { s with dev := finish c.ring ord x { status := 0x08, data := l } d } ∧
        (ls = [] → d.integ.ue = satAdd s.dev.integ.ue 1) ∧
        d = { s.dev with integ := d.integ, hly := d.hly, evt := d.evt, irq := d.irq, host := d.host }) ∧
    (rangeBacked s.dev (dArg0 x) (dLen x) = false →
      exec (.memRead c) s = .next { s with dev := finish c.ring ord x { status := 0x05 } s.dev })

/-- MEM_WRITE and PLAN_LOAD store exactly the bytes of the buffer at the range they name (14 R421, R423): when every byte is backed, nothing in
the range is barred and no line fails its read-modify-write, each named byte reads as the buffer's and every other byte of memory as before; when a
line fails, bytes outside the range still stay and STATUS is MEMORY with the line. A range with an unbacked byte answers ADDRESS, a barred one
REFUSED, and then no byte changes; PLAN_LOAD answers the PLAN_ID. -/
def Obligations.HostWritesStoreTheirBytes : Prop :=
  ∀ (s : State) (c : CmdRef) (ord : Nat) (x : BitVec 512) (buf : List Byte),
    let a := dArg0 x
    let n := dLen x
    (Runs s.dev c 0x101 ord x → s.mem.wf = true → buf.length = n → rangeBacked s.dev a n = true → hostBarred s.dev a n = [] →
        (writeMem s.mem s.dev.ecc a buf).2.2 = [] →
      ∃ t, exec (.memWrite c buf) s = .next t ∧ t.pending = s.pending ∧
        (∀ b, t.mem.get b = if a ≤ b ∧ b < a + n then (buf[b - a]?).getD 0 else s.mem.get b) ∧
        ∃ e l, t.dev = finish c.ring ord x {} { s.dev with ecc := e, cxl := { s.dev.cxl with hdmCached := l } }) ∧
    (∀ l ls, Runs s.dev c 0x101 ord x → s.mem.wf = true → buf.length = n → rangeBacked s.dev a n = true → hostBarred s.dev a n = [] →
        (writeMem s.mem s.dev.ecc a buf).2.2 = l :: ls →
      ∃ t d, exec (.memWrite c buf) s = .next t ∧ t.pending = s.pending ∧ t.dev = finish c.ring ord x { status := 0x08, data := l } d ∧
        ∀ b, (b < a ∨ a + n ≤ b) → t.mem.get b = s.mem.get b) ∧
    (Runs s.dev c 0x101 ord x → rangeBacked s.dev a n = false →
      exec (.memWrite c buf) s = .next { s with dev := finish c.ring ord x { status := 0x05 } s.dev }) ∧
    (Runs s.dev c 0x101 ord x → rangeBacked s.dev a n = true → hostBarred s.dev a n ≠ [] →
      exec (.memWrite c buf) s = .next { s with dev := finish c.ring ord x { status := 0x02 } s.dev }) ∧
    (Runs s.dev c 0x200 ord x → s.mem.wf = true → buf.length = n → rangeBacked s.dev a n = true → inHbm s.dev a = true →
        inHbm s.dev (a + n - 1) = true → hostBarred s.dev a n = [] → (writeMem s.mem s.dev.ecc a buf).2.2 = [] →
      ∃ t, exec (.planLoad c buf) s = .next t ∧ t.pending = s.pending ∧
        (∀ b, t.mem.get b = if a ≤ b ∧ b < a + n then (buf[b - a]?).getD 0 else s.mem.get b) ∧
        ∃ e l, t.dev = finish c.ring ord x { data := leNat ((buf.drop 112).take 8) }
          { s.dev with ecc := e, cxl := { s.dev.cxl with hdmCached := l } }) ∧
    (Runs s.dev c 0x200 ord x → rangeBacked s.dev a n = true → inHbm s.dev a = false →
      exec (.planLoad c buf) s = .next { s with dev := finish c.ring ord x { status := 0x05 } s.dev })

/-- HDM_MAP, and host reads and writes of the mapped range (14 R431). A good range is mapped in units of 256 MiB, LEN 0 unmaps; the wrong mode, and a
base or length that is misaligned or too long, is refused (log entry 61); a read inside returns the bytes and lists its lines as held, one outside all ones, poisoned; a write inside stores its bytes, one outside
is dropped. -/
def Obligations.HostVisibleRange : Prop :=
  ∀ (s : State) (c : CmdRef) (ord : Nat) (x : BitVec 512) (off n : Nat) (bs : List Byte),
    (Runs s.dev c 0x700 ord x → (s.dev.cxl.hMode = 1 ∨ s.dev.cxl.hMode = 2) → dArg1 x ≠ 0 → dArg0 x % unit256 = 0 → dArg1 x % unit256 = 0 →
        dArg1 x ≤ 2 ^ 36 → rangeBacked s.dev (dArg0 x) (dArg1 x) = true → hostBarred s.dev (dArg0 x) (dArg1 x) = [] →
      exec (.hdmMap c) s = .next { s with dev := (finish c.ring ord x { data := dArg1 x } { s.dev with cxl := { s.dev.cxl with
        hdmBase := dArg0 x, hdmLen := dArg1 x / unit256, hdmGone := [], hdmCached := [] } }) }) ∧
    (Runs s.dev c 0x700 ord x → (s.dev.cxl.hMode = 1 ∨ s.dev.cxl.hMode = 2) → dArg1 x = 0 →
      exec (.hdmMap c) s = .next { s with dev := (finish c.ring ord x {} { s.dev with cxl := { s.dev.cxl with
        hdmBase := 0, hdmLen := 0, hdmGone := [], hdmCached := [] } }) }) ∧
    (Runs s.dev c 0x700 ord x → s.dev.cxl.hMode ≠ 1 → s.dev.cxl.hMode ≠ 2 →
      exec (.hdmMap c) s = .next { s with dev := finish c.ring ord x { status := 0x02 } s.dev }) ∧
    (Runs s.dev c 0x700 ord x → (s.dev.cxl.hMode = 1 ∨ s.dev.cxl.hMode = 2) → dArg1 x ≠ 0 →
        (dArg0 x % unit256 ≠ 0 ∨ dArg1 x % unit256 ≠ 0 ∨ 2 ^ 36 < dArg1 x) →
      exec (.hdmMap c) s = .next { s with dev := finish c.ring ord x { status := 0x02 } s.dev }) ∧
    (Runs s.dev c 0x700 ord x → (s.dev.cxl.hMode = 1 ∨ s.dev.cxl.hMode = 2) → dArg1 x ≠ 0 → dArg0 x % unit256 = 0 → dArg1 x % unit256 = 0 →
        dArg1 x ≤ 2 ^ 36 → rangeBacked s.dev (dArg0 x) (dArg1 x) = false →
      exec (.hdmMap c) s = .next { s with dev := finish c.ring ord x { status := 0x05 } s.dev }) ∧
    (hdmAddr s.dev off n = none →
      exec (.hdmHostRead off n) s = .next { s with dev := { s.dev with cxl := { s.dev.cxl with
        hdmOut := s.dev.cxl.hdmOut ++ [(List.replicate n 0xFF, true)] } } }) ∧
    (∀ a, hdmAddr s.dev off n = some a → badLines s.dev.ecc a n = [] →
      ∃ l, exec (.hdmHostRead off n) s = .next { s with dev := { s.dev with cxl := { s.dev.cxl with
        hdmOut := s.dev.cxl.hdmOut ++ [(s.mem.read a n, false)], hdmCached := l } } } ∧
        ∀ k < n, lineOf (a + k) ∈ l) ∧
    (∀ a l ls, hdmAddr s.dev off n = some a → badLines s.dev.ecc a n = l :: ls →
      ∃ d, exec (.hdmHostRead off n) s = .next { s with dev := d } ∧
        d.cxl.hdmOut = s.dev.cxl.hdmOut ++ [(s.mem.read a n, true)] ∧ d.evt.fseq = s.dev.evt.fseq + 1 + ls.length ∧
        d = { s.dev with cxl := d.cxl, integ := d.integ, evt := d.evt }) ∧
    (hdmAddr s.dev off bs.length = none → exec (.hdmHostWrite off bs) s = .next s) ∧
    (∀ a, s.mem.wf = true → hdmAddr s.dev off bs.length = some a → (writeMem s.mem s.dev.ecc a bs).2.2 = [] →
      ∃ m e, exec (.hdmHostWrite off bs) s = .next { s with mem := m, dev := { s.dev with ecc := e } } ∧
        ∀ b, m.get b = if a ≤ b ∧ b < a + bs.length then (bs[b - a]?).getD 0 else s.mem.get b) ∧
    (∀ a, s.mem.wf = true → hdmAddr s.dev off bs.length = some a →
      ∃ m d, exec (.hdmHostWrite off bs) s = .next { s with mem := m, dev := d } ∧
        ∀ b, (b < a ∨ a + bs.length ≤ b) → m.get b = s.mem.get b)

/-- PLAN_ADMIT (07 R236, R237; 12 R377). A good plan set is admitted at step 0 with its engines' plan-visible flags, tallies and passes
empty; a bad one completes as REJECTED and no plan is admitted; while a plan runs it is refused; behind a stop that completes it is latched. The
watch counter is first brought to the time the command carries (log entry 38).
PLAN_REPLACE and PLAN_STOP (07 R237): a good request is pending with a completion OK, superseding an earlier one; a step index already
past S refuses with a NOTE; with no plan they are refused; a rejected replacement completes as REJECTED and the plan runs on. -/
def Obligations.PlanAdmissionReplacementAndStop : Prop :=
  (∀ (s : State) (c : CmdRef) (ord now : Nat) (x : BitVec 512), Runs s.dev c 0x201 ord x →
    let d := atTime now s.dev
    let a := dArg0 x % 2 ^ 48
    (d.plan.latched ≠ none → exec (.planAdmit c now) s = .next { s with dev := finish c.ring ord x { status := 0x02 } d }) ∧
    (d.plan.latched = none → stopComing d = true →
      exec (.planAdmit c now) s = .next { s with dev := { d with plan := { d.plan with latched := some (c.ring, c.tag, a) } } }) ∧
    (d.plan.latched = none → stopComing d = false → d.plan.run ≠ none →
      exec (.planAdmit c now) s = .next { s with dev := finish c.ring ord x { status := 0x02 } d }) ∧
    (∀ j, d.plan.latched = none → stopComing d = false → d.plan.run = none → spaceBusy s.mem d a = false →
        validate s.mem d a none = some j →
      ∃ t ans f, exec (.planAdmit c now) s = .next { s with dev := t } ∧ ReportsOnly { d with freeCtr := f } t ∧ ans.status = 0x01 ∧
        ans.aux = j.code ∧ t = finish c.ring ord x ans (note 0x04 0xFFFF 0xFFFF j.code { d with freeCtr := f })) ∧
    (d.plan.latched = none → stopComing d = false → d.plan.run = none → spaceBusy s.mem d a = false → validate s.mem d a none = none →
      ∃ t r, exec (.planAdmit c now) s = .next t ∧ t.pending = s.pending ∧ t.dev.plan.run = some r ∧ r.addr = a ∧ r.step = 0 ∧
        r.attempt = 0 ∧ r.phase = .between ∧ r.begun = false ∧ r.issued = [] ∧ r.hdr = hdrAt s.mem a ∧ r.body = bodyAt s.mem a 0 ∧
        t.dev.nflag.plan = [] ∧ t.dev.nflag.host = s.dev.nflag.host ∧ t.dev.tth.cur = [] ∧ t.dev.tth.nxt = [] ∧
        (∀ m ∈ t.dev.arrays, m.passes = []))) ∧
  (∀ (s : State) (c : CmdRef) (ord : Nat) (x : BitVec 512) (r : Run),
    (Runs s.dev c 0x202 ord x → s.dev.plan.run = none →
      exec (.planReplace c) s = .next { s with dev := finish c.ring ord x { status := 0x02 } s.dev }) ∧
    (Runs s.dev c 0x203 ord x → s.dev.plan.run = none →
      exec (.planStop c) s = .next { s with dev := finish c.ring ord x { status := 0x02 } s.dev }) ∧
    (Runs s.dev c 0x202 ord x → s.dev.plan.run = some r → dArg1 x < r.step →
      exec (.planReplace c) s = .next { s with dev := finish c.ring ord x { status := 0x02 } (note 0x04 0x0704 0xFFFF 0 s.dev) }) ∧
    (Runs s.dev c 0x203 ord x → s.dev.plan.run = some r → dArg1 x < r.step →
      exec (.planStop c) s = .next { s with dev := finish c.ring ord x { status := 0x02 } (note 0x04 0x0704 0xFFFF 0 s.dev) }) ∧
    (Runs s.dev c 0x202 ord x → s.dev.plan.run = some r → r.step ≤ dArg1 x → s.dev.plan.req = none →
        validate s.mem s.dev (dArg0 x % 2 ^ 48) (some r.body) = none →
      exec (.planReplace c) s = .next { s with dev := (finish c.ring ord x (acceptedAns s.mem (dArg0 x % 2 ^ 48))
        { s.dev with plan := { s.dev.plan with req := some (.replace (dArg0 x % 2 ^ 48) (dArg1 x)) } }) }) ∧
    (∀ j, Runs s.dev c 0x202 ord x → s.dev.plan.run = some r → r.step ≤ dArg1 x →
        validate s.mem s.dev (dArg0 x % 2 ^ 48) (some r.body) = some j →
      ∃ t, exec (.planReplace c) s = .next { s with dev := t } ∧ t.plan = s.dev.plan ∧ ∃ f, ReportsOnly { s.dev with freeCtr := f } t) ∧
    (Runs s.dev c 0x203 ord x → s.dev.plan.run = some r → r.step ≤ dArg1 x → (r.begun = true ∨ dArg1 x ≠ r.step) →
      ∃ t, exec (.planStop c) s = .next { s with dev := finish c.ring ord x {} t } ∧
        ReportsOnly { s.dev with plan := { s.dev.plan with req := some (.stop (dArg1 x)) } } t ∧
        (s.dev.plan.req = none → t = { s.dev with plan := { s.dev.plan with req := some (.stop (dArg1 x)) } })) ∧
    (Runs s.dev c 0x203 ord x → s.dev.plan.run = some r → dArg1 x = r.step → r.begun = false →
      ∃ t, exec (.planStop c) s = .next { s with dev := t } ∧ t.plan.run = none ∧ t.plan.req = none))

/-- PATCH_POST and PERM_HOST_DONE (06 R197; 09 R294; 14 R421). A patch goes into the buffer that its SOLVE number names and is marked
posted; a solver that does not exist refuses it. Entries the host has written count toward the running variant's collective.
SNAP_CTRL and SNAP_RESTORE (11 R349 to R351; 14 R423). Bounds, forced points, disable, enable (latched behind a snapshot that a disable lets
finish) and the host window change the snapshot registers alone; a restore with a source for every item admits the plan at step s
under RVAR and counts in CRW_SNAP_RESTORE; with a plan admitted it is refused. -/
def Obligations.PatchesAndSnapshotControl : Prop :=
  (∀ (s : State) (c : CmdRef) (ord : Nat) (x : BitVec 512) (buf : List Byte) (v : Solver) (r : Run),
    (Runs s.dev c 0x204 ord x → solverAt s.dev (dArg0 x) = none →
      exec (.patchPost c buf) s = .next { s with dev := finish c.ring ord x { status := 0x02 } s.dev }) ∧
    (Runs s.dev c 0x204 ord x → solverAt s.dev (dArg0 x) = some v → buf.length = dLen x → 32 ≤ buf.length → buf.length ≤ patchBytes v →
        s.mem.wf = true → (writeMem s.mem s.dev.ecc (patchBuf v (leNat ((buf.drop 20).take 4) % 2)) buf).2.2 = [] →
      ∃ t e l, exec (.patchPost c buf) s = .next t ∧ t.pending = s.pending ∧
        (∀ a, t.mem.get a =
          if patchBuf v (leNat ((buf.drop 20).take 4) % 2) ≤ a ∧ a < patchBuf v (leNat ((buf.drop 20).take 4) % 2) + buf.length
          then (buf[a - patchBuf v (leNat ((buf.drop 20).take 4) % 2)]?).getD 0 else s.mem.get a) ∧
        t.dev = finish c.ring ord x { data := leNat ((buf.drop 20).take 4) }
          (modSolver v.record.id (fun q => { q with posted := modAt (fun _ => true) (leNat ((buf.drop 20).take 4) % 2) q.posted })
            { s.dev with ecc := e, cxl := { s.dev.cxl with hdmCached := l } })) ∧
    (Runs s.dev c 0x205 ord x → s.dev.plan.run = some r → r.phase = .permuting → dArg0 x % 65536 = r.body.variant →
      exec (.permHostDone c) s = .next { s with dev := (finish c.ring ord x {} { s.dev with plan := { s.dev.plan with
        permHost := s.dev.plan.permHost + dArg1 x % 2 ^ 32 } }) }) ∧
    (Runs s.dev c 0x205 ord x → s.dev.plan.run = none →
      exec (.permHostDone c) s = .next { s with dev := finish c.ring ord x { status := 0x02 } s.dev })) ∧
  (∀ (s : State) (c : CmdRef) (ord : Nat) (x : BitVec 512) (r : Run) (src : RestoreIn) (now : Nat),
    (RunsIf (snapOp 0) s.dev c 0x300 ord x → dArg1 x % 65536 ≠ 0 → dArg1 x % 65536 ≤ dArg1 x / 65536 % 65536 →
      exec (.snapSetBounds c) s = .next { s with dev := (finish c.ring ord x {} { s.dev with snap := { s.dev.snap with
        iMin := dArg1 x % 65536, iMax := dArg1 x / 65536 % 65536, k0 := dArg1 x / 2 ^ 32 % 256, m0 := dArg2 x % 2 ^ 32 } }) }) ∧
    (RunsIf (snapOp 0) s.dev c 0x300 ord x → (dArg1 x % 65536 = 0 ∨ dArg1 x / 65536 % 65536 < dArg1 x % 65536) →
      exec (.snapSetBounds c) s = .next { s with dev := finish c.ring ord x { status := 0x02 } s.dev }) ∧
    (RunsIf (snapOp 1) s.dev c 0x300 ord x → s.dev.plan.run = some r → r.step + 2 ≤ dArg1 x → ¬ dArg1 x ∈ s.dev.snap.forced →
      exec (.snapForcePoint c) s = .next { s with dev := (finish c.ring ord x {} { s.dev with snap := { s.dev.snap with
        forced := s.dev.snap.forced ++ [dArg1 x] } }) }) ∧
    (RunsIf (snapOp 1) s.dev c 0x300 ord x → s.dev.plan.run = some r → dArg1 x < r.step + 2 →
      exec (.snapForcePoint c) s = .next { s with dev := finish c.ring ord x { status := 0x02 } s.dev }) ∧
    (RunsIf (snapOp 2) s.dev c 0x300 ord x →
      exec (.snapDisable c) s = .next { s with dev := (finish c.ring ord x {} { s.dev with snap := { s.dev.snap with
        disabled := true, restPend := false } }) }) ∧
    (RunsIf (snapOp 3) s.dev c 0x300 ord x → s.dev.snap.disabled = true → s.dev.snap.drain ≠ none →
      exec (.snapEnable c) s = .next { s with dev := finish c.ring ord x {} { s.dev with snap := { s.dev.snap with restPend := true } } }) ∧
    (RunsIf (snapOp 3) s.dev c 0x300 ord x → (s.dev.snap.disabled = false ∨ s.dev.snap.drain = none) →
      exec (.snapEnable c) s = .next { s with dev := finish c.ring ord x {} { s.dev with snap := { s.dev.snap with disabled := false } } }) ∧
    (RunsIf (snapOp 4) s.dev c 0x300 ord x →
      exec (.snapHostWindow c) s = .next { s with dev := (finish c.ring ord x {} { s.dev with snap := { s.dev.snap with
        host := some (dArg1 x, dArg2 x, dArg3 x % 65536) } }) }) ∧
    (Runs s.dev c 0x301 ord x → (atTime now s.dev).plan.run ≠ none →
      exec (.snapRestore c src now) s = .next { s with dev := finish c.ring ord x { status := 0x02 } (atTime now s.dev) }) ∧
    (let d := atTime now s.dev
     let a := dArg0 x % 2 ^ 48
     let v := (bodyAt s.mem a 0).tack.rvar
     let srcs := restoreSources s.mem d (bodyAt s.mem a 0).tack src (dArg1 x)
     Runs s.dev c 0x301 ord x → d.plan.run = none → d.plan.stopping = false → d.plan.latched = none → spaceBusy s.mem d a = false →
       validate s.mem d a none = none → srcs ≠ [] →
       restoreWrites srcs s.mem (bodyAt s.mem a v) (rootRecs s.mem a (bodyAt s.mem a v)) ≠ none →
      ∃ t q, exec (.snapRestore c src now) s = .next t ∧ t.pending = s.pending ∧ t.dev.plan.run = some q ∧ q.addr = a ∧ q.step = dArg1 x ∧
        q.begun = false ∧ q.phase = .between ∧ q.body = bodyAt s.mem a v ∧ t.dev.snap.restore = satAdd s.dev.snap.restore 1))

/-- WGT_OPEN, WGT_CLOSE, WGT_SWITCH, PUB_KEY (both forms) and DIGEST_PERIOD (12 R361, R363, R364, R370, R371, R374; 14 R421). A session opens on a
free session number with its public key, signed, in the host buffer, and its slot is LOADING; one that may not open answers SLOT; a close ends it
with ABORTED; a switch is pending with OK or refused with a NOTE; keys are enrolled and cleared; the period is taken between 60 s and 86,400 s. -/
def Obligations.WeightCommands : Prop :=
  ∀ (s : State) (c : CmdRef) (ord i : Nat) (x : BitVec 512) (pub key : BitVec 256),
    (Runs s.dev c 0x400 ord x → s.dev.wgt.sessions.findIdx? (fun q => !q.isOpen) = some i →
        mayOpen s.dev (bit (dArg0 x) 0) (bits (dArg0 x) 2 1) (bit (dArg0 x) 3) = true →
      ∃ d h q, exec (.wgtOpen c pub) s = .next { s with dev := finish c.ring ord x { data := i } d } ∧
        d = { s.dev with wgt := d.wgt, host := h } ∧
        h = s.dev.host.write (dHaddr x) ((leBytes 32 pub.toNat ++ leBytes 64 (Config.identitySign (leBytes 32 pub.toNat)).toNat).take (dLen x)) ∧
        d.wgt.sessions[i]? = some q ∧ q.isOpen = true ∧ q.pub = some pub ∧ q.cek = false ∧ q.adapter = bit (dArg0 x) 0 ∧
        q.slot = bits (dArg0 x) 2 1 ∧ q.repair = bit (dArg0 x) 3 ∧ q.hostRoute = bit (dArg0 x) 4 ∧
        d.wgt.pubKeys = s.dev.wgt.pubKeys ∧ d.wgt.cur = s.dev.wgt.cur) ∧
    (Runs s.dev c 0x400 ord x → s.dev.wgt.sessions.findIdx? (fun q => !q.isOpen) = some i →
        mayOpen s.dev (bit (dArg0 x) 0) (bits (dArg0 x) 2 1) (bit (dArg0 x) 3) = false →
      ∃ d, exec (.wgtOpen c pub) s = .next { s with dev := finish c.ring ord x { status := 0x02, aux := 7 } d } ∧
        d.wgt.sessions = s.dev.wgt.sessions ∧ d.evt.fseq = s.dev.evt.fseq + 1) ∧
    (Runs s.dev c 0x400 ord x → s.dev.wgt.sessions.findIdx? (fun q => !q.isOpen) = none →
      exec (.wgtOpen c pub) s = .next { s with dev := finish c.ring ord x { status := 0x02 } s.dev }) ∧
    (Runs s.dev c 0x403 ord x → (sessionAt s.dev (dArg0 x % 4)).isOpen = true →
      ∃ d, exec (.wgtClose c) s = .next { s with dev := finish c.ring ord x {} d } ∧ (sessionAt d (dArg0 x % 4)).isOpen = false ∧
        (sessionAt d (dArg0 x % 4)).cek = false ∧ (∀ k, k ≠ dArg0 x % 4 → d.wgt.sessions[k]? = s.dev.wgt.sessions[k]?) ∧
        d = { s.dev with wgt := d.wgt, hly := d.hly, evt := d.evt, irq := d.irq, host := d.host }) ∧
    (Runs s.dev c 0x403 ord x → (sessionAt s.dev (dArg0 x % 4)).isOpen = false →
      exec (.wgtClose c) s = .next { s with dev := finish c.ring ord x { status := 0x02 } s.dev }) ∧
    (Runs s.dev c 0x404 ord x → switchRefused s.dev (bits (dArg0 x) 1 0) (bits (dArg0 x) 3 2) (dArg1 x) = false → s.dev.wgt.pend = none →
      exec (.wgtSwitch c) s = .next { s with dev := (finish c.ring ord x {} { s.dev with wgt := { s.dev.wgt with
        pend := some (bits (dArg0 x) 1 0, bits (dArg0 x) 3 2, dArg1 x) } }) }) ∧
    (∀ p, Runs s.dev c 0x404 ord x → switchRefused s.dev (bits (dArg0 x) 1 0) (bits (dArg0 x) 3 2) (dArg1 x) = false → s.dev.wgt.pend = some p →
      ∃ d, exec (.wgtSwitch c) s = .next { s with dev := finish c.ring ord x {} d } ∧ d.evt.fseq = s.dev.evt.fseq + 1 ∧
        d = { s.dev with evt := d.evt, wgt := { s.dev.wgt with pend := some (bits (dArg0 x) 1 0, bits (dArg0 x) 3 2, dArg1 x) } }) ∧
    (Runs s.dev c 0x404 ord x → switchRefused s.dev (bits (dArg0 x) 1 0) (bits (dArg0 x) 3 2) (dArg1 x) = true →
      exec (.wgtSwitch c) s = .next { s with dev := finish c.ring ord x { status := 0x02 } (note 0x08 0x0C04 0xFFFF 0 s.dev) }) ∧
    (RunsIf (fun y => bit (dArg0 y) 3) s.dev c 0x405 ord x →
      exec (.pubKeyEnrol c key) s = .next { s with dev := (finish c.ring ord x {} { s.dev with wgt := { s.dev.wgt with
        pubKeys := modAt (fun _ => some key) (dArg0 x % 8) s.dev.wgt.pubKeys } }) }) ∧
    (RunsIf (fun y => !bit (dArg0 y) 3) s.dev c 0x405 ord x →
      exec (.pubKeyClear c) s = .next { s with dev := (finish c.ring ord x {} { s.dev with wgt := { s.dev.wgt with
        pubKeys := modAt (fun _ => none) (dArg0 x % 8) s.dev.wgt.pubKeys } }) }) ∧
    (Runs s.dev c 0x406 ord x → 60 ≤ dArg0 x % 131072 → dArg0 x % 131072 ≤ 86400 →
      exec (.digestPeriod c) s = .next { s with dev := (finish c.ring ord x {} { s.dev with wgt := { s.dev.wgt with
        period := dArg0 x % 131072 } }) }) ∧
    (Runs s.dev c 0x406 ord x → (dArg0 x % 131072 < 60 ∨ 86400 < dArg0 x % 131072) →
      exec (.digestPeriod c) s = .next { s with dev := finish c.ring ord x { status := 0x03 } s.dev })

/-- WGT_KEY, WGT_CHUNKS, and the host's writes into the shroud window (12 R362 to R369; 14 R421, R424). The key record is read from the host buffer, the
manifest from the session's window or, on the gateway route, from what the gateway answered. A record that passes every check gives the session its
CEK and manifest, and it wants every chunk, in a repair those of BAD shards; on the host route the command completes at once, on the gateway route it
stays in progress while the shroud fetches; a repair with nothing BAD ends with OK; a record that fails ends the session with its code. A chunk whose
tag verifies is written into the slot and counted, a bad tag is counted and names its chunk. A window write outside an open host-route session is
dropped with one NOTE. -/
def Obligations.WeightStreaming : Prop :=
  ∀ (s : State) (c : CmdRef) (ord : Nat) (x : BitVec 512) (tagOk : Bool) (got : List Byte) (signer : Option (BitVec 256)) (mi : ManifestIn)
    (q : Session) (ch : ChunkIn) (sh : Shard) (off : Nat) (data : List Byte),
    let i := dArg0 x % 4
    let man := manifestOf (if q.hostRoute then q.win.read 0 (manifestSize (q.win.read 0 128)) else got) signer
    let k := keyOf (s.dev.host.read (dHaddr x) 128) tagOk
    let code := keyResult s.dev q k man
    let g := (dArg1 x % 2 ^ 24, dArg1 x / 2 ^ 24 % 2 ^ 32, dArg1 x / 2 ^ 56 % 2)
    let asked : List Msg := if q.hostRoute then [] else manifestGets s.dev g (manifestSize got)
    let due := if q.repair then man.shards.filter fun y => (slotAt s.dev q.adapter q.slot).bad.contains y.index else man.shards
    let keyed : Session := { q with
      cek := true, pub := none, man := some man, key := some k, want := due.flatMap shardChunks, gateway := g
      cmd := if q.hostRoute then q.cmd else some (c.ring, c.tag) }
    let fresh := Runs s.dev c 0x401 ord x ∧ s.dev.wgt.sessions[i]? = some q ∧ q.isOpen = true ∧ q.man = none
    let ends (d : Dev) : Prop := (sessionAt d i).isOpen = false ∧ (sessionAt d i).cek = false ∧
      d.tth = { s.dev.tth with out := s.dev.tth.out ++ asked } ∧
      d = { s.dev with wgt := d.wgt, tth := d.tth, hly := d.hly, evt := d.evt, irq := d.irq, host := d.host }
    (fresh → code = 0 → (q.repair = false ∨ due ≠ []) → q.hostRoute = true →
      exec (.wgtKey c ⟨tagOk, signer⟩ got) s = .next { s with dev := (finish c.ring ord x {} { s.dev with wgt := { s.dev.wgt with
        sessions := modAt (fun _ => keyed) i s.dev.wgt.sessions } }) }) ∧
    (fresh → code = 0 → (q.repair = false ∨ due ≠ []) → q.hostRoute = false →
      exec (.wgtKey c ⟨tagOk, signer⟩ got) s = .next { s with dev := { s.dev with
        wgt := { s.dev.wgt with sessions := modAt (fun _ => keyed) i s.dev.wgt.sessions }
        tth := { s.dev.tth with out := s.dev.tth.out ++ asked ++ fetchGets s.dev keyed } } }) ∧
    (fresh → code = 0 → q.repair = true → due = [] →
      ∃ d, exec (.wgtKey c ⟨tagOk, signer⟩ got) s = .next { s with dev := finish c.ring ord x {} d } ∧ ends d) ∧
    (fresh → code ≠ 0 →
      ∃ d, exec (.wgtKey c ⟨tagOk, signer⟩ got) s = .next { s with dev := finish c.ring ord x { aux := code } d } ∧ ends d) ∧
    (Runs s.dev c 0x401 ord x → s.dev.wgt.sessions[i]? = some q → (q.isOpen = false ∨ q.man ≠ none) →
      exec (.wgtKey c ⟨tagOk, signer⟩ got) s = .next { s with dev := finish c.ring ord x { status := 0x02 } s.dev }) ∧
    (Runs s.dev c 0x402 ord x → s.dev.wgt.sessions[i]? = some q → q.isOpen = true → q.hostRoute = true → q.cek = true →
        dArg2 x % 2048 = 1 → q.man = some mi → mi.shards[dArg0 x / 4 % 4096]? = some sh → ch.tagOk = true → ch.digestOk = true →
        (dArg0 x / 4 % 4096, dArg1 x % 2 ^ 32) ∈ q.want →
      ∃ t ans, exec (.wgtChunks c [ch]) s = .next t ∧ t.pending = s.pending ∧
        (∃ d, t.dev = finish c.ring ord x ans d ∧ d.wgt.chunks = satAdd s.dev.wgt.chunks 1) ∧ ans.status = 0 ∧ ans.data = 2 ^ 64 - 1 ∧
        (t.mem = (writeMem s.mem s.dev.ecc ((slotRange s.dev q.adapter q.slot).1 + sh.dstOff + 65536 * (dArg1 x % 2 ^ 32))
          (padLine ch.plain)).1)) ∧
    (Runs s.dev c 0x402 ord x → s.dev.wgt.sessions[i]? = some q → q.isOpen = true → q.hostRoute = true → q.cek = true →
        dArg2 x % 2048 = 1 → ch.tagOk = false → (dArg0 x / 4 % 4096, dArg1 x % 2 ^ 32) ∈ q.want → q.hostFails = [] →
      ∃ d, exec (.wgtChunks c [ch]) s = .next { s with dev := finish c.ring ord x { data := dArg1 x % 2 ^ 32 } d } ∧
        d.wgt.tagFail = satAdd s.dev.wgt.tagFail 1 ∧ d.wgt.chunks = s.dev.wgt.chunks ∧ (sessionAt d i).isOpen = true ∧
        d = { s.dev with wgt := d.wgt }) ∧
    (Runs s.dev c 0x402 ord x → s.dev.wgt.sessions[i]? = some q → (q.isOpen = false ∨ q.hostRoute = false ∨ q.cek = false) →
      exec (.wgtChunks c [ch]) s = .next { s with dev := finish c.ring ord x { status := 0x02 } s.dev }) ∧
    (s.dev.wgt.sessions[off / 0x8000000]? = some q → q.isOpen = true → q.hostRoute = true →
        off % 0x8000000 + data.length ≤ 0x4084000 →
      exec (.shroudWindowWrite off data) s = .next { s with dev := { s.dev with wgt := { s.dev.wgt with
        sessions := modAt (fun _ => { q with win := q.win.write (off % 0x8000000) data }) (off / 0x8000000) s.dev.wgt.sessions } } }) ∧
    (s.dev.wgt.sessions[off / 0x8000000]? = some q → (q.isOpen = false ∨ q.hostRoute = false) → q.noted = true →
      exec (.shroudWindowWrite off data) s = .next s) ∧
    (s.dev.wgt.sessions[off / 0x8000000]? = some q → (q.isOpen = false ∨ q.hostRoute = false) → q.noted = false →
      exec (.shroudWindowWrite off data) s = .next { s with dev := (note 0x08 0xFFFF (off / 0x8000000) 0
        { s.dev with wgt := { s.dev.wgt with
          sessions := modAt (fun _ => { q with noted := true }) (off / 0x8000000) s.dev.wgt.sessions } }) })

/-- GON_CONFIGURE and GON_REMOVE (08 R256, R259, R260; 14 R421): the set of 2 or 4 ONLINE bays forms with a capacity in units of 256 MiB, its
bytes staying where they lie on the members, or is refused with a NOTE; a removal drains the bay and stays in progress, is refused with a NOTE,
or acknowledges a GONE bay, which is EMPTY then and shows none of its old contents (R254; log entry 1); either way a set that the bay was a
member of is dissolved.
BALLAST_ROTATE and BIST_RUN (13 R392; 14 R421): a rotation with a healthy spare in the unit's scope is taken down for its step, one with no
spare, or of a unit that has no scope, is refused with a NOTE; a test of a unit in ballast starts and stays in progress, one while a test runs, or of a unit in service, is
refused with a NOTE. -/
def Obligations.GondolaAndBallastCommands : Prop :=
  (∀ (s : State) (c : CmdRef) (ord : Nat) (x : BitVec 512) (y : Bay),
    let b := dArg0 x % 4
    let member : Bool := s.dev.gon.il.elim false fun g => g.1.contains b
    let gone (m : Mem) : Mem := if member then s.dev.gon.il.elim m fun g => rekey (ilToLin g.1 g.2) m else m
    (Runs s.dev c 0x500 ord x → ((maskBays (dArg0 x)).length = 2 ∨ (maskBays (dArg0 x)).length = 4) → 0 < dArg1 x →
        dArg1 x % unit256 = 0 → s.dev.gon.il = none →
        (∀ k ∈ maskBays (dArg0 x), bayOnline s.dev k = true ∧ dArg1 x ≤ (bayAt s.dev k).cap * unit256 ∧ placedOn s.dev k = false) →
      ∃ m, exec (.gonConfigure c) s = .next { s with mem := m, dev := (finish c.ring ord x {}
          { s.dev with gon := { s.dev.gon with il := some (maskBays (dArg0 x), dArg1 x) } }) } ∧
        (s.mem.wf = true → (∀ p ∈ s.mem, p.1 < ilBase) → ∀ a < ilBase,
          m.get (linToIl (maskBays (dArg0 x)) (dArg1 x) a) = s.mem.get a)) ∧
    (Runs s.dev c 0x500 ord x → (s.dev.gon.il ≠ none ∨ dArg1 x = 0 ∨ dArg1 x % unit256 ≠ 0 ∨
        ((maskBays (dArg0 x)).length ≠ 2 ∧ (maskBays (dArg0 x)).length ≠ 4)) →
      exec (.gonConfigure c) s = .next { s with dev := (finish c.ring ord x { status := 0x02 }
        (note 0x05 0xFFFF 0xFFFF (dArg0 x % 16) s.dev)) }) ∧
    (Runs s.dev c 0x500 ord x → (∃ k ∈ maskBays (dArg0 x), bayOnline s.dev k = false ∨ (bayAt s.dev k).cap * unit256 < dArg1 x ∨ placedOn s.dev k = true) →
      exec (.gonConfigure c) s = .next { s with dev := (finish c.ring ord x { status := 0x02 }
        (note 0x05 0xFFFF 0xFFFF (dArg0 x % 16) s.dev)) }) ∧
    (Runs s.dev c 0x501 ord x → s.dev.gon.bays[b]? = some y → y.state = .gone →
      ∃ d, exec (.gonRemove c) s = .next { s with mem := (gone s.mem).zero (gonBase b) 0x20000000000, dev := finish c.ring ord x {} d } ∧
        ReportsOnly { s.dev with
          ecc := { s.dev.ecc with gonLost := cutRanges s.dev.ecc.gonLost [(gonBase b, 0x20000000000)] }
          gon := { s.dev.gon with
            bays := modAt (fun _ => Bay.reset) b s.dev.gon.bays, hotplug := satAdd s.dev.gon.hotplug 1
            il := if member then none else s.dev.gon.il } } d) ∧
    (Runs s.dev c 0x501 ord x → s.dev.gon.bays[b]? = some y → y.state = .online → placedOn s.dev b = false → targetOn s.dev b = false →
      exec (.gonRemove c) s = .next { s with mem := gone s.mem, dev := { s.dev with gon := { s.dev.gon with
        bays := modAt (fun _ => { y with state := .draining, rmCmd := some (c.ring, c.tag) }) b s.dev.gon.bays
        il := if member then none else s.dev.gon.il } } }) ∧
    (Runs s.dev c 0x501 ord x → s.dev.gon.bays[b]? = some y → y.state = .online → (placedOn s.dev b = true ∨ targetOn s.dev b = true) →
      exec (.gonRemove c) s = .next { s with dev := (finish c.ring ord x { status := 0x02 } (note 0x05 (0x0804 + 4 * b) b b s.dev)) }) ∧
    (Runs s.dev c 0x501 ord x → s.dev.gon.bays[b]? = some y → (y.state = .empty ∨ y.state = .training ∨ y.state = .draining) →
      exec (.gonRemove c) s = .next { s with dev := (finish c.ring ord x { status := 0x02 } (note 0x05 (0x0804 + 4 * b) b b s.dev)) })) ∧
  (∀ (s : State) (c : CmdRef) (ord k : Nat) (x : BitVec 512),
    (Runs s.dev c 0x600 ord x → ballastScope s.dev (dArg0 x % 256) (dArg0 x / 256 % 65536) = some k →
        spareFor s.dev (dArg0 x % 256) k = true →
      exec (.ballastRotate c) s = .next { s with dev := (finish c.ring ord x {} { s.dev with integ := { s.dev.integ with
        rotReq := s.dev.integ.rotReq ++ [(dArg0 x % 256, dArg0 x / 256 % 65536, dArg1 x)] } }) }) ∧
    (Runs s.dev c 0x600 ord x → ballastScope s.dev (dArg0 x % 256) (dArg0 x / 256 % 65536) = some k →
        spareFor s.dev (dArg0 x % 256) k = false →
      exec (.ballastRotate c) s = .next { s with dev := (finish c.ring ord x { status := 0x02 }
        (note 0x0A 0x0D2C (dArg0 x / 256 % 65536) (dArg0 x / 256 % 65536) s.dev)) }) ∧
    (Runs s.dev c 0x600 ord x → ballastScope s.dev (dArg0 x % 256) (dArg0 x / 256 % 65536) = none →
      exec (.ballastRotate c) s = .next { s with dev := (finish c.ring ord x { status := 0x02 }
        (note 0x0A 0x0D2C (dArg0 x / 256 % 65536) (dArg0 x / 256 % 65536) s.dev)) }) ∧
    (Runs s.dev c 0x601 ord x → s.dev.integ.bistRun = false → ballastAt s.dev (dArg0 x / 65536 % 16) (dArg0 x % 65536) ≠ none →
      exec (.bistRun c) s = .next { s with dev := { s.dev with integ := { s.dev.integ with
        bistRun := true, bistSite := dArg0 x % 65536, bistCmd := some (dArg0 x / 65536 % 16, c.ring, c.tag) } } }) ∧
    (Runs s.dev c 0x601 ord x → (s.dev.integ.bistRun = true ∨ ballastAt s.dev (dArg0 x / 65536 % 16) (dArg0 x % 65536) = none) →
      exec (.bistRun c) s = .next { s with dev := (finish c.ring ord x { status := 0x02, data := 2 }
        (note 0x09 0x0D30 0xFFFF (dArg0 x % 65536) s.dev)) }))

/-- REEF_SET, CAL_WRITE, FLASH_WRITE, BOOT_SELECT (both forms) and DEVICE_RESET (15 R442 to R447, R452, R458): each valid request takes its effect and
completes; a bad record or image, or an SVN that an image falls below, is REFUSED and changes nothing. DEVICE_RESET writes its completion and
then resets, with the rails held. Where a persisted record goes is the older copy. -/
def Obligations.FirmwareAndCalibrationCommands : Prop :=
  ∀ (s : State) (c : CmdRef) (ord : Nat) (x : BitVec 512) (rec : BitVec 256) (img a b : FwImage),
    (Runs s.dev c 0x800 ord x →
      ∃ p, exec (.reefSet c) s = .next { s with dev := finish c.ring ord x {} { s.dev with pwr := p } } ∧ p.host = dArg0 x % 4 ∧
        p.reef = max (dArg0 x % 4) (max s.dev.pwr.pins s.dev.pwr.therm) ∧ p.clk = s.dev.pwr.clk) ∧
    (Runs s.dev c 0x803 ord x → calOk rec = false →
      exec (.calWrite c rec) s = .next { s with dev := finish c.ring ord x { status := 0x02 } s.dev }) ∧
    (Runs s.dev c 0x803 ord x → calOk rec = true → dArg0 x % 2 = 0 →
      exec (.calWrite c rec) s = .next { s with dev := finish c.ring ord x {} { s.dev with pwr := { s.dev.pwr with cal := rec } } }) ∧
    (Runs s.dev c 0x803 ord x → calOk rec = true → dArg0 x % 2 = 1 →
      ∃ w, (exec (.calWrite c rec) s = .next { s with dev := (finish c.ring ord x {} { s.dev with
            pwr := { s.dev.pwr with cal := rec }, flash := { s.dev.flash with cal0 := w } }) } ∨
          exec (.calWrite c rec) s = .next { s with dev := (finish c.ring ord x {} { s.dev with
            pwr := { s.dev.pwr with cal := rec }, flash := { s.dev.flash with cal1 := w } }) }) ∧
        w.extractLsb' 112 144 = rec.extractLsb' 112 144) ∧
    (Runs s.dev c 0x806 ord x → imageOk s.dev.fuses img = false →
      exec (.flashWrite c img) s = .next { s with dev := finish c.ring ord x { status := 0x02 } s.dev }) ∧
    (Runs s.dev c 0x806 ord x → imageOk s.dev.fuses img = true → dArg0 x % 2 = 0 →
      exec (.flashWrite c img) s = .next { s with dev := (finish c.ring ord x {} { s.dev with flash := { s.dev.flash with
        imgA := some img } }) }) ∧
    (Runs s.dev c 0x806 ord x → imageOk s.dev.fuses img = true → dArg0 x % 2 = 1 →
      exec (.flashWrite c img) s = .next { s with dev := (finish c.ring ord x {} { s.dev with flash := { s.dev.flash with
        imgB := some img } }) }) ∧
    (RunsIf (fun y => !bit (dArg0 y) 1) s.dev c 0x807 ord x →
      exec (.bootSelect c) s = .next { s with dev := (finish c.ring ord x {} { s.dev with flash := { s.dev.flash with
        prefB := bit (dArg0 x) 0, bootRecOk := true } }) }) ∧
    (RunsIf (fun y => bit (dArg0 y) 1) s.dev c 0x807 ord x → s.dev.flash.imgA = some a → s.dev.flash.imgB = some b →
        imageOk s.dev.fuses a = true → imageOk s.dev.fuses b = true → s.dev.fw.svn ≤ a.svn → s.dev.fw.svn ≤ b.svn →
      exec (.bootSelectCommitSvn c) s = .next { s with dev := (finish c.ring ord x {} { s.dev with
        fuses := { s.dev.fuses with svn := max s.dev.fuses.svn s.dev.fw.svn }
        flash := { s.dev.flash with prefB := bit (dArg0 x) 0, bootRecOk := true } }) }) ∧
    (RunsIf (fun y => bit (dArg0 y) 1) s.dev c 0x807 ord x →
        (s.dev.flash.imgA = none ∨ s.dev.flash.imgB = none ∨ s.dev.flash.imgA = some a ∧ (a.svn < s.dev.fw.svn ∨ imageOk s.dev.fuses a = false) ∨
          s.dev.flash.imgB = some b ∧ (b.svn < s.dev.fw.svn ∨ imageOk s.dev.fuses b = false)) →
      exec (.bootSelectCommitSvn c) s = .next { s with dev := finish c.ring ord x { status := 0x02 } s.dev }) ∧
    (cmdFor s.dev c 0x809 = some (ord, x) →
      ∃ d, exec (.deviceReset c) s = .next { s with mem := resetMem s.mem, dev := { powerOnReset d with
          pins := { Pins.reset with resetN := true, pwrEn := true } } } ∧ d = finish c.ring ord x {} s.dev)

/-- STEP_START, ADMISSION_BARRIER_TIMEOUT and STEP_WATCHDOG (07 R231, R232, R234; 09 R287; 10 R313). With nothing that waits for this start, a step
whose predecessor is complete and whose anchor has come starts anew with every slot still to issue; from the second start on the tally windows roll
on; the first start clears REC_TALLY. Before the predecessor's flip or skip, or before the anchor, nothing changes. A barrier that is late is reported
once by a NOTE. STEP_TO after the start the attempt has a contained data error of cause 5 and its verdict point is reached. -/
def Obligations.StepStartsAndDeadlines : Prop :=
  ∀ (s : State) (r : Run) (now : Nat), s.dev.plan.run = some r →
    (stepFree s.dev r = true → isSafe s.dev = false → s.dev.plan.req = none → r.rvar = false → r.pendVar = none → r.lateEvent = none →
        s.dev.snap.owed = none → r.phase ≠ .permuting → (r.hdr.period = 0 ∨ nextAnchor r ≤ max now s.dev.dbg.now) →
      ∃ d q, exec (.stepStart now) s = .next { s with dev := d } ∧ d.plan.run = some q ∧ StartsAnew (atTime now s.dev) r q ∧
        (r.begun = true → d.tth.cur = s.dev.tth.nxt ∧ d.tth.nxt = [] ∧ d.tth.curP = s.dev.tth.nxtP ∧ d.tth.nxtP = []) ∧
        (r.begun = false → d.tth.cur = s.dev.tth.cur.set r.body.verdict.recT 0 ∧ d.tth.nxt = s.dev.tth.nxt.set r.body.verdict.recT 0) ∧
        d.groups = s.dev.groups.map (fun g => { g with streamed := false }) ∧ d.curv.tapped = [] ∧
        d = { s.dev with dbg := d.dbg, gen := d.gen, snap := d.snap, gon := d.gon, plan := d.plan, tth := d.tth, wgt := d.wgt,
                         integ := d.integ, curv := d.curv, vrd := d.vrd, tack := d.tack, hly := d.hly, evt := d.evt, irq := d.irq,
                         host := d.host, groups := d.groups, narrow := d.narrow }) ∧
    (stepFree s.dev r = false ∨ isSafe s.dev = true → exec (.stepStart now) s = .next s) ∧
    (stepFree s.dev r = true → isSafe s.dev = false → s.dev.plan.req = none → r.rvar = false → r.pendVar = none → r.hdr.period ≠ 0 →
        max now s.dev.dbg.now < nextAnchor r → exec (.stepStart now) s = .next s) ∧
    (r.begun = false → r.barrierNote = false → barrierDone s.dev r = false →
      ∃ d, exec .admissionBarrierTimeout s = .next { s with dev := d } ∧ d.evt.fseq = s.dev.evt.fseq + 1 ∧
        ReportsOnly { s.dev with plan := { s.dev.plan with run := some { r with barrierNote := true } } } d) ∧
    ((r.begun = true ∨ r.barrierNote = true ∨ barrierDone s.dev r = true) → exec .admissionBarrierTimeout s = .next s) ∧
    (r.cde.contains 5 = false → (r.phase = .running ∨ r.phase = .permuting) → r.body.limits = [] →
      ∃ d, exec .stepWatchdog s = .next { s with dev := d } ∧
        d.plan.run = some { r with cde := r.cde ++ [5], cdeSeq := r.cdeSeq ++ [s.dev.evt.fseq + 1], phase := .atVerdict } ∧
        d.dbg.now = max s.dev.dbg.now (r.startTime + r.hdr.stepTo) ∧ d.vrd.vpTime = d.dbg.now ∧ d.vrd.vote.isSome = true ∧
        d = { s.dev with dbg := d.dbg, gen := d.gen, snap := d.snap, gon := d.gon, plan := d.plan, vrd := d.vrd
                         hly := d.hly, evt := d.evt, irq := d.irq, host := d.host }) ∧
    (r.cde.contains 5 = false → r.phase = .atVerdict →
      ∃ d, exec .stepWatchdog s = .next { s with dev := d } ∧
        d.plan.run = some { r with cde := r.cde ++ [5], cdeSeq := r.cdeSeq ++ [s.dev.evt.fseq + 1] } ∧
        d = { s.dev with dbg := d.dbg, gen := d.gen, snap := d.snap, gon := d.gon, plan := d.plan
                         hly := d.hly, evt := d.evt, irq := d.irq, host := d.host }) ∧
    (r.cde.contains 5 = true → exec .stepWatchdog s = .next { s with dev := atTime (r.startTime + r.hdr.stepTo) s.dev })

/-- WAIT_SLOT, FENCE_SLOT, FLAG_FOLD, STEP_END, XFER_SLOT and XFER_COMPLETE (02 R72; 07 R224 to R226; 08 R245; 09 R291; 15 R437). A slot that may issue
issues, and a wait, a fence with no earlier message of its stream in flight, and the step-end mark complete at once; a transfer's slot issues and
its bytes arrive later, in slot order on its queue; a flag fold writes the OR of its context's plan-visible words, over the engines that its record
names, as two bytes at the record's address and clears them. One whose wait is not met changes nothing. A verdict point that waits for a sweep may run
its slots again (08 R267): the hypotheses leave that state to SnapshotsAndSweeps. -/
def Obligations.SlotsOfNoEngine : Prop :=
  ∀ (s : State) (seq now st ad : Nat) (r : Run) (w : Slot), readinessHeld s.dev = false →
    let k := foldAt s.mem (r.addr + w.payload)
    (Issues (atTime now s.dev) seq 5 r w →
      ∃ d q, exec (.waitSlot seq now) s = .next { s with dev := d } ∧ d.plan.run = some q ∧ SlotDone r q seq ∧
        d = { atTime now s.dev with plan := { (atTime now s.dev).plan with run := some q } }) ∧
    ((atTime now s.dev).plan.run = some r → slotOf r seq = some w → slotReady (atTime now s.dev) r w = false →
      exec (.waitSlot seq now) s = .next { s with dev := atTime now s.dev }) ∧
    (Issues s.dev seq 6 r w → s.dev.tth.pend.any (fun p => p.stream = w.stream) = false →
      ∃ q, exec (.fenceSlot seq) s = .next { s with dev := { s.dev with plan := { s.dev.plan with run := some q } } } ∧ SlotDone r q seq) ∧
    (s.dev.plan.run = some r → slotOf r seq = some w → s.dev.tth.pend.any (fun p => p.stream = w.stream) = true →
      exec (.fenceSlot seq) s = .next s) ∧
    (Issues s.dev seq 7 r w → w.arg = 4 →
      ∃ q, exec (.stepEnd seq) s = .next { s with dev := { s.dev with plan := { s.dev.plan with run := some q } } } ∧ SlotDone r q seq) ∧
    (Issues s.dev seq 7 r w → w.arg = 3 → heldWrite s.dev k.dst 2 = false → k.dst % 256 < 255 → resolveWrite s.dev k.dst = k.dst →
        rootBarred s.dev k.dst = false → k.dst < 0x20000000000 → rmwBad s.dev.ecc k.dst 2 = false →
      ∃ t q, exec (.flagFold seq) s = .next t ∧ t.pending = s.pending ∧ t.dev.plan.run = some q ∧ SlotDone r q seq ∧
        t.mem = s.mem.write k.dst (leBytes 2 (flagOr (fun e => k.engines.contains e) w.ctx s.dev.nflag.plan).toNat) ∧
        t.dev.nflag = { s.dev.nflag with plan := s.dev.nflag.plan.keep fun x => !(decide (x % 8 = w.ctx) && k.engines.contains (x / 8)) } ∧
        t.dev = { s.dev with ecc := t.dev.ecc, tack := t.dev.tack, vrd := t.dev.vrd, cxl := t.dev.cxl, nflag := t.dev.nflag, plan := t.dev.plan }) ∧
    (Issues s.dev seq 3 r w → isDrainArg w.arg = false →
        (xferWrites r w s.mem s.dev).any (fun x => heldWrite s.dev x.1 x.2) = false →
      exec (.xferSlot seq) s = .next { s with dev := { s.dev with plan := { s.dev.plan with run := some { r with issued := r.issued ++ [seq] } } } }) ∧
    (Issues s.dev seq 3 r w → (xferWrites r w s.mem s.dev).any (fun x => heldWrite s.dev x.1 x.2) = true →
      exec (.xferSlot seq) s = .next { s with dev := holdSlot seq s.dev }) ∧
    (s.dev.plan.run = some r → inFlight r seq = some (st, ad, w) → w.kind = 3 → xferBehind r st w = true →
      exec (.xferComplete seq) s = .next s) ∧
    (s.dev.plan.run = some r → inFlight r seq = some (r.start, r.addr, w) → r.carried = [] → w.kind = 3 → xferBehind r r.start w = false →
        r.phase ≠ .between → isDrainArg w.arg = false → NoBadWords s.dev →
      ∃ t q, exec (.xferComplete seq) s = .next t ∧ t.pending = s.pending ∧ t.dev.plan.run = some q ∧ seq ∈ q.done ∧
        q.issued = r.issued ∧ q.start = r.start ∧ q.step = r.step ∧ q.wgt = r.wgt ∧
        (∀ a, MemCanonical s → Outside s.dev (xferWrites r w s.mem s.dev) a → t.mem.get a = s.mem.get a) ∧
        t.dev.arrays = s.dev.arrays ∧ t.dev.groups = s.dev.groups ∧ t.dev.nflag = s.dev.nflag ∧ t.dev.solv = s.dev.solv)

/-- ARRAY_SLOT and WEIGHT_LOAD_COMPLETE (03 R78 to R81, R84, R86 to R88, R90; 07 R226, R227). A weight set that issues joins the sets of its
array, unloaded, on the register that the array uses next, and the array turns to its other register; without a fill, a preload from the
carry store and a tap, and with no word of memory bad, the register that is not loaded keeps every word, and a set that drains leaves both carry
halves. It waits while its array cannot accept it, or while the spar takes another context first. The oldest load of an array completes; the
cycles that its first row waited count as stall where rows of an earlier set had streamed; a set whose results stay in the carry store completes its
slot, another waits for its tiles. -/
def Obligations.WeightSetsIssueAndLoad : Prop :=
  ∀ (s : State) (seq a waited : Nat) (carry : EccFind) (r : Run) (w : Slot) (x : MArr) (p : Pass) (g : Group),
    let rec0 := arrRecAt s.mem (r.addr + w.payload)
    (Issues s.dev seq 0 r w → s.dev.arrays[w.stream]? = some x → arrayAccepts rec0 w.stream s.dev = true → groupTurn s.mem s.dev r w = false →
      ∃ m d x' y, exec (.arraySlot seq carry) s = .next { s with mem := m, dev := d } ∧ (∀ q, d.plan.run = some q → seq ∈ q.issued) ∧
        d.arrays[w.stream]? = some x' ∧ x'.next1 = !x.next1 ∧ x'.passes = x.passes ++ [y] ∧
        y.seq = seq ∧ y.ctx = w.ctx ∧ y.record = rec0 ∧ y.reg1 = x.next1 ∧ y.loaded = false ∧ y.tile = 0 ∧ y.claimed = false ∧
        (rec0.tap.en = false → m = s.mem)) ∧
    (Issues s.dev seq 0 r w → s.dev.arrays[w.stream]? = some x → arrayAccepts rec0 w.stream s.dev = true → groupTurn s.mem s.dev r w = false →
        s.dev.groups[w.stream / 4]? = some g → rec0.tap.en = false → rec0.preload ≠ 1 → rec0.cfill = 0 → NoBadWords s.dev →
      ∃ d q x' y, exec (.arraySlot seq carry) s = .next { s with dev := d } ∧ d.plan.run = some q ∧ q.issued = r.issued ++ [seq] ∧
        q.done = r.done ∧ q.step = r.step ∧ q.start = r.start ∧ d.arrays[w.stream]? = some x' ∧
        (∀ k, k ≠ w.stream → d.arrays[k]? = s.dev.arrays[k]?) ∧ x'.passes = x.passes ++ [y] ∧ y.after = g.streamed ∧
        d.groups[w.stream / 4]? = some { g with streamed := true } ∧ (∀ k, k ≠ w.stream / 4 → d.groups[k]? = s.dev.groups[k]?) ∧
        (x.next1 = false → x'.w1 = x.w1 ∧ x'.bx1 = x.bx1) ∧ (x.next1 = true → x'.w0 = x.w0 ∧ x'.bx0 = x.bx0) ∧
        (rec0.dest = false → x'.half0 = x.half0 ∧ x'.half1 = x.half1 ∧ x'.last1 = x.last1) ∧
        (rec0.dest = true → x'.last1 = !x.last1 ∧ y.out = [] ∧ (x.last1 = true → x'.half1 = x.half1) ∧
          (x.last1 = false → x'.half0 = x.half0)) ∧
        x'.carryHits = x.carryHits ∧ x'.carryRows = x.carryRows ∧ x'.absent = x.absent ∧
        d = { s.dev with arrays := d.arrays, groups := d.groups, nflag := d.nflag, plan := d.plan, gon := d.gon
                         evt := { s.dev.evt with fseq := d.evt.fseq }, integ := { s.dev.integ with deferred := d.integ.deferred } }) ∧
    (Issues s.dev seq 0 r w → (arrayAccepts rec0 w.stream s.dev = false ∨ groupTurn s.mem s.dev r w = true) →
      exec (.arraySlot seq carry) s = .next s) ∧
    (s.dev.arrays[a]? = some x → x.passes.find? (fun y => !y.loaded) = some p → s.dev.plan.run = some r → (waited = 0 ∨ p.after = false) →
        p.record.dest = false →
      ∃ d, exec (.weightLoadComplete a waited) s = .next { s with dev := d } ∧ d.arrays[a]? = some { x with passes := loadFirst x.passes } ∧
        (∀ k, k ≠ a → d.arrays[k]? = s.dev.arrays[k]?) ∧ d = { s.dev with arrays := d.arrays }) ∧
    (s.dev.arrays[a]? = some x → x.passes.find? (fun y => !y.loaded) = some p → s.dev.plan.run = some r → waited ≠ 0 → p.after = true →
        p.record.dest = false →
      ∃ d, exec (.weightLoadComplete a waited) s = .next { s with dev := d } ∧ d.arrays[a]? = some { x with passes := loadFirst x.passes } ∧
        (∀ k, k ≠ a → d.arrays[k]? = s.dev.arrays[k]?) ∧
        (∀ c m, s.dev.gen.stall[a / 4]? = some c → s.dev.gen.stallRem[a / 4]? = some m →
          d.gen.stall[a / 4]? = some (satAdd c ((m + waited) / 64)) ∧ d.gen.stallRem[a / 4]? = some ((m + waited) % 64)) ∧
        (∀ k, k ≠ a / 4 → d.gen.stall[k]? = s.dev.gen.stall[k]? ∧ d.gen.stallRem[k]? = s.dev.gen.stallRem[k]?) ∧
        d = { s.dev with arrays := d.arrays, gen := { s.dev.gen with stall := d.gen.stall, stallRem := d.gen.stallRem } }) ∧
    (s.dev.arrays[a]? = some x → x.passes.find? (fun y => !y.loaded) = some p → s.dev.plan.run = some r → r.phase ≠ .between →
        readinessHeld s.dev = false → p.record.dest = true →
      ∃ d q, exec (.weightLoadComplete a waited) s = .next { s with dev := d } ∧ d.arrays[a]? = some { x with passes := loadFirst x.passes } ∧
        d.plan.run = some q ∧ p.seq ∈ q.done ∧ q = { r with done := q.done } ∧
        d = { s.dev with arrays := d.arrays, plan := d.plan, gen := d.gen }) ∧
    (s.dev.arrays[a]? = some x → x.passes.find? (fun y => !y.loaded) = none → exec (.weightLoadComplete a waited) s = .next s)

/-- TILE_CLAIM and TILE_SEAL (02 R49, R71; 03 R84, R101 to R105; 04 R112). The first result of a loaded set's tile claims one entry of its group's
queue, two when its format is wide, or waits while the queue lacks room; a tile's last result seals its entries with the converted values, sets
the flags of the drain and records the amax of a narrow tensor; with the last tile of its M-block the set leaves its array and its slot completes. While
a claim of the group waits, its spar holds and no tile is sealed. -/
def Obligations.TilesClaimAndSeal : Prop :=
  ∀ (s : State) (a : Nat) (x : MArr) (p : Pass) (ps : List Pass) (gr : Group) (r : Run),
    s.dev.arrays[a]? = some x → x.passes = p :: ps → s.dev.groups[a / 4]? = some gr →
    (p.loaded = true → p.record.dest = false → p.claimed = false → gr.waiting = [] → gr.queue.length + p.entries ≤ 8 →
      ∃ d, exec (.tileClaim a) s = .next { s with dev := d } ∧ d.groups[a / 4]? = some (claimFor a p gr) ∧
        (∃ es, (claimFor a p gr).queue = gr.queue ++ es ∧ es.length = p.entries ∧
          ∀ e ∈ es, e.seq = p.seq ∧ e.arr = a ∧ e.ctx = p.ctx ∧ e.tile = p.tile ∧ e.isSealed = false ∧ e.fmt = ncwDst p.record.ncw) ∧
        d.arrays[a]? = some { x with passes := { p with claimed := true } :: ps } ∧
        (∀ k, k ≠ a → d.arrays[k]? = s.dev.arrays[k]?) ∧ (∀ k, k ≠ a / 4 → d.groups[k]? = s.dev.groups[k]?) ∧
        d = { s.dev with arrays := d.arrays, groups := d.groups }) ∧
    (p.loaded = true → p.record.dest = false → p.claimed = false → gr.waiting = [] → 8 < gr.queue.length + p.entries →
      exec (.tileClaim a) s = .next { s with dev := { s.dev with
        groups := modAt (fun g => { g with waiting := [(p.seq, p.ctx, a)] }) (a / 4) s.dev.groups } }) ∧
    (∃ d, exec (.tileClaim a) s = .next { s with dev := d } ∧ (∀ k, k ≠ a / 4 → d.groups[k]? = s.dev.groups[k]?) ∧
        d = { s.dev with arrays := d.arrays, groups := d.groups }) ∧
    ((p.loaded = false ∨ p.record.dest = true ∨ p.claimed = true ∨ gr.waiting.any (fun c => c.2.2 = a) = true) →
      exec (.tileClaim a) s = .next s) ∧
    (s.dev.plan.run = some r → p.claimed = true → gr.waiting = [] → p.record.rows ≤ (p.tile + 1) * paneEdge p.record.mode → r.phase ≠ .between →
        readinessHeld s.dev = false →
      ∃ d q, exec (.tileSeal a) s = .next { s with dev := d } ∧ d.arrays[a]? = some { x with passes := ps } ∧
        d.plan.run = some q ∧ p.seq ∈ q.done ∧ q = { r with done := q.done } ∧ d.nflag = s.dev.nflag.record s.dev.dbg.now a p.ctx (p.drain r).2 ∧
        d.narrow = (recordAmax p.record.amax (ncwDst p.record.ncw) p.drained s.dev).narrow ∧
        d.groups[a / 4]? = some { gr with queue := gr.queue.map fun e =>
          if e.arr = a && e.seq = p.seq && e.tile = p.tile && !e.isSealed then
            { e with isSealed := true, data := entryData e.wide e.half (p.drain r).1 } else e } ∧
        (∀ k, k ≠ a → d.arrays[k]? = s.dev.arrays[k]?) ∧ (∀ k, k ≠ a / 4 → d.groups[k]? = s.dev.groups[k]?) ∧
        d = { s.dev with arrays := d.arrays, groups := d.groups, nflag := d.nflag, plan := d.plan, narrow := d.narrow }) ∧
    (s.dev.plan.run = some r → p.claimed = true → gr.waiting = [] → (p.tile + 1) * paneEdge p.record.mode < p.record.rows →
      ∃ d, exec (.tileSeal a) s = .next { s with dev := d } ∧
        d.arrays[a]? = some { x with passes := { p with tile := p.tile + 1, claimed := false } :: ps } ∧
        d.nflag = s.dev.nflag.record s.dev.dbg.now a p.ctx (p.drain r).2 ∧
        d.narrow = (recordAmax p.record.amax (ncwDst p.record.ncw) p.drained s.dev).narrow ∧
        d.groups[a / 4]? = some { gr with queue := gr.queue.map fun e =>
          if e.arr = a && e.seq = p.seq && e.tile = p.tile && !e.isSealed then
            { e with isSealed := true, data := entryData e.wide e.half (p.drain r).1 } else e } ∧
        (∀ k, k ≠ a → d.arrays[k]? = s.dev.arrays[k]?) ∧ (∀ k, k ≠ a / 4 → d.groups[k]? = s.dev.groups[k]?) ∧
        d = { s.dev with arrays := d.arrays, groups := d.groups, nflag := d.nflag, narrow := d.narrow }) ∧
    ((p.claimed = false ∨ gr.waiting ≠ []) → exec (.tileSeal a) s = .next s)

/-- ARRAY_REPLAY, GRAM_REPLAY and MAIN_ARRAY_SWAP (00 R20, R24; 03 R84, R108, R109, R111; 05 R166; 13 R392, R394, R395, R397). A replay leaves every array,
queue and plane as it was: each array that replays is CORRECTED under a fault sequence number of its own and counted; a failure on a spar slot replays
every array that took that step. A failing unit takes its scope's spare under its service number, with a repair report; with no spare it is absent, and an
array's weight sets go. A unit already absent changes nothing. -/
def Obligations.ReplaysAndBallast : Prop :=
  ∀ (s : State) (a g rows : Nat) (inW : Bool) (x : MArr) (p : Pass) (gr : Group),
    (s.dev.arrays[a]? = some x → x.passes.head? = some p →
      ∃ d, exec (.arrayReplay a ⟨inW, false⟩ rows) s = .next { s with dev := d } ∧ d.evt.fseq = s.dev.evt.fseq + 1 ∧
        d.integ.parReplay = satAdd s.dev.integ.parReplay 1 ∧
        d.gen = (stall (a / 4) (replayCycles p.record inW rows) s.dev).gen ∧
        d = { s.dev with gen := d.gen, evt := { s.dev.evt with fseq := d.evt.fseq, wait := d.evt.wait }, irq := d.irq,
                         integ := { s.dev.integ with parReplay := d.integ.parReplay, buckets := d.integ.buckets, bktOvf := d.integ.bktOvf } }) ∧
    (s.dev.arrays[a]? = some x → x.passes.head? = some p →
      ∃ d, exec (.arrayReplay a ⟨inW, true⟩ rows) s = .next { s with dev := d } ∧ a ∈ sparPeers s.dev a p ∧
        d.evt.fseq = s.dev.evt.fseq + (sparPeers s.dev a p).length ∧
        d = { s.dev with gen := d.gen, evt := { s.dev.evt with fseq := d.evt.fseq, wait := d.evt.wait }, irq := d.irq,
                         integ := { s.dev.integ with parReplay := d.integ.parReplay, buckets := d.integ.buckets, bktOvf := d.integ.bktOvf } }) ∧
    (s.dev.arrays[a]? = some x → x.passes = [] → ∀ onSpar, exec (.arrayReplay a ⟨inW, onSpar⟩ rows) s = .next s) ∧
    (s.dev.arrays[a]? = some x → x.absent = false → sparesLeft s.dev a ≠ 0 →
      ∃ d, exec (.mainArraySwap a) s = .next { s with dev := d } ∧ d.arrays = s.dev.arrays ∧
        d.integ.balArrays = modAt (fun _ => false) (arrayScope a) s.dev.integ.balArrays ∧
        siteOf d 0 a = ballastSite s.dev 0 (arrayScope a) ∧ d.evt.fseq = s.dev.evt.fseq + 1 ∧
        d.integ.repairs.getLast? = some ⟨0, a, ballastSite s.dev 0 (arrayScope a), 2, 2, 0, 0xFF, 0, 0, s.dev.evt.fseq + 1⟩ ∧
        d = { s.dev with gen := d.gen, integ := d.integ, hly := d.hly, evt := d.evt, irq := d.irq, host := d.host }) ∧
    (s.dev.arrays[a]? = some x → x.absent = false → sparesLeft s.dev a = 0 →
      ∃ d, exec (.mainArraySwap a) s = .next { s with dev := d } ∧ d.arrays = modAt (fun y => { y with absent := true, passes := [] }) a s.dev.arrays ∧
        (s.dev.plan.run = none → d.evt.fseq = s.dev.evt.fseq + 1 ∧
          d = { s.dev with arrays := d.arrays, integ := { s.dev.integ with repairs := d.integ.repairs }
                           evt := { s.dev.evt with fseq := d.evt.fseq, wait := d.evt.wait } })) ∧
    (s.dev.arrays[a]? = some x → x.absent = true → exec (.mainArraySwap a) s = .next s) ∧
    (s.dev.groups[g]? = some gr → gr.gramAbsent = false →
      ∃ d, exec (.gramReplay g false) s = .next { s with dev := d } ∧ d.evt.fseq = s.dev.evt.fseq + 1 ∧
        d.curv = { s.dev.curv with gramReplay := satAdd s.dev.curv.gramReplay 1 } ∧ d.integ.parReplay = satAdd s.dev.integ.parReplay 1 ∧
        d = { s.dev with curv := d.curv, evt := { s.dev.evt with fseq := d.evt.fseq, wait := d.evt.wait }, irq := d.irq,
                         integ := { s.dev.integ with parReplay := d.integ.parReplay, buckets := d.integ.buckets, bktOvf := d.integ.bktOvf } }) ∧
    (s.dev.groups[g]? = some gr → gr.gramAbsent = false → (s.dev.integ.balGrams[g / 20]?).getD false = true →
      ∃ d, exec (.gramReplay g true) s = .next { s with dev := d } ∧ d.groups = s.dev.groups ∧
        d.integ.balGrams = modAt (fun _ => false) (g / 20) s.dev.integ.balGrams ∧ siteOf d 1 g = ballastSite s.dev 1 (g / 20) ∧
        d.evt.fseq = s.dev.evt.fseq + 1 ∧
        d = { s.dev with integ := d.integ, hly := d.hly, evt := d.evt, irq := d.irq, host := d.host }) ∧
    (s.dev.groups[g]? = some gr → gr.gramAbsent = false → (s.dev.integ.balGrams[g / 20]?).getD false = false →
      ∃ d, exec (.gramReplay g true) s = .next { s with dev := d } ∧ d.groups = modAt (fun y => { y with gramAbsent := true }) g s.dev.groups) ∧
    (s.dev.groups[g]? = some gr → gr.gramAbsent = true → ∀ again, exec (.gramReplay g again) s = .next s)

/-- GRAM_SLOT (05 R161 to R165; 11 R340). A Gram record that starts afresh uses the other accumulator plane, one that continues keeps the plane; the plane
not used keeps every word; each cell of the plane holds the chain of its products over the ring rows in turn, rounded one by one, from +0, from the tile
that it fills from or from what its predecessor left, and a diagonal tile only its upper half. It completes its slot; it writes memory only when it
spills, and then only its tile, each word as the plane holds it, a diagonal tile symmetric. A spill into a HELD copy waits. -/
def Obligations.GramRecordAccumulates : Prop :=
  ∀ (s : State) (seq : Nat) (r : Run) (w : Slot) (gr : Group),
    let rec0 := gramRecAt s.mem (r.addr + w.payload)
    let plane1 := if rec0.pre = 2 then gr.plane1 else !gr.plane1
    let st := rec0.start s.mem ((gr.planes[ofBool plane1]?).getD []) (issue seq s.dev)
    let xs := (rec0.operands s.mem (List.range rec0.rows) st.2).1
    (Issues s.dev seq 1 r w → s.dev.groups[w.stream - 160]? = some gr → NoBadWords s.dev → gr.planes.length = 2 → readinessHeld s.dev = false →
        (rec0.spill = true → heldWrite s.dev rec0.tile 16384 = false) →
      ∃ m d q gr' p, exec (.gramSlot seq) s = .next { s with mem := m, dev := d } ∧ d.plan.run = some q ∧ q.issued = r.issued ++ [seq] ∧
        seq ∈ q.done ∧ q.step = r.step ∧ d.groups[w.stream - 160]? = some gr' ∧ gr' = { gr with planes := gr'.planes, plane1 := plane1 } ∧
        gr'.planes[ofBool plane1]? = some p ∧ gr'.planes[ofBool (!plane1)]? = gr.planes[ofBool (!plane1)]? ∧
        (∀ k < 4096, p.get k = (rec0.cell xs (st.1.get k) (k / 64) (k % 64)).1) ∧
        (rec0.pre = 0 → ∀ k, st.1.get k = 0) ∧ (rec0.pre = 2 → st.1 = (gr.planes[ofBool gr.plane1]?).getD []) ∧
        (rec0.diag = true → rec0.pre = 0 → ∀ i < 64, ∀ j < i, p.get (64 * i + j) = 0) ∧
        (∀ k, k ≠ w.stream - 160 → d.groups[k]? = s.dev.groups[k]?) ∧
        (rec0.spill = false → m = s.mem ∧
          d = { s.dev with groups := d.groups, nflag := d.nflag, plan := d.plan, gon := d.gon, evt := { s.dev.evt with fseq := d.evt.fseq },
                           integ := { s.dev.integ with deferred := d.integ.deferred } }) ∧
        (rec0.spill = true → ∀ a, Outside s.dev [(rec0.tile, 16384)] a → m.get a = s.mem.get a) ∧
        (rec0.spill = true → PlainWrites s.dev → ∀ k < 4096, m.readLE (rec0.tile + 4 * k) 4 = (rec0.spilled p k).toNat)) ∧
    (Issues s.dev seq 1 r w → rec0.spill = true → heldWrite s.dev rec0.tile 16384 = true →
      exec (.gramSlot seq) s = .next { s with dev := holdSlot seq s.dev })

/-- The fifteen ARITH instructions (04 R118, R124 to R129), each in vector and in scalar mode, with its lane function: operands flushed under SUB_FLUSH,
the exact result rounded once under RTZ, or for INT32 the exact integer saturated; ABS and NEG touch the sign bit alone. -/
def Obligations.ElementwiseArithmetic : Prop :=
  ∀ (s : State) (u : VUse) (f : VFields),
    (∃ st, exec (.add u f) s = .next st ∧ ArithDoes s u 0 f (lane2 f Sys2Proof.Machine.Num.add fun a b => a + b) st) ∧
    (∃ st, exec (.sub u f) s = .next st ∧ ArithDoes s u 1 f (lane2 f Sys2Proof.Machine.Num.sub fun a b => a - b) st) ∧
    (∃ st, exec (.mul u f) s = .next st ∧ ArithDoes s u 2 f (lane2 f Sys2Proof.Machine.Num.mul fun a b => a * b) st) ∧
    (∃ st, exec (.fma u f) s = .next st ∧ ArithDoes s u 3 f (fp3 f Sys2Proof.Machine.Num.fma) st) ∧
    (∃ st, exec (.fnma u f) s = .next st ∧ ArithDoes s u 4 f (fp3 f fun a b c => a.neg.fma b c) st) ∧
    (∃ st, exec (.min u f) s = .next st ∧ ArithDoes s u 5 f (lane2 f (fun a b => (a.min b, 0)) fun a b => if b < a then b else a) st) ∧
    (∃ st, exec (.max u f) s = .next st ∧ ArithDoes s u 6 f (lane2 f (fun a b => (a.max b, 0)) fun a b => if a < b then b else a) st) ∧
    (∃ st, exec (.abs u f) s = .next st ∧ ArithDoes s u 7 f (fun a _ _ => if f.type = 2 then int32 (s32 a).natAbs else ⟨a % f.fmt.signBit, 0⟩) st) ∧
    (∃ st, exec (.neg u f) s = .next st ∧ ArithDoes s u 8 f (laneNeg f) st) ∧
    (∃ st, exec (.div u f) s = .next st ∧ ArithDoes s u 9 f (fun a b _ => fp2 f Sys2Proof.Machine.Num.div a b) st) ∧
    (∃ st, exec (.sqrt u f) s = .next st ∧ ArithDoes s u 10 f (fun a _ _ => fp1 f Sys2Proof.Machine.Num.sqrt a) st) ∧
    (∃ st, exec (.rsqrt u f) s = .next st ∧ ArithDoes s u 11 f (fun a _ _ => fp1 f Sys2Proof.Machine.Num.rsqrt a) st) ∧
    (∃ st, exec (.recip u f) s = .next st ∧ ArithDoes s u 12 f (fun a _ _ => fp1 f Sys2Proof.Machine.Num.recip a) st) ∧
    (∃ st, exec (.exp2 u f) s = .next st ∧ ArithDoes s u 13 f (fun a _ _ => fp1 f Sys2Proof.Machine.Num.exp2 a) st) ∧
    (∃ st, exec (.log2 u f) s = .next st ∧ ArithDoes s u 14 f (fun a _ _ => fp1 f Sys2Proof.Machine.Num.log2 a) st)

/-- INT32 ADD, SUB, MUL, ABS and NEG saturate to the INT32 range and set OVF exactly when they saturate; ABS and NEG of the smallest value give the
largest (04 R128). -/
def Obligations.IntegerArithmeticSaturates : Prop :=
  (∀ v : Int, -2147483648 ≤ v → v ≤ 2147483647 → s32 (int32 v).code = v ∧ (int32 v).flags = 0) ∧
  (∀ v : Int, 2147483647 < v → s32 (int32 v).code = 2147483647 ∧ (int32 v).flags = fOVF) ∧
  (∀ v : Int, v < -2147483648 → s32 (int32 v).code = -2147483648 ∧ (int32 v).flags = fOVF) ∧
  (∀ (f : VFields) (a b c : Nat), f.type = 2 →
    lane2 f Sys2Proof.Machine.Num.add (fun x y => x + y) a b c = int32 (s32 a + s32 b) ∧ lane2 f Sys2Proof.Machine.Num.sub (fun x y => x - y) a b c = int32 (s32 a - s32 b) ∧
    lane2 f Sys2Proof.Machine.Num.mul (fun x y => x * y) a b c = int32 (s32 a * s32 b) ∧
    laneAbs f a b c = int32 (s32 a).natAbs ∧ laneNeg f a b c = int32 (-(s32 a)) ∧
    laneAbs f 0x80000000 b c = ⟨0x7FFFFFFF, fOVF⟩ ∧ laneNeg f 0x80000000 b c = ⟨0x7FFFFFFF, fOVF⟩)

/-- The five reductions (04 R131 to R133): a fixed binary tree over the values in order, along the rows, down the lanes, or into a scalar word. -/
def Obligations.Reductions : Prop :=
  ∀ (s : State) (u : VUse) (f : VFields),
    (∃ st, exec (.sum u f) s = .next st ∧ RedDoes s u 0 f .sum st) ∧ (∃ st, exec (.sumsq u f) s = .next st ∧ RedDoes s u 1 f .sumsq st) ∧ (∃ st, exec (.redMax u f) s = .next st ∧ RedDoes s u 2 f .max st) ∧
    (∃ st, exec (.redMin u f) s = .next st ∧ RedDoes s u 3 f .min st) ∧ (∃ st, exec (.amax u f) s = .next st ∧ RedDoes s u 4 f .amax st)

/-- PERM, SCAT, SCATADD, CGATH, RBCAST, CBCAST, XPOSE and the two SELs (04 R121, R134 to R137). An index beyond its range gives zero, or drops the write of a
scatter, and sets RNG; colliding lanes of a scatter leave the highest lane's value, those of a scattering add add in ascending order; slots that are
not reached keep their values; a broadcast, a transposition and a selection set no flag. One that waits, or of a form that validation rejects, changes
nothing. -/
def Obligations.PermutesAndSelections : Prop :=
  ∀ (s : State) (u : VUse) (f : VFields) (i : VIn) (t : Sparse 32),
    let n := lanesOf f.wide i.x.vl
    let w := if f.wide then 64 else 32
    let src := i.a.at f.wide
    let idx (r l : Nat) : Nat := i.b.at f.wide r l % 2 ^ 32
    let hits (r c : Nat) : List Nat := (List.range n).filter fun l => idx r l = c
    let selected (big : Bool) (r c : Nat) : Option Nat := if r ∈ f.rowList then
        (((if bit f.imm 6 then selSeg f big i r 0 (List.range (min i.x.vl 64)) ++
              selSeg f big i r 1 ((List.range i.x.vl).filter fun l => decide (64 ≤ l))
            else selSeg f big i r 0 (List.range i.x.vl)).find? fun p => p.2.1 = c).map fun p => p.2.2)
      else none
    let runs (k : Nat) : Prop := VecAt s u 3 k f none i t ∧ permForm k f = true
    let waits (k : Nat) : Prop := vecIn s.mem s.dev u 3 k f none = none ∨ permForm k f = false
    (runs 0 → ∃ fl st, exec (.perm u f) s = .next st ∧ TileTakes s s.dev u f.dst t f.wide 1 (onLanes f n fun r l => if idx r l < n then src r (idx r l) else 0) fl st ∧
        fl = if ∃ r ∈ f.rowList, ∃ l ∈ List.range n, n ≤ idx r l then fRNG else 0) ∧
    (runs 1 → ∃ fl st, exec (.scat u f) s = .next st ∧ TileTakes s s.dev u f.dst t f.wide 1 (fun r c => if r ∈ f.rowList ∧ c < n then ((hits r c).getLast?).map (src r) else none) fl st ∧
        fl = if ∃ r ∈ f.rowList, ∃ l ∈ List.range n, n ≤ idx r l then fRNG else 0) ∧
    (runs 2 → ∃ fl st, exec (.scatadd u f) s = .next st ∧ TileTakes s s.dev u f.dst t f.wide 1 (fun r c => if r ∈ f.rowList ∧ c < n ∧ hits r c ≠ [] then
            some ((hits r c).foldl (fun v l => (lane2 f Sys2Proof.Machine.Num.add (fun a b => a + b) v (src r l) 0).code % 2 ^ w) (slotGet f.wide t r c))
          else none) fl st ∧
        ((∃ r ∈ f.rowList, ∃ l ∈ List.range n, n ≤ idx r l) → fl &&& fRNG ≠ 0)) ∧
    (runs 3 → ∃ fl st, exec (.cgath u f) s = .next st ∧ TileTakes s s.dev u f.dst t f.wide 1 (onLanes f n fun r l => if idx r l < f.rowsM1 + 1 then src (f.row0 + idx r l) l else 0) fl st ∧
        fl = if ∃ r ∈ f.rowList, ∃ l ∈ List.range n, f.rowsM1 + 1 ≤ idx r l then fRNG else 0) ∧
    (runs 4 → ∃ st, exec (.rbcast u f) s = .next st ∧ TileTakes s s.dev u f.dst t f.wide 1 (onLanes f n fun _ l => src (f.imm % 128) l) 0 st) ∧
    (runs 5 → ∃ st, exec (.cbcast u f) s = .next st ∧ TileTakes s s.dev u f.dst t f.wide 1 (onLanes f n fun r _ => src r (f.imm % 128)) 0 st) ∧
    (runs 6 → ∃ st, exec (.xpose u f) s = .next st ∧ TileTakes s s.dev u f.dst t false 1 (fun j r => some (src r j)) 0 st) ∧
    (waits 0 → exec (.perm u f) s = .next s) ∧ (waits 1 → exec (.scat u f) s = .next s) ∧ (waits 2 → exec (.scatadd u f) s = .next s) ∧
    (waits 3 → exec (.cgath u f) s = .next s) ∧ (waits 4 → exec (.rbcast u f) s = .next s) ∧ (waits 5 → exec (.cbcast u f) s = .next s) ∧
    (waits 6 → exec (.xpose u f) s = .next s) ∧
    (VecAt s u 4 0 f none i t → selForm 0 f = true →
      ∃ st, exec (.selSmallest u f) s = .next st ∧ TileTakes s s.dev u f.dst t false 1 (selected false) 0 st) ∧
    (VecAt s u 4 1 f none i t → selForm 1 f = true →
      ∃ st, exec (.selLargest u f) s = .next st ∧ TileTakes s s.dev u f.dst t false 1 (selected true) 0 st) ∧
    ((vecIn s.mem s.dev u 4 0 f none = none ∨ selForm 0 f = false) → exec (.selSmallest u f) s = .next s) ∧
    ((vecIn s.mem s.dev u 4 1 f none = none ∨ selForm 1 f = false) → exec (.selLargest u f) s = .next s)

/-- CVT (02 R49, R56 to R70; 04 R130). Each active lane of each row takes the conversion of its slot under the control word, scaled by the tensor scale, the
delayed one where the plan asks for it, FP4 block by block with BX8 in bits [31:24]; the flags are those of the conversions, and INV where a bad tensor scale
is applied; the amax of a narrow tensor is recorded. One that waits, or that validation rejects, changes nothing. -/
def Obligations.Conversion : Prop :=
  ∀ (s : State) (u : VUse) (f : VFields) (src : Nat) (w : DrawIn) (i : VIn) (t : Sparse 32),
    let n := convLanes src (ncwDst f.imm) i.x.vl
    let sc := narrowScale s.dev w.amax (i.scale f)
    let row (r : Nat) : List Nat × Nat := convRow f.imm src sc
      (fun l => ncwRule f.imm (vecKey s.dev u.ctx w.stream) (w.base + (r - f.row0) * w.pitch + l)) (cvtRow f src n i r)
    (VecAt s u 1 src f none i t → cvtForm f src = true → (ncwDst f.imm = 6 → i.x.vl % 32 = 0) → probeStream f.imm w.stream = false →
      ∃ st, exec (.cvt u f src w) s = .next st ∧ TileTakes s (recordAmax w.amax (ncwDst f.imm) (f.rowList.flatMap fun r => (cvtRow f src n i r).map (·.1)) s.dev) u f.dst t
        (ncwDst f.imm = 1) 1 (onLanes f n fun r l => ((row r).1[l]?).getD 0)
        (f.rowList.foldl (fun fl r => fl ||| (row r).2) (scaleFlag f.imm sc)) st) ∧
    ((vecIn s.mem s.dev u 1 src f none = none ∨ cvtForm f src = false ∨ probeStream f.imm w.stream = true) → exec (.cvt u f src w) s = .next s) ∧
    (vecIn s.mem s.dev u 1 src f none = some i → ncwDst f.imm = 6 → i.x.vl % 32 ≠ 0 → exec (.cvt u f src w) s = .next s)

/-- LU, CHOL, GJINV and TRINV (04 R138 to R141): every block in place, pivot column by pivot column in ascending order, with substitutions counted
per block and for the vector block. -/
def Obligations.PivotStage : Prop :=
  ∀ (s : State) (u : VUse) (f : VFields),
    (∃ st, exec (.lu u f) s = .next st ∧ PivDoes s u 0 f .lu st) ∧ (∃ st, exec (.chol u f) s = .next st ∧ PivDoes s u 1 f .chol st) ∧ (∃ st, exec (.gjinv u f) s = .next st ∧ PivDoes s u 2 f .gjinv st) ∧
    (∃ st, exec (.trinv u f) s = .next st ∧ PivDoes s u 3 f .trinv st)

/-- LD, ST, LDS and GATH (02 R46; 04 R144 to R146; 11 R336, R340; 13 R387). Rows come from memory, widened exactly to TYPE, FP4 with the block exponents that
follow the rows; rows go to memory converted, those of TYPE's own format as they are, and no other byte changes; scalar words come from consecutive 64-bit
words; a gather beyond EXTENT gives zero and sets RNG, reading nothing. A store into a HELD copy waits; an instruction that waits on its queue
positions, or that validation rejects, changes nothing. -/
def Obligations.VectorMoves : Prop :=
  ∀ (s : State) (u : VUse) (f : VFields) (ext : W64) (w : DrawIn) (i : VIn) (t : Sparse 32), NoBadWords s.dev →
    let n := lanesOf f.wide i.x.vl
    let by_ := if f.wide then 8 else 4
    let gat (r l : Nat) : Nat := i.b.at f.wide r l % 2 ^ 32
    let row (a len : Nat) : List Byte := readResolved s.mem s.dev a len
    let reads (d : Dev) : Prop := d = { s.dev with plan := d.plan, gon := d.gon, evt := { s.dev.evt with fseq := d.evt.fseq }
                                                   integ := { s.dev.integ with deferred := d.integ.deferred } }
    let o := stWrites f ext w i (narrowScale s.dev w.amax (i.scale f)) (vecKey s.dev u.ctx w.stream)
    let stores : Prop := vecIn s.mem s.dev u 6 1 f (some ext) = some i ∧ stForm f ext = true ∧ (ncwDst f.imm = 6 → i.x.vl % 32 = 0) ∧
      probeStream f.imm w.stream = false
    (VecAt s u 6 0 f (some ext) i t → ldForm f ext = true → f.imm % 16 ≠ 6 →
      ∃ d st, exec (.ld u f ext) s = .next st ∧ reads d ∧ TileTakes s d u f.dst t f.wide 2 (onLanes f n fun r l => widenCode f (f.imm % 16)
          (rowElem (row (extAddr ext + (r - f.row0) * movePitch ext (n * (fmtBits (f.imm % 16) / 8))) (n * (fmtBits (f.imm % 16) / 8)))
            (fmtBits (f.imm % 16) / 8) l)) 0 st) ∧
    (VecAt s u 6 0 f (some ext) i t → ldForm f ext = true → f.imm % 16 = 6 → i.x.vl % 32 = 0 →
      let pitch := movePitch ext (i.x.vl / 2)
      ∃ d st, exec (.ld u f ext) s = .next st ∧ reads d ∧ TileTakes s d u f.dst t true 2 (onLanes f n fun r l =>
          (fp64.ieee false false (fp4Value
            (rowElem (row (extAddr ext + (r - f.row0) * pitch) (n / 2)) 1 (l / 2) / (if l % 2 = 0 then 1 else 16) % 16)
            (rowElem (row (extAddr ext + (f.rowsM1 + 1) * pitch + (r - f.row0) * (i.x.vl / 32)) (n / 32)) 1 (l / 32)))).code)
        0 st) ∧
    (VecAt s u 6 3 f (some ext) i t → gathForm f ext = true →
      ∃ d fl st, exec (.gath u f ext) s = .next st ∧ reads d ∧ TileTakes s d u f.dst t f.wide 2 (onLanes f n fun r l => if gat r l < bits ext.toNat 63 40 then
          leNat (row (ext.toNat % 2 ^ 40 + gat r l * by_) by_) else 0) fl st ∧
        fl = if ∃ r ∈ f.rowList, ∃ l ∈ List.range n, bits ext.toNat 63 40 ≤ gat r l then fRNG else 0) ∧
    (vecIn s.mem s.dev u 6 2 f (some ext) = some i → ldsForm f ext = true →
      ∃ d, reads d ∧ exec (.lds u f ext) s = .next { s with dev := vecNext u 2 (modCtx u (fun x => { x with
          scal := (List.range (f.imm % 32 + 1)).foldl (fun sc k => sc.set (f.scal + k)
            (BitVec.ofNat 64 (leNat (row (extAddr ext + 8 * k) 8)))) x.scal }) d) }) ∧
    (stores → (∀ p ∈ o.1, heldWrite s.dev p.1 p.2.length = false) →
      ∃ m d, exec (.st u f ext w) s = .next { s with mem := m, dev := vecNext u 2 (vecFlags u o.2 d) } ∧
        (∀ a, Outside s.dev (o.1.map fun p => (p.1, p.2.length)) a → m.get a = s.mem.get a) ∧
        d.narrow = (recordAmax w.amax (ncwDst f.imm) (stValues f i) s.dev).narrow ∧
        d = { s.dev with ecc := d.ecc, cxl := d.cxl, tack := d.tack, vrd := d.vrd, narrow := d.narrow }) ∧
    (stores → ncwDst f.imm = f.code → MemCanonical s → (∀ p ∈ o.1, heldWrite s.dev p.1 p.2.length = false) →
        PlainWrites s.dev → n * by_ ≤ movePitch ext (n * by_) →
      ∃ st, exec (.st u f ext w) s = .next st ∧ o.2 = 0 ∧
        (∀ k < f.rowsM1 + 1, ∀ l < n, st.mem.readLE (extAddr ext + k * movePitch ext (n * by_) + l * by_) by_ =
          i.a.at f.wide (f.row0 + k) l % 2 ^ (8 * by_)) ∧
        (∀ a, (∀ k < f.rowsM1 + 1, a < extAddr ext + k * movePitch ext (n * by_) ∨ extAddr ext + k * movePitch ext (n * by_) + n * by_ ≤ a) →
          st.mem.get a = s.mem.get a)) ∧
    (stores → (∃ p ∈ o.1, heldWrite s.dev p.1 p.2.length = true) → exec (.st u f ext w) s = .next { s with dev := holdBlock i s.dev }) ∧
    ((vecIn s.mem s.dev u 6 0 f (some ext) = none ∨ ldForm f ext = false) → exec (.ld u f ext) s = .next s) ∧
    ((vecIn s.mem s.dev u 6 1 f (some ext) = none ∨ stForm f ext = false ∨ probeStream f.imm w.stream = true) → exec (.st u f ext w) s = .next s) ∧
    ((vecIn s.mem s.dev u 6 2 f (some ext) = none ∨ ldsForm f ext = false) → exec (.lds u f ext) s = .next s) ∧
    ((vecIn s.mem s.dev u 6 3 f (some ext) = none ∨ gathForm f ext = false) → exec (.gath u f ext) s = .next s)

/-- SETVL, POP, CKPT, the CTRL NOP and VBLOCK_SLOT (04 R115, R141, R148 to R150; 07 R224 to R227). VL takes IMM[7:0]; a POP counts a release that takes effect
only at the end of the vector block; CKPT, or the block's last word, ends the block: the context's oldest entries go, its pivot substitutions are added to
the total, and its slot completes. A vector-block slot that issues makes its block issuable for its context, whatever the code finds in its words.
VECTOR_BLOCK_RESTART and QUEUE_ENTRY_REPLAY (04 R149, R151 to R154; 07 R238; 13 R394, R395). A parity failure is CORRECTED and counted once, and the
context's block starts again from its first instruction with the VL and scalar words it found; a row that fails its test, or passed it and fails again in
the same repair, takes a spare row, as DEGRADED; with no spare the group leaves service. The row test leaves free values in its tile-buffer row (log
entry 6). -/
def Obligations.VectorControlAndRestarts : Prop :=
  (∀ (s : State) (u : VUse) (f : VFields) (i : VIn) (r : Run) (w : Slot) (seq : Nat) (b : Nat × Nat × Nat) (bs : List (Nat × Nat × Nat)) (g0 : Group)
      (x : VCtx) (sc : EccFind),
    (vecIn s.mem s.dev u 7 0 f none = some i → ctrlForm 0 f = true →
      exec (.setvl u f) s = .next { s with dev := vecNext u 1 (modCtx u (fun x => { x with vl := f.imm % 256 }) s.dev) }) ∧
    (vecIn s.mem s.dev u 7 1 f none = some i → ctrlForm 1 f = true →
      exec (.pop u f) s = .next { s with dev := vecNext u 1 (modCtx u (fun x => { x with pops := x.pops + f.imm % 16 }) s.dev) }) ∧
    (vecIn s.mem s.dev u 7 2 f none = some i → ctrlForm 2 f = true → exec (.ckpt u f) s = .next { s with dev := endBlock u s.dev }) ∧
    (vecIn s.mem s.dev u 7 3 f none = some i → ctrlForm 3 f = true → exec (.ctrlNop u f) s = .next { s with dev := vecNext u 1 s.dev }) ∧
    ((vecIn s.mem s.dev u 7 0 f none = none ∨ ctrlForm 0 f = false) → exec (.setvl u f) s = .next s) ∧
    ((vecIn s.mem s.dev u 7 1 f none = none ∨ ctrlForm 1 f = false) → exec (.pop u f) s = .next s) ∧
    ((vecIn s.mem s.dev u 7 2 f none = none ∨ ctrlForm 2 f = false) → exec (.ckpt u f) s = .next s) ∧
    ((vecIn s.mem s.dev u 7 3 f none = none ∨ ctrlForm 3 f = false) → exec (.ctrlNop u f) s = .next s) ∧
    (s.dev.groups[u.group]? = some g0 → g0.ctxs[u.ctx]? = some x → x.blocks = b :: bs → ∀ n,
      (x.pos + n < b.2.2 → vecNext u n s.dev = modCtx u (fun x => { x with pos := x.pos + n }) s.dev) ∧
      (b.2.2 ≤ x.pos + n → vecNext u n s.dev = endBlock u s.dev)) ∧
    (s.dev.groups[u.group]? = some g0 → g0.ctxs[u.ctx]? = some x → x.blocks = b :: bs → g0.waiting = [] →
        s.dev.plan.run = some r → inFlight r b.1 = some (r.start, r.addr, w) → r.carried = [] → r.phase ≠ .between → readinessHeld s.dev = false →
      ∃ q g, let d := endBlock u s.dev
        d.plan.run = some q ∧ b.1 ∈ q.done ∧ q = { r with done := q.done } ∧
        d.groups[u.group]? = some g ∧ g.queue = dropMatching (fun e => decide (e.ctx = u.ctx)) x.pops g0.queue ∧
        g.ctxs[u.ctx]? = some { x with blocks := bs, pos := 0, pops := 0, pivs := 0, start := (x.vl, x.scal) } ∧
        (∀ k, k ≠ u.ctx → g.ctxs[k]? = g0.ctxs[k]?) ∧
        g = { g0 with queue := g.queue, ctxs := g.ctxs, mending := g0.mending.filter fun r => r.1 ≠ u.ctx } ∧
        d.gen.pivTot = modAt (fun c => satAdd c x.pivs) u.group s.dev.gen.pivTot ∧
        d = { s.dev with groups := d.groups, gen := { s.dev.gen with pivTot := d.gen.pivTot }, plan := d.plan }) ∧
    (Issues s.dev seq 2 r w → sc.ce = [] → sc.ue = [] →
      exec (.vblockSlot ⟨seq, sc⟩) s = .next { s with dev := (modCtx ⟨w.stream - 200, w.ctx⟩
        (fun x => { x with blocks := x.blocks ++ [(seq, r.addr + w.payload, w.arg)] })
        { s.dev with plan := { s.dev.plan with run := some { r with issued := r.issued ++ [seq] } } }) }) ∧
    (Issues s.dev seq 2 r w → s.dev.groups[w.stream - 200]? = some g0 → g0.ctxs[w.ctx]? = some x →
      ∃ d q x', exec (.vblockSlot ⟨seq, sc⟩) s = .next { s with dev := d } ∧ d.plan.run = some q ∧ q.issued = r.issued ++ [seq] ∧
        (d.groups[w.stream - 200]?).bind (fun g => g.ctxs[w.ctx]?) = some x' ∧ x' = { x with blocks := x'.blocks, scal := x'.scal } ∧
        x'.blocks = x.blocks ++ [(seq, r.addr + w.payload, w.arg)] ∧
        (sc.ue = [] → d.evt.fseq = s.dev.evt.fseq + sc.ce.length) ∧ d.integ.corr = sc.ce.foldl (fun c _ => satAdd c 1) s.dev.integ.corr)) ∧
  (∀ (s : State) (u : VUse) (buf row q : Nat) (bad : Bool) (g : Group) (x : VCtx) (e : QEnt) (p : GroupPwr),
    s.dev.groups[u.group]? = some g → g.ctxs[u.ctx]? = some x → s.dev.gpwr[u.group]? = some p →
    let again := { x with pos := 0, pops := 0, pivs := 0, vl := x.start.1, scal := x.start.2 }
    let failsV := bad || isMending s.dev u 0x02 (128 * buf + row)
    let failsQ := bad || isMending s.dev u 0x03 (128 * q + row)
    let leaves (d : Dev) : Prop := (d.gpwr[u.group]?).map GroupPwr.absent = some true ∧
      (d.groups[u.group]?).map Group.gramAbsent = some true ∧
      ∀ k, k < 4 → ∀ a, s.dev.arrays[4 * u.group + k]? = some a → (d.arrays[4 * u.group + k]?).map MArr.absent = some true
    (p.absent = false → buf < 6 → row < 128 → (failsV = true → g.rowsVu < 16) →
      ∃ d g', exec (.vectorBlockRestart u buf row bad) s = .next { s with dev := d } ∧ d.groups[u.group]? = some g' ∧
        g'.ctxs[u.ctx]? = some again ∧ (∀ k, k ≠ u.ctx → g'.ctxs[k]? = g.ctxs[k]?) ∧ g'.rowsVu = g.rowsVu + (if failsV then 1 else 0) ∧
        (failsV = false → (u.ctx, 0x02, 128 * buf + row) ∈ g'.mending) ∧
        (∀ k, k ≠ buf → g'.bufs[k]? = g.bufs[k]?) ∧ g'.queue = g.queue ∧ (∀ k, k ≠ u.group → d.groups[k]? = s.dev.groups[k]?) ∧ d.freeCtr = s.dev.freeCtr + 1 ∧
        d.evt.fseq = s.dev.evt.fseq + 1 ∧ d.integ.parReplay = satAdd s.dev.integ.parReplay 1 ∧
        d = { s.dev with groups := d.groups, integ := d.integ, evt := { s.dev.evt with fseq := d.evt.fseq, wait := d.evt.wait }, irq := d.irq, freeCtr := d.freeCtr }) ∧
    (p.absent = false → buf < 6 → row < 128 → failsV = true → 16 ≤ g.rowsVu →
      ∃ d, exec (.vectorBlockRestart u buf row bad) s = .next { s with dev := d } ∧ leaves d) ∧
    ((6 ≤ buf ∨ 128 ≤ row ∨ p.absent = true) → exec (.vectorBlockRestart u buf row bad) s = .next s) ∧
    (p.absent = false → g.position u.ctx q = some e → (failsQ = true → g.rowsTq < 16) →
      ∃ d g', exec (.queueEntryReplay u q row bad) s = .next { s with dev := d } ∧ d.groups[u.group]? = some g' ∧
        g'.ctxs[u.ctx]? = some again ∧ (∀ k, k ≠ u.ctx → g'.ctxs[k]? = g.ctxs[k]?) ∧ g'.rowsTq = g.rowsTq + (if failsQ then 1 else 0) ∧
        (failsQ = false → (u.ctx, 0x03, 128 * q + row) ∈ g'.mending) ∧
        g'.queue = g.queue ∧ g'.bufs = g.bufs ∧ d.evt.fseq = s.dev.evt.fseq + 1 ∧ d.integ.parReplay = satAdd s.dev.integ.parReplay 1 ∧
        d = { s.dev with groups := d.groups, gen := d.gen, integ := d.integ, evt := { s.dev.evt with fseq := d.evt.fseq, wait := d.evt.wait }, irq := d.irq }) ∧
    (p.absent = false → g.position u.ctx q = some e → failsQ = true → 16 ≤ g.rowsTq →
      ∃ d, exec (.queueEntryReplay u q row bad) s = .next { s with dev := d } ∧ leaves d) ∧
    ((g.position u.ctx q = none ∨ p.absent = true) → exec (.queueEntryReplay u q row bad) s = .next s))

/-- PUT_ISSUE, GET_ISSUE, ACCUMULATE_ISSUE and SIGNAL_ISSUE (09 R281, R283, R285, R288, R290; 10 R313; 11 R340, R344). A slot that issues puts its message on
its route's port under a free TAG and a sealed header, with the payload read through the views, and stays in flight; with no route it comes back as NACK
UNREACHABLE at once; a source with a bad word is not sent, and its slot completes; a drain slot sends what the drain engine has for the buddy, and
completes at once where that is nothing. The 65th message of a stream waits, and so does a GET into a HELD copy.
ACK_RECEIVE, GET_RESP_RECEIVE, NACK_RECEIVE and MESSAGE_TIMEOUT (09 R285 to R287, R290, R294; 10 R313, R328). ACK completes a message and counts it in its
CTALLY, a GET response lands at LOCAL first, a NACK for EPOCH or WINDOW completes it without effect, and any other NACK or a timeout adds a contained data
error of cause 4, also for a carried slot. The signals of a permuting collective follow the last of its PUTs. A response that belongs to no
request in flight does nothing; one with a bad header, or of an epoch that is not accepted, is dropped and counted. -/
def Obligations.MessagesGoOutAndComplete : Prop :=
  (∀ (s : State) (opc seq port : Nat) (esc : Bool) (r : Run) (w : Slot), opc ≤ 3 →
    let goes (t : State) : Prop := (opc = 0 → exec (.putIssue seq) s = .next t) ∧ (opc = 1 → exec (.getIssue seq) s = .next t) ∧
      (opc = 2 → exec (.accumulateIssue seq) s = .next t) ∧ (opc = 3 → exec (.signalIssue seq) s = .next t)
    let md := msgAt s.mem (r.addr + w.payload)
    let open_ := (s.dev.tth.pend.filter fun q => q.stream = w.stream).length
    (Issues s.dev seq 4 r w → md.opc = opc → open_ < 64 → isDrainArg w.arg = false → NoBadWords s.dev →
        (opc = 1 → heldWrite s.dev md.loc md.len = false) → outPort s.dev (hopOf r md.rank) w.stream = some (port, esc) →
      ∃ d q y x, goes { s with dev := d } ∧ d.plan.run = some q ∧ q.issued = r.issued ++ [seq] ∧ q.done = r.done ∧
        d.tth = { s.dev.tth with out := s.dev.tth.out ++ [y], pend := s.dev.tth.pend ++ [x], tag := (freeTag s.dev + 1) % 65536
                                 escape := if esc then satAdd s.dev.tth.escape 1 else s.dev.tth.escape } ∧
        x.tag = freeTag s.dev ∧ x.hdr = y.hdr ∧ x.slot = some (r.start, seq) ∧ x.stream = w.stream ∧ y.port = port ∧
        y.data = (if opc = 0 ∨ opc = 2 then readResolved s.mem s.dev md.loc md.len else []) ∧ y.hdr.opc = opc ∧
        y.hdr.srcNode = s.dev.tth.self ∧ y.hdr.dstNode = (hopOf r md.rank).node ∧ y.hdr.dstRank = md.rank ∧ y.hdr.remote = md.remote ∧
        y.hdr.lenM1 = md.len - 1 ∧ y.hdr.tag = freeTag s.dev ∧ y.hdr.start = r.start % 65536 ∧ y.hdr.lepoch = s.dev.vrd.epoch ∧
        y.hdr.vc = (if esc then 2 else 0) ∧ hcrcOk y.hdr = true ∧
        d = { s.dev with plan := d.plan, tth := d.tth, gon := d.gon, evt := { s.dev.evt with fseq := d.evt.fseq }
                         integ := { s.dev.integ with deferred := d.integ.deferred } }) ∧
    (Issues s.dev seq 4 r w → md.opc = opc → open_ < 64 → isDrainArg w.arg = false → NoBadWords s.dev → readinessHeld s.dev = false →
        (opc = 1 → heldWrite s.dev md.loc md.len = false) → outPort s.dev (hopOf r md.rank) w.stream = none →
      ∃ d q, goes { s with dev := d } ∧ d.plan.run = some q ∧ q.issued = r.issued ++ [seq] ∧ seq ∈ q.done ∧
        d.tth.out = s.dev.tth.out ∧ d.tth.pend = s.dev.tth.pend.filter (fun q => q.tag ≠ freeTag s.dev) ∧
        d.tth.rejOther = satAdd s.dev.tth.rejOther 1 ∧ (voteOpen r = true → 4 ∈ q.cde)) ∧
    (Issues s.dev seq 4 r w → md.opc = opc → open_ < 64 → isDrainArg w.arg = false → (opc = 0 ∨ opc = 2) → readinessHeld s.dev = false →
        (badResolved s.dev md.loc md.len).isSome = true →
      ∃ d, goes { s with dev := d } ∧ d.tth.out = s.dev.tth.out ∧ d.tth.pend = s.dev.tth.pend ∧
        ∀ q, d.plan.run = some q → seq ∈ q.done) ∧
    (Issues s.dev seq 4 r w → md.opc = opc → open_ < 64 → isDrainArg w.arg = true →
      goes { s with dev := drainTether r w (Machine.issue seq s.dev) }) ∧
    (Issues s.dev seq 4 r w → md.opc = opc → open_ < 64 → isDrainArg w.arg = true → s.dev.snap.drain = none → readinessHeld s.dev = false →
      ∃ d q, goes { s with dev := d } ∧ d.plan.run = some q ∧ SlotDone r q seq ∧ d = { s.dev with plan := d.plan }) ∧
    (s.dev.plan.run = some r → carriedHead r seq = none → slotOf r seq = some w → 64 ≤ open_ → goes s) ∧
    (Issues s.dev seq 4 r w → opc = 1 → md.opc = 1 → open_ < 64 → isDrainArg w.arg = false → heldWrite s.dev md.loc md.len = true →
      goes { s with dev := holdSlot seq s.dev })) ∧
  (∀ (s : State) (seq tag st : Nat) (r : Run) (h : WireHdr) (p : Pend) (data : List Byte),
    let runs : Prop := p.slot = some (r.start, seq) ∧ s.dev.plan.run = some r ∧ r.phase ≠ .between ∧ readinessHeld s.dev = false ∧ r.permSig = []
    let carried : Prop := p.slot = some (st, seq) ∧ s.dev.plan.run = some r ∧ st ≠ r.start ∧ r.permSig = [] ∧ readinessHeld s.dev = false ∧
      r.carried.any (fun c => c.start = st && c.slot.seq = seq) = true
    (RespFor s.dev 9 h p → p.hdr.opc ≠ 1 → runs →
      ∃ d, exec (.ackReceive h) s = .next { s with dev := d } ∧ MsgCompleted s.dev d p seq ∧
        (p.ct = none → d = { s.dev with tth := { s.dev.tth with pend := d.tth.pend }, plan := d.plan }) ∧
        (∀ t, p.ct = some (t, r.start) → TallyTakes s.dev d t 1 false false) ∧
        (∀ t n, p.ct = some (t, n) → n ≠ r.start → TalliesStay s.dev d)) ∧
    (RespFor s.dev 9 h p → p.hdr.opc = 0 → p.slot = none → p.ct = none → s.dev.plan.run = some r → r.permSig ≠ [] → s.dev.tth.pend = [p] →
      ∃ d q, exec (.ackReceive h) s = .next { s with dev := d } ∧ d.plan.run = some q ∧ q.permSig = []) ∧
    (RespFor s.dev 8 h p → p.hdr.opc = 1 → runs → NoBadWords s.dev → MemCanonical s →
      ∃ t, exec (.getRespReceive h data) s = .next t ∧ t.pending = s.pending ∧ MsgCompleted s.dev t.dev p seq ∧
        (∀ a, Outside s.dev [(p.loc, (data.take (hdrLen p.hdr)).length)] a → t.mem.get a = s.mem.get a) ∧
        (PlainWrites s.dev → t.mem.read p.loc (data.take (hdrLen p.hdr)).length = data.take (hdrLen p.hdr)) ∧
        (∀ k, p.ct = some (k, r.start) → TallyTakes s.dev t.dev k 1 false false)) ∧
    (RespFor s.dev 10 h p → (h.status = 2 ∨ h.status = 3) → runs →
      ∃ d q, exec (.nackReceive h) s = .next { s with dev := d } ∧ MsgCompleted s.dev d p seq ∧ d.plan.run = some q ∧ q.cde = r.cde ∧
        q.cdeNext = r.cdeNext ∧ TalliesStay s.dev d) ∧
    (RespFor s.dev 10 h p → h.status ≠ 2 → h.status ≠ 3 → runs → p.hdr.start % 65536 = r.start % 65536 →
      ∃ d q, exec (.nackReceive h) s = .next { s with dev := d } ∧ MsgCompleted s.dev d p seq ∧ d.plan.run = some q ∧ CdeRaised 4 r q ∧
        TalliesStay s.dev d) ∧
    (RespFor s.dev 10 h p → h.status ≠ 2 → h.status ≠ 3 → carried →
      ∃ d q, exec (.nackReceive h) s = .next { s with dev := d } ∧ d.plan.run = some q ∧ CdeRaised 4 r q ∧
        q.carried = r.carried.filter (fun c => !(c.start = st && c.slot.seq = seq))) ∧
    (s.dev.tth.pend.find? (fun q => q.tag = tag) = some p → runs → p.hdr.start % 65536 = r.start % 65536 →
      ∃ d q, exec (.messageTimeout tag) s = .next { s with dev := d } ∧ MsgCompleted s.dev d p seq ∧ d.plan.run = some q ∧
        CdeRaised 4 r q ∧ d.tth.tmo = satAdd s.dev.tth.tmo 1) ∧
    (s.dev.tth.pend.find? (fun q => q.tag = tag) = some p → carried →
      ∃ d q, exec (.messageTimeout tag) s = .next { s with dev := d } ∧ d.plan.run = some q ∧ CdeRaised 4 r q ∧
        q.carried = r.carried.filter (fun c => !(c.start = st && c.slot.seq = seq)) ∧ d.tth.tmo = satAdd s.dev.tth.tmo 1) ∧
    (s.dev.tth.pend.find? (fun q => q.tag = tag) = none → exec (.messageTimeout tag) s = .next s) ∧
    (h.dstNode = s.dev.tth.self → isSafe s.dev = false → hcrcOk h = true → h.lepoch = s.dev.vrd.epoch →
        s.dev.tth.pend.find? (fun q => q.tag = h.tag && q.hdr.dstNode = h.srcNode && q.hdr.start = h.start) = none →
      exec (.ackReceive h) s = .next s ∧ exec (.nackReceive h) s = .next s ∧ exec (.getRespReceive h data) s = .next s) ∧
    (h.dstNode = s.dev.tth.self → isSafe s.dev = false →
        (hcrcOk h = false ∨ (h.lepoch ≠ s.dev.vrd.epoch ∧ isPending s.dev h.lepoch = false)) →
      let t := s.dev.tth
      let dropped : Out := .next { s with dev := { s.dev with tth :=
        (if hcrcOk h then { t with rejEpoch := satAdd t.rejEpoch 1 } else { t with rejOther := satAdd t.rejOther 1 }) } }
      (h.opc = 9 → exec (.ackReceive h) s = dropped) ∧ (h.opc = 10 → exec (.nackReceive h) s = dropped) ∧
        (h.opc = 8 → exec (.getRespReceive h data) s = dropped)))

/-- PUT_RECEIVE, GET_RECEIVE, ACCUMULATE_RECEIVE and SIGNAL_RECEIVE (09 R284 to R292, R294; 10 R476; 11 R339). A request that passes every check is
applied: a PUT stores its bytes, then a SIG increments its tally, then it is acknowledged; a GET is answered with its data; an ACCUMULATE combines
element by element and records its flags; a SIGNAL adds INC to its tally in the window and epoch that its header names, saturating. One that fails a
check is answered with NACK and its reason and touches no memory; a bay that is not ONLINE gives ADDRESS and a lost range, a bad word MEMORY; a bad header
is dropped and counted; a write into a HELD copy waits. -/
def Obligations.RequestsAreApplied : Prop :=
  ∀ (s : State) (port st : Nat) (next : Bool) (h : WireHdr) (data : List Byte) (r : Run),
    let pay := data.take (hdrLen h)
    let tallies (d : Dev) : Prop := if h.sig then TallyTakes s.dev d h.tally 1 next (isPending s.dev h.lepoch) else TalliesStay s.dev d
    let here : Prop := ((s.dev.tth.ports[port]?).map portUp) = some true ∧ isSafe s.dev = false ∧ h.dstNode = s.dev.tth.self
    (Accepted s port 3 h r next →
      ∃ d, exec (.signalReceive port h) s = .next { s with dev := d } ∧ Answers s.dev d port h 9 0 [] ∧
        TallyTakes s.dev d h.tally h.inc next (isPending s.dev h.lepoch) ∧ d.tth.token = (port + 1) % 16) ∧
    (Accepted s port 1 h r next → gonClosed s.dev h = false → NoBadWords s.dev →
      ∃ d, exec (.getReceive port h) s = .next { s with dev := d } ∧ Answers s.dev d port h 8 0 (readResolved s.mem s.dev h.remote (hdrLen h)) ∧
        d = { s.dev with tth := d.tth, gon := d.gon, integ := { s.dev.integ with deferred := d.integ.deferred } }) ∧
    (Accepted s port 0 h r next → gonClosed s.dev h = false → NoBadWords s.dev → heldWrite s.dev h.remote (hdrLen h) = false → MemCanonical s →
      ∃ t, exec (.putReceive port h data) s = .next t ∧ t.pending = s.pending ∧ Answers s.dev t.dev port h 9 0 [] ∧
        (isDirect s.dev h = false → ∀ a, Outside s.dev [(h.remote, pay.length)] a → t.mem.get a = s.mem.get a) ∧
        (isDirect s.dev h = true → ∀ a, (a < h.remote ∨ h.remote + pay.length ≤ a) → t.mem.get a = s.mem.get a) ∧
        ((isDirect s.dev h = true ∨ PlainWrites s.dev) → t.mem.read h.remote pay.length = pay) ∧
        tallies t.dev ∧ t.dev.plan = s.dev.plan) ∧
    (Accepted s port 2 h r next → NoBadWords s.dev → heldWrite s.dev h.remote (hdrLen h) = false → MemCanonical s →
      let x := accBytes h.accOp h.fmt (fmtBits h.fmt / 8) (hdrLen h / (fmtBits h.fmt / 8)) h.remote
        (readVia (resolveAcc s.dev) s.mem s.dev h.remote (hdrLen h)) pay
      ∃ t, exec (.accumulateReceive port h data) s = .next t ∧ t.pending = s.pending ∧ Answers s.dev t.dev port h 9 0 [] ∧
        (isDirect s.dev h = false → ∀ a, Outside s.dev [(h.remote, x.1.length)] a → t.mem.get a = s.mem.get a) ∧
        (isDirect s.dev h = true → ∀ a, (a < h.remote ∨ h.remote + x.1.length ≤ a) → t.mem.get a = s.mem.get a) ∧
        ((isDirect s.dev h = true ∨ PlainWrites s.dev) → t.mem.read h.remote x.1.length = x.1) ∧
        t.dev.tth.accFlag = s.dev.tth.accFlag ||| (BitVec.ofNat 8 (accFlags x.2 [] % 256) &&& 0xCD) ∧ tallies t.dev ∧ t.dev.plan = s.dev.plan) ∧
    (here → hcrcOk h = true → reqCheck s.mem s.dev h = st → st ≠ 0 →
      ((h.opc = 0 ∨ 3 < h.opc ∧ h.opc < 8 ∨ 10 < h.opc) →
        ∃ d, exec (.putReceive port h data) s = .next { s with dev := d } ∧ Answers s.dev d port h 10 st [] ∧ TalliesStay s.dev d) ∧
      (h.opc = 1 → ∃ d, exec (.getReceive port h) s = .next { s with dev := d } ∧ Answers s.dev d port h 10 st [] ∧ TalliesStay s.dev d) ∧
      (h.opc = 2 → ∃ d, exec (.accumulateReceive port h data) s = .next { s with dev := d } ∧ Answers s.dev d port h 10 st [] ∧ TalliesStay s.dev d) ∧
      (h.opc = 3 → ∃ d, exec (.signalReceive port h) s = .next { s with dev := d } ∧ Answers s.dev d port h 10 st [] ∧ TalliesStay s.dev d)) ∧
    (Accepted s port 1 h r next → gonClosed s.dev h = true →
      ∃ d, exec (.getReceive port h) s = .next { s with dev := d } ∧ Answers s.dev d port h 10 5 [] ∧
        d.ecc = { s.dev.ecc with gonLost := s.dev.ecc.gonLost ++ [(h.remote, hdrLen h)] }) ∧
    (Accepted s port 0 h r next → gonClosed s.dev h = true → heldWrite s.dev h.remote (hdrLen h) = false →
      ∃ d, exec (.putReceive port h data) s = .next { s with dev := d } ∧ Answers s.dev d port h 10 5 [] ∧
        d.ecc = { s.dev.ecc with gonLost := s.dev.ecc.gonLost ++ [(h.remote, hdrLen h)] } ∧ TalliesStay s.dev d) ∧
    (Accepted s port 1 h r next → gonClosed s.dev h = false → (badResolved s.dev h.remote (hdrLen h)).isSome = true →
      ∃ d, exec (.getReceive port h) s = .next { s with dev := d } ∧ Answers s.dev d port h 10 9 []) ∧
    (reqCheck s.mem s.dev h = 0 → heldWrite s.dev h.remote (hdrLen h) = true →
      exec (.putReceive port h data) s = .next s ∧ exec (.accumulateReceive port h data) s = .next s) ∧
    (here → hcrcOk h = false →
      let dropped : Out := .next { s with dev := { s.dev with tth := { s.dev.tth with rejOther := satAdd s.dev.tth.rejOther 1 } } }
      (h.opc = 1 → exec (.getReceive port h) s = dropped) ∧ (h.opc = 3 → exec (.signalReceive port h) s = dropped) ∧
      (heldWrite s.dev h.remote (hdrLen h) = false →
        (h.opc = 0 → exec (.putReceive port h data) s = dropped) ∧ (h.opc = 2 → exec (.accumulateReceive port h data) s = dropped))) ∧
    ((((s.dev.tth.ports[port]?).map portUp) ≠ some true ∨ isSafe s.dev = true ∨ h.dstNode ≠ s.dev.tth.self) →
      exec (.putReceive port h data) s = .next s ∧ exec (.getReceive port h) s = .next s ∧ exec (.accumulateReceive port h data) s = .next s ∧
      exec (.signalReceive port h) s = .next s)

/-- PORT_TRAINING_COMPLETE, MESH_TRANSIT, LINK_REPLAY, LANE_FAILURE, PARTNER_GONE and LINK_CONTROL_BALLAST_NOTICE (09 R277, R278, R281, R295 to R298; 13 R394,
R400). A port comes up at the lower of the two rates with its partner's position, or goes DOWN with a NOTE where the partner's claim is wrong; a message for
another chip goes on by the bundle that XY or the escape channel names; with no way on a request is answered UNREACHABLE and a response dropped; replays
are counted; a failed lane takes the direction's ballast lane or takes its port DOWN; a failed ballast lane takes down the port that uses it, or is
marked bad at both ends; ports that are not UP do none of it. -/
def Obligations.PortsLanesAndTransit : Prop :=
  ∀ (s : State) (p lane dir : Nat) (q : Port) (tr : PortTrain) (h : WireHdr) (data : List Byte) (ps : List Nat) (e trains free : Bool),
    (s.dev.tth.ports[p]? = some q → q.state = .training → tr.trained = true → partnerOk s.dev p tr = true →
      exec (.portTrainingComplete p tr) s = .next { s with dev := { s.dev with tth := { s.dev.tth with
        ports := modAt (fun _ => { q with state := .up, rate := max q.rate tr.rate, lanes := 15
                                          partner := if q.dir < 4 then some (tr.x, tr.y) else none }) p s.dev.tth.ports } } }) ∧
    (s.dev.tth.ports[p]? = some q → q.state = .training → (tr.trained = false ∨ partnerOk s.dev p tr = false) →
      ∃ d, exec (.portTrainingComplete p tr) s = .next { s with dev := d } ∧ d.evt.fseq = s.dev.evt.fseq + 1 ∧
        ReportsOnly { s.dev with tth := { s.dev.tth with ports := modAt (fun _ => { q with state := .down }) p s.dev.tth.ports } } d) ∧
    (s.dev.tth.ports[p]? = some q → q.state ≠ .training → exec (.portTrainingComplete p tr) s = .next s) ∧
    (h.dstNode ≠ s.dev.tth.self → isSafe s.dev = false → hcrcOk h = true → meshOut s.dev h.dstNode (decide (2 ≤ h.vc)) = some (ps, e) →
      ∃ d m, exec (.meshTransit h data) s = .next { s with dev := d } ∧ d.tth.out = s.dev.tth.out ++ [m] ∧
        m.port = member ps h.srcNode h.dstNode ∧ m.data = data ∧ m.hdr = (if e && h.vc < 2 then sealHdr { h with vc := h.vc + 2 } else h) ∧
        d = { s.dev with tth := { s.dev.tth with out := d.tth.out, escape := if e && h.vc < 2 then satAdd s.dev.tth.escape 1 else s.dev.tth.escape } }) ∧
    (h.dstNode ≠ s.dev.tth.self → isSafe s.dev = false → (hcrcOk h = false ∨ 4 ≤ h.opc ∧ meshOut s.dev h.dstNode (decide (2 ≤ h.vc)) = none) →
      exec (.meshTransit h data) s = .next { s with dev := { s.dev with tth := { s.dev.tth with rejOther := satAdd s.dev.tth.rejOther 1 } } }) ∧
    (h.dstNode ≠ s.dev.tth.self → isSafe s.dev = false → hcrcOk h = true → h.opc < 4 → meshOut s.dev h.dstNode (decide (2 ≤ h.vc)) = none →
      ∃ d, exec (.meshTransit h data) s = .next { s with dev := d } ∧ Answers s.dev d 16 h 10 7 [] ∧ d = { s.dev with tth := d.tth }) ∧
    ((h.dstNode = s.dev.tth.self ∨ isSafe s.dev = true) → exec (.meshTransit h data) s = .next s) ∧
    ((s.dev.tth.ports[p]?).map portUp = some true →
      ∃ d, exec (.linkReplay p) s = .next { s with dev := d } ∧ d.tth = { s.dev.tth with retry := satAdd s.dev.tth.retry 1 } ∧
        d = { s.dev with tth := d.tth, integ := { s.dev.integ with buckets := d.integ.buckets, bktOvf := d.integ.bktOvf }
                         evt := { s.dev.evt with fseq := d.evt.fseq, wait := d.evt.wait }, irq := d.irq }) ∧
    ((s.dev.tth.ports[p]?).map portUp ≠ some true → exec (.linkReplay p) s = .next s) ∧
    (lane < 64 → s.dev.tth.ports[lane / 4]? = some q → q.state = .up → q.lanes.getLsbD (lane % 4) = true → q.dir < 4 →
        spareFor s.dev 9 q.dir = true → free = true → trains = true →
      ∃ d q', exec (.laneFailure lane trains free) s = .next { s with dev := d } ∧ d.tth.ports[lane / 4]? = some q' ∧
        q' = { q with ballast := true, lanes := q.lanes &&& ~~~(BitVec.ofNat 4 (2 ^ (lane % 4))) } ∧
        (∀ k, k ≠ lane / 4 → d.tth.ports[k]? = s.dev.tth.ports[k]?) ∧ siteOf d 9 lane = ballastSite s.dev 9 q.dir ∧
        d.tth.lswap = satAdd s.dev.tth.lswap 1 ∧ d.integ.balLanes = modAt (fun _ => false) q.dir s.dev.integ.balLanes ∧
        d.evt.fseq = s.dev.evt.fseq + 1 ∧
        d = { s.dev with tth := d.tth, integ := d.integ, hly := d.hly, evt := d.evt, irq := d.irq, host := d.host }) ∧
    (lane < 64 → s.dev.tth.ports[lane / 4]? = some q → q.state = .up → q.lanes.getLsbD (lane % 4) = true →
        (4 ≤ q.dir ∨ spareFor s.dev 9 q.dir = false ∨ free = false ∨ trains = false) →
      ∃ d q', exec (.laneFailure lane trains free) s = .next { s with dev := d } ∧ d.tth.ports[lane / 4]? = some q' ∧ q'.state = .down ∧
        (∀ k, k ≠ lane / 4 → d.tth.ports[k]? = s.dev.tth.ports[k]?) ∧
        (q.dir < 4 → spareFor s.dev 9 q.dir = true → free = true →
          d.integ.balLanes = modAt (fun _ => false) q.dir s.dev.integ.balLanes ∧ q.dir ∈ d.tth.notices)) ∧
    (lane < 64 → s.dev.tth.ports[lane / 4]? = some q → (q.state ≠ .up ∨ q.lanes.getLsbD (lane % 4) = false) →
      exec (.laneFailure lane trains free) s = .next s) ∧
    (dir < 4 → s.dev.tth.ports.findIdx? (fun q => q.dir = dir && q.ballast && q.state = .up) = some p →
      ∃ d q', exec (.laneFailure (64 + dir) trains free) s = .next { s with dev := d } ∧ d.tth.ports[p]? = some q' ∧ q'.state = .down ∧
        q'.ballast = false ∧ (∀ k, k ≠ p → d.tth.ports[k]? = s.dev.tth.ports[k]?)) ∧
    (dir < 4 → s.dev.tth.ports.findIdx? (fun q => q.dir = dir && q.ballast && q.state = .up) = none → spareFor s.dev 9 dir = true →
      ∃ d, exec (.laneFailure (64 + dir) trains free) s = .next { s with dev := d } ∧ dir ∈ d.tth.notices ∧
        d.integ.balLanes = modAt (fun _ => false) dir s.dev.integ.balLanes ∧ d.evt.fseq = s.dev.evt.fseq + 1) ∧
    (s.dev.tth.ports[p]? = some q → (q.state = .up ∨ q.state = .swapping) →
      ∃ d, exec (.partnerGone p) s = .next { s with dev := d } ∧ d.evt.fseq = s.dev.evt.fseq + 1 ∧
        ReportsOnly { s.dev with tth := { s.dev.tth with ports := modAt (fun _ => { q with state := .down }) p s.dev.tth.ports } } d) ∧
    (s.dev.tth.ports[p]? = some q → q.state ≠ .up → q.state ≠ .swapping → exec (.partnerGone p) s = .next s) ∧
    (spareFor s.dev 9 dir = true →
      ∃ d, exec (.linkControlBallastNotice dir) s = .next { s with dev := d } ∧
        d.integ.balLanes = modAt (fun _ => false) dir s.dev.integ.balLanes ∧ d.evt.fseq = s.dev.evt.fseq + 1 ∧ d.tth = s.dev.tth ∧
        d = { s.dev with integ := d.integ, evt := d.evt }) ∧
    (spareFor s.dev 9 dir = false → exec (.linkControlBallastNotice dir) s = .next s)

/-- PATCH_POINT (06 R197, R199 to R201, R211 to R213, R217, R218). At its patch point a solve begins and the mark completes: without a posted patch STATUS
shows it, a patch for this solve is consumed and counted with its s and d, one at fault is rejected whole, counted, with a NOTE, a stale one is
discarded and counted. Without PERIOD the solve starts at once; with it, at its scheduled start, with LATE where that is past. A build that is due
makes the other slot current under the next PRE_GEN, or is abandoned, counted, where a check finds BUILD_DL passed.
SOLVE_SLOT and SOLVE_SCHEDULED_START (06 R200 to R202, R213, R218, R219; 10 R313; 11 R340). A slot that issues reaches its solve, which starts unless its
scheduled start lies ahead; a solve whose step has no patch point begins with PATCH_NONE; with the values or the structure lost the solve is skipped with
a contained data error. The first scheduled start fixes T0; one that comes starts the solve that has been reached, or is kept for it; without
PERIOD it does nothing. A slot that would write into a HELD copy waits.
SOLVE_STOP and HALO_TIMEOUT (06 R207 to R210, R214 to R220; 10 R313). A solve that has stopped writes the method's vectors, the solution and the record
off-tack, counts, and completes its slot; it has one ending bit and at most N_ITER iterations, a deadline ends it only from MIN_IT on, and no iterate noted has a
smaller norm than the one kept. It does not end before the halos of its products have arrived. A halo that is short at the deadline adds a
contained data error of cause 6. -/
def Obligations.SolverRuns : Prop :=
  (∀ (s : State) (id now seq t0 : Nat) (b : BuildIn) (r : Run) (sv : Solver) (x : PatchFx),
    s.dev.plan.run = some r → solverAt s.dev id = some sv →
    let bs := readResolved s.mem s.dev (patchBuf sv (sv.k % 2)) (patchBytes sv)
    let given := leNat ((bs.drop 20).take 4)
    let posted := (sv.posted[sv.k % 2]?).getD false
    let bare (n : Nat) : Nat := if n.testBit 11 then n - 2048 else n
    (sv.run = none → (patchMark s.dev r).1 = some seq → NoBadWords s.dev → readinessHeld s.dev = false →
      ∃ t q sv' y, exec (.patchPoint id now b) s = .next t ∧ t.pending = s.pending ∧ t.dev.plan.run = some q ∧ q.issued = r.issued ++ [seq] ∧
        seq ∈ q.done ∧ solverAt t.dev id = some sv' ∧ sv'.run = some y ∧ y.k = sv.k ∧ y.attempt = r.start ∧ sv'.k = sv.k ∧
        sv'.record = sv.record ∧ sv'.hdr = sv.hdr ∧
        (sv.record.period = 0 → y.start = some now ∧ y.sched = some now) ∧
        (sv.record.period ≠ 0 → sv.t0 = none → y.start = some now ∧ y.sched = some now ∧ sv'.t0 = some (now - sv.k * sv.record.period)) ∧
        (sv.record.period ≠ 0 → sv.t0 = some t0 → y.sched = some (t0 + sv.k * sv.record.period) ∧
          (now < t0 + sv.k * sv.record.period → sv.waiting = none → y.start = none) ∧
          (t0 + sv.k * sv.record.period < now → y.start = some now ∧ y.status.testBit 11 = true)) ∧
        (sv.patched = none → sv.record.precond = 0 →
          (posted = false → bare y.status = 512 ∧ t.dev.solv.patch = s.dev.solv.patch ∧ t.dev.solv.prej = s.dev.solv.prej) ∧
          (posted = true → sv.k < given → bare y.status = 512 ∧ sv'.posted = sv.posted) ∧
          (posted = true → given < sv.k → bare y.status = 512 ∧ sv'.posted = modAt (fun _ => false) (sv.k % 2) sv.posted ∧
            t.dev.solv.prej = satAdd s.dev.solv.prej 1) ∧
          (posted = true → given = sv.k → patchFx sv bs = some x → bare y.status = 0 ∧ sv'.s = x.s ∧ sv'.d = x.d ∧
            sv'.posted = modAt (fun _ => false) (sv.k % 2) sv.posted ∧ t.dev.solv.patch = satAdd s.dev.solv.patch 1) ∧
          (posted = true → given = sv.k → patchFx sv bs = none → bare y.status = 1024 ∧ sv'.s = sv.s ∧ sv'.d = sv.d ∧
            t.dev.solv.prej = satAdd s.dev.solv.prej 1)) ∧
        (sv.patched = some 0 → sv.valLost = false → 2 ≤ sv.record.precond → sv.record.prebuild = 1 →
          let late := (now :: b.checks).any fun t => decide (schedOf sv now + sv.record.buildDl < t)
          (late = true → sv'.slot = sv.slot ∧ sv'.preGen = sv.preGen ∧ y.status.testBit 6 = true ∧
            t.dev.solv.aband = satAdd s.dev.solv.aband 1) ∧
          (late = false → sv'.slot = some (otherSlot sv) ∧ sv'.preGen = (sv.preGen + 1) % 2 ^ 32 ∧ sv'.changed = false ∧
            t.dev.solv.aband = s.dev.solv.aband))) ∧
    ((sv.run ≠ none ∨ patchMark s.dev r = (none, false)) → exec (.patchPoint id now b) s = .next s)) ∧
  (∀ (s : State) (id now seq : Nat) (r : Run) (w : Slot) (sv : Solver) (v : Solve),
    let sid := (solveAt s.mem (r.addr + w.payload)).id
    let held (sv : Solver) : Bool := heldWrite s.dev (copyAt s.dev sv (solutionAt sv) true) (vecBytes sv) || heldWrite s.dev (copyAt s.dev sv (recordAt sv) true) 64
    (Issues s.dev seq 9 r w → solverAt s.dev sid = some sv → held sv = false → NoBadWords s.dev → sv.valLost = false → sv.strLost = false →
        sv.run = some v →
      ∃ d, exec (.solveSlot seq now) s = .next { s with dev := d } ∧ d.plan.run = some { r with issued := r.issued ++ [seq] } ∧
        solverAt d sid = some (solveReached now sv) ∧ d = { atTime now s.dev with plan := d.plan, solv := d.solv }) ∧
    (sv.run = some v → v.start ≠ none → solveReached now sv = sv) ∧
    (sv.run = some v → v.start = none → sv.record.period = 0 → v.sched = none →
      ∃ y, solveReached now sv = { sv with waiting := none, run := some y } ∧ y.start = some now ∧ y.sched = some now ∧ y.k = v.k ∧ y.pivs = v.pivs ∧
        y.attempt = v.attempt ∧ y.status = v.status) ∧
    (Issues s.dev seq 9 r w → solverAt s.dev sid = some sv → held sv = false → NoBadWords s.dev → sv.valLost = false → sv.strLost = false →
        sv.run = none →
      ∃ t sv' y, exec (.solveSlot seq now) s = .next t ∧ t.pending = s.pending ∧ solverAt t.dev sid = some sv' ∧ sv'.run = some y ∧ y.k = sv.k ∧
        y.status.testBit 9 = true ∧ sv'.slot = sv.slot ∧ sv'.preGen = sv.preGen ∧ ∀ q, t.dev.plan.run = some q → seq ∈ q.issued) ∧
    (Issues s.dev seq 9 r w → solverAt s.dev sid = some sv → held sv = false → NoBadWords s.dev → (sv.valLost = true ∨ sv.strLost = true) →
        readinessHeld s.dev = false →
      ∃ d q, exec (.solveSlot seq now) s = .next { s with dev := d } ∧ d.plan.run = some q ∧ CdeRaised 3 r q ∧ seq ∈ q.done ∧
        solverAt d sid = some { sv with run := none }) ∧
    (Issues s.dev seq 9 r w → solverAt s.dev sid = none → readinessHeld s.dev = false →
      ∃ d q, exec (.solveSlot seq now) s = .next { s with dev := d } ∧ d.plan.run = some q ∧ SlotDone r q seq) ∧
    (Issues s.dev seq 9 r w → solverAt s.dev sid = some sv → held sv = true →
      exec (.solveSlot seq now) s = .next { s with dev := holdSlot seq s.dev }) ∧
    (s.dev.plan.run = some r → solverAt s.dev id = some sv → sv.record.period = 0 → exec (.solveScheduledStart id now) s = .next s) ∧
    (s.dev.plan.run = some r → solverAt s.dev id = some sv → sv.record.period ≠ 0 →
      let t0 := if sv.t0 = none then some (now - sv.k * sv.record.period) else sv.t0
      ∃ d sv', exec (.solveScheduledStart id now) s = .next { s with dev := d } ∧ solverAt d id = some sv' ∧ d = { atTime now s.dev with solv := d.solv } ∧
        (sv.run = none → sv' = { sv with t0 := t0, waiting := if schedOf sv now ≤ now then some now else sv.waiting }) ∧
        (sv.run = some v → (v.start ≠ none ∨ now < v.sched.getD (schedOf sv now)) →
          sv' = { sv with t0 := t0, waiting := if schedOf sv now ≤ now then some now else sv.waiting }) ∧
        (∀ u, sv.run = some v → v.start = none → v.sched = some u → u ≤ now → ∃ y, sv' = { sv with t0 := t0, waiting := none, run := some y } ∧
          y.start = some now ∧ y.sched = some u ∧ y.k = v.k ∧ y.pivs = v.pivs ∧ y.status.testBit 11 = (v.status.testBit 11 || decide (u < now))))) ∧
  (∀ (s : State) (id n now : Nat) (e : SolveEnd) (r : Run) (sv : Solver) (v : Solve),
    s.dev.plan.run = some r → solverAt s.dev id = some sv → sv.run = some v →
    let out := runSolve sv v (sv.sys s.mem s.dev) (vecCodes s.mem s.dev sv (vecAt sv 1)) (netOf s.mem s.dev sv r.body e)
      (Config.nominalTimes sv.hdr.crc sv.record.method sv.record.precond) (e.ends.zipIdx.map fun t => (t.1, (e.flags[t.2]?).getD 0))
    let sol := copyAt s.dev sv (solutionAt sv) true
    let rec_ := copyAt s.dev sv (recordAt sv) true
    (∀ o j, v.start ≠ none → solveIssued s.mem r id = some j → NoBadWords s.dev → MemCanonical s → r.phase ≠ .between → readinessHeld s.dev = false →
        out = some o → (o.stop = 12 ∨ haloReady s.mem s.dev sv o.w.net.sent.length = true) →
      let best := (bestOrFree sv o.best s.dev).1.x
      ∃ t sv' q, exec (.solveStop id e) s = .next t ∧ t.pending = s.pending ∧ solverAt t.dev id = some sv' ∧
        sv' = { sv with offTack := true, run := none, sent := sv'.sent } ∧ t.dev.solv.done = satAdd s.dev.solv.done 1 ∧
        t.dev.solv.dlStop = satAdd s.dev.solv.dlStop (if o.stop = 2 then 1 else 0) ∧
        t.dev.solv.brk = satAdd s.dev.solv.brk (if o.stop = 4 ∨ o.stop = 5 then 1 else 0) ∧
        t.dev.solv.itLost = satAdd s.dev.solv.itLost (if o.stop = 2 then sv.record.nIter - o.iters else 0) ∧
        t.dev.solv.overrun = satAdd s.dev.solv.overrun (if v.sched.getD 0 + sv.record.deadline < e.now then 1 else 0) ∧
        (o.best ≠ none → t.dev.freeCtr = s.dev.freeCtr) ∧ t.dev.plan.run = some q ∧ j ∈ q.done ∧
        (∀ a, Outside s.dev ((workWrites sv o best).map (fun p => (p.1, p.2.length)) ++ [(sol, (codeBytes sv.hdr.w best).length), (rec_, 64)]) a →
          t.mem.get a = s.mem.get a) ∧
        (PlainWrites s.dev → ∃ st, t.mem.read rec_ 64 = leBytes 64 (resultWord sv v o e.now st (bestOrFree sv o.best s.dev).1))) ∧
    (∀ o, out = some o → 1 ≤ sv.record.nIter →
      o.iters ≤ sv.record.nIter ∧ o.stop ∈ [0, 1, 2, 4, 5, 12] ∧ (o.stop = 2 → sv.record.minIt ≤ o.iters) ∧ (o.stop = 0 → o.iters = sv.record.nIter) ∧
        ∀ y, o.best = some y → y.it ≤ o.iters) ∧
    (∀ y b z, noteIterate y b = some z →
      (finite64 y.norm = true → (fp64.decode y.norm).lt (fp64.decode z.norm) = false) ∧
        ∀ c, b = some c → (fp64.decode c.norm).lt (fp64.decode z.norm) = false) ∧
    ((v.start = none ∨ solveIssued s.mem r id = none ∨
        (NoBadWords s.dev ∧ (out = none ∨ ∃ o, out = some o ∧ o.stop ≠ 12 ∧ haloReady s.mem s.dev sv o.w.net.sent.length = false))) →
      exec (.solveStop id e) s = .next s) ∧
    (∀ j, v.start ≠ none → solveIssued s.mem r id = some j → r.phase ≠ .between → readinessHeld s.dev = false →
        ((badResolved s.dev sv.record.struct (structBytes sv.hdr)).isSome = true ∨ (badResolved s.dev sv.record.values (valuesBytes sv)).isSome = true ∨
          (badResolved s.dev sv.record.work (workBytes s.mem sv.record sv.hdr)).isSome = true) →
      ∃ d sv', exec (.solveStop id e) s = .next { s with dev := d } ∧ solverAt d id = some sv' ∧ sv'.run = none ∧
        ∀ q, d.plan.run = some q → j ∈ q.done) ∧
    (v.start ≠ none → v.sched.getD 0 + sv.record.deadline ≤ now → haloReady s.mem s.dev sv (n + 1) = false →
      ∃ d q, exec (.haloTimeout ⟨id, n, now⟩) s = .next { s with dev := d } ∧ d.plan.run = some q ∧ CdeRaised 6 r q ∧
        solverAt d id = some { sv with run := some { v with status := v.status ||| 4096 } } ∧
        d = { atTime now s.dev with plan := d.plan, solv := { s.dev.solv with solvers := d.solv.solvers }
                                    evt := { (atTime now s.dev).evt with fseq := s.dev.evt.fseq + 1 } }) ∧
    ((v.start = none ∨ now < v.sched.getD 0 + sv.record.deadline ∨ haloReady s.mem s.dev sv (n + 1) = true) →
      exec (.haloTimeout ⟨id, n, now⟩) s = .next s))

/-- ROOT_SLOT, ROOT_CHECK, REFRESH_ABANDON and PUBLICATION_POINT (05 R173, R176 to R180, R184, R185, R188; 11 R340). A ROOT slot completes, and a refresh that
waits takes its source copy once every block has a FREE buffer; the root formed from the source copy is written into its buffer, and is READY with its
step, residual and substitutions where it passes its check, else its buffer goes back to FREE, counted and reported by a NOTE; a block
whose work met a bad word of root scratch is not judged, and raises a contained data error; a refresh past its end is
abandoned, counted, with a NOTE, and the one due by then starts; the publication point writes descriptors alone and completes. -/
def Obligations.RootService : Prop :=
  ∀ (s : State) (seq id blk buf : Nat) (lost : Option Nat) (r : Run) (w : Slot) (u : RootSet) (f : Refresh),
    let sid := (rootAt s.mem (r.addr + w.payload)).id
    (Issues s.dev seq 8 r w → NoBadWords s.dev → readinessHeld s.dev = false →
      ∃ d q, exec (.rootSlot seq) s = .next { s with dev := d } ∧ d.plan.run = some q ∧ q.issued = r.issued ++ [seq] ∧ seq ∈ q.done ∧
        (∀ ws, setAt s.dev sid = some u → u.refresh = some f → f.src = none → freeBufs u = some ws →
          ∃ u' f', setAt d sid = some u' ∧ u'.refresh = some f' ∧ f' = { f with src := some r.step, copy := f'.copy, work := ws } ∧
            f'.copy.length = rootBlocks u.record ∧ u'.ready = u.ready) ∧
        (setAt s.dev sid = some u → (u.refresh = none ∨ freeBufs u = none ∨ (u.refresh.bind Refresh.src).isSome = true) →
          d = { s.dev with plan := d.plan })) ∧
    (∀ run, s.dev.plan.run = some run → setAt s.dev id = some u → u.refresh = some f → f.work.find? (fun y => y.1 = blk) = some (blk, buf) →
        NoBadWords s.dev → MemCanonical s →
      let x := rootForm s.mem run u.record f blk
      let bytes := x.x.flatten.flatMap (leBytes 4)
      let a := ((u.addrs[blk]?).getD [])[buf]?.getD 0
      let left := f.work.filter fun y => y.1 ≠ blk
      ∃ t u', exec (.rootCheck id blk lost) s = .next t ∧ t.pending = s.pending ∧ setAt t.dev id = some u' ∧
        t.mem.read a bytes.length = bytes ∧ (∀ k, (k < a ∨ a + bytes.length ≤ k) → t.mem.get k = s.mem.get k) ∧
        (u'.refresh = if left.isEmpty then none else some { f with work := left }) ∧
        (checkPasses x.resid u.record.theta = true →
          u'.ready = u.ready.filter (fun y => y.blk ≠ blk) ++ [⟨blk, buf, f.src.getD f.start, x.resid, x.pivs, false⟩] ∧
          ((u.bufs[blk]?).bind (·[buf]?) ≠ none → (u'.bufs[blk]?).bind (·[buf]?) = some .ready) ∧
          t.dev = { s.dev with curv := { s.dev.curv with sets := t.dev.curv.sets }, ecc := t.dev.ecc, cxl := t.dev.cxl }) ∧
        (checkPasses x.resid u.record.theta = false →
          u'.ready = u.ready ∧ t.dev.curv.rej = satAdd s.dev.curv.rej 1 ∧ t.dev.evt.fseq = s.dev.evt.fseq + 1 ∧
          ((u.bufs[blk]?).bind (·[buf]?) ≠ none → (u'.bufs[blk]?).bind (·[buf]?) = some .free) ∧
          t.dev = { s.dev with curv := { s.dev.curv with sets := t.dev.curv.sets, rej := t.dev.curv.rej }, ecc := t.dev.ecc, cxl := t.dev.cxl
                               evt := { s.dev.evt with fseq := t.dev.evt.fseq, wait := t.dev.evt.wait } })) ∧
    (setAt s.dev id = some u → u.refresh = some f → f.work.find? (fun y => y.1 = blk) = none →
      exec (.rootCheck id blk lost) s = .next s) ∧
    (∀ run a, s.dev.plan.run = some run → setAt s.dev id = some u → u.refresh = some f → f.work.find? (fun y => y.1 = blk) = some (blk, buf) →
        scratchBad s.dev a = true → tackAt s.dev a = none →
      ∃ d q, exec (.rootCheck id blk (some a)) s = .next { s with dev := d } ∧ d.plan.run = some q ∧ CdeRaised 3 run q ∧ setAt d id = some u ∧
        d.curv.scratchLost = true ∧ d.curv.sets = s.dev.curv.sets ∧ d.integ.ue = satAdd s.dev.integ.ue 1 ∧ d.evt.fseq = s.dev.evt.fseq + 1) ∧
    (setAt s.dev id = some u → u.refresh = some f → s.dev.plan.run = some r → f.ending = true → NoBadWords s.dev →
      ∃ d u', exec (.refreshAbandon id) s = .next { s with dev := d } ∧ d.curv.aband = satAdd s.dev.curv.aband 1 ∧
        s.dev.evt.fseq + 1 ≤ d.evt.fseq ∧ setAt d id = some u' ∧
        (u.started ≤ f.num + 2 → ∃ g, u'.refresh = some g ∧ g.num = f.num + 2 ∧ g.start = f.start + 2 * u.record.k ∧ g.ending = false ∧
          u'.started = f.num + 3) ∧
        (f.num + 2 < u.started → u'.refresh = none ∧ u'.started = u.started)) ∧
    (setAt s.dev id = some u → u.refresh = some f → f.ending = false → exec (.refreshAbandon id) s = .next s) ∧
    (Issues s.dev seq 7 r w → w.arg = 1 → NoBadWords s.dev → MemCanonical s → readinessHeld s.dev = false →
        (∀ y ∈ s.dev.curv.sets, heldWrite s.dev y.record.desc (64 * rootBlocks y.record) = false) →
      ∃ t q, exec (.publicationPoint seq) s = .next t ∧ t.pending = s.pending ∧ t.dev.plan.run = some q ∧ q.issued = r.issued ++ [seq] ∧
        seq ∈ q.done ∧ t.dev.curv.pub = s.dev.curv.pub ∧
        (∀ a, Outside s.dev (s.dev.curv.sets.flatMap fun y => (List.range (rootBlocks y.record)).map fun k => (descAddr y.record k, 64)) a →
          t.mem.get a = s.mem.get a) ∧
        (∀ y ∈ t.dev.curv.sets, ∀ z ∈ y.ready, z.published = true)) ∧
    (Issues s.dev seq 7 r w → w.arg = 1 → (∃ y ∈ s.dev.curv.sets, heldWrite s.dev y.record.desc (64 * rootBlocks y.record) = true) →
      exec (.publicationPoint seq) s = .next { s with dev := holdSlot seq s.dev })

/-- VERDICT_POINT, VOTE_CAST, VOTES_GATHERED and VOTE_DEADLINE (10 R310, R312 to R314, R316, R318). The verdict point evaluates every limit into the chip's
vote; a ready chip casts it with the lowest cause it has; D is COMMIT when every vote is present, agrees and carries no cause, and SKIP otherwise, so
that a missing vote is a SKIP; before its time each of them changes nothing but the watch time. An attempt that a watchdog or a contingency event has cut short goes to its verdict at once. -/
def Obligations.VotesFormADecision : Prop :=
  ∀ (s : State) (now : Nat) (r : Run) (k : Slot),
    let d0 := atTime now s.dev
    let finds := r.body.limits.map fun l => (l.tensor, limitFinds s.mem s.dev l)
    let nonfin := finds.any fun f => f.2.1
    let absurd := finds.any fun f => f.2.2
    let first := ((finds.find? fun f => f.2.1 || f.2.2).map Prod.fst).getD 0xFFFF
    let vs := votesHeld s.mem s.dev r
    let own := leNat ((s.dev.vrd.vote).getD [])
    let low := (((bits own 783 780 :: r.cde).filter fun x => x ≠ 0).min?).getD 0
    let clean := (∀ j < r.body.nRank, ∃ v ∈ vs, v.1 = j) ∧ (∀ v ∈ vs, voteCauses own v.2 v.1 = []) ∧
      (∀ v ∈ vs, ∀ y ∈ vs, digestsDiffer v.2 y.2 = false)
    (s.dev.plan.run = some r → r.phase = .running → cutShort r = false → verdictMark r = some k → slotReady d0 r k = true →
        otherFirst d0 r k = false → sweepDue s.dev r.step = false → NoBadWords s.dev →
      ∃ d q, exec (.verdictPoint now) s = .next { s with dev := d } ∧ d.plan.run = some q ∧ q.phase = .atVerdict ∧
        q.issued = r.issued ++ [k.seq] ∧ k.seq ∈ q.done ∧ q.cde = r.cde ∧ d.vrd.vpTime = d0.dbg.now ∧
        d.vrd.vote = some (leBytes 128 (voteWord s.dev r first (if nonfin then 1 else if absurd then 2 else 0) nonfin absurd false)) ∧
        d = { d0 with plan := d.plan, vrd := d.vrd }) ∧
    (s.dev.plan.run = some r → r.phase = .running → cutShort r = false → verdictMark r = some k →
        (slotReady d0 r k = false ∨ otherFirst d0 r k = true) →
      exec (.verdictPoint now) s = .next { s with dev := d0 }) ∧
    (s.dev.plan.run = some r → (r.phase = .running ∨ r.phase = .permuting) → cutShort r = true → NoBadWords s.dev →
      ∃ d q, exec (.verdictPoint now) s = .next { s with dev := d } ∧ d.plan.run = some q ∧ q = { r with phase := .atVerdict } ∧
        d.vrd.vpTime = d0.dbg.now ∧ d = { d0 with plan := d.plan, vrd := d.vrd }) ∧
    (s.dev.plan.run = some r → r.phase ≠ .running → (r.phase ≠ .permuting ∨ cutShort r = false) → exec (.verdictPoint now) s = .next s) ∧
    (s.dev.plan.run = some r → r.phase = .atVerdict → voteReady s.dev r = true → (∀ x ∈ r.cde, x ≠ 0) →
      ∃ d q, exec (.voteCast now) s = .next { s with dev := d } ∧ d.plan.run = some q ∧ q.phase = .voted ∧ q.issued = r.issued ∧ q.step = r.step ∧
        d.vrd.vote = some (sealRecord 128 (own - bits own 783 780 * 2 ^ 780 + low * 2 ^ 780 + if r.cde = [] then 0 else 2 ^ 777)) ∧
        d.dbg.now = max now s.dev.dbg.now ∧ d.vrd.d = s.dev.vrd.d) ∧
    (s.dev.plan.run = some r → (r.phase ≠ .atVerdict ∨ voteReady s.dev r = false) → exec (.voteCast now) s = .next s) ∧
    (s.dev.plan.run = some r → r.phase = .voted → r.body.nRank ≤ (s.dev.tth.cur.get r.body.verdict.voteT).toNat + 1 →
      ∃ d q y, exec (.votesGathered now) s = .next { s with dev := d } ∧ d.plan.run = some q ∧ q.phase = .sealed ∧ d.vrd.d = some y ∧
        (y.1 = true ↔ clean) ∧ (clean → y = (true, 0, 0xFFFF)) ∧ d.vrd.sentTime = max now s.dev.dbg.now) ∧
    (s.dev.plan.run = some r → r.phase = .voted → (s.dev.tth.cur.get r.body.verdict.voteT).toNat + 1 < r.body.nRank →
      exec (.votesGathered now) s = .next s) ∧
    (s.dev.plan.run = some r → r.phase = .voted → r.startTime + r.hdr.stepTo + r.body.verdict.grace ≤ now → (∃ j < r.body.nRank, ∀ v ∈ vs, v.1 ≠ j) →
      ∃ d q y, exec (.voteDeadline now) s = .next { s with dev := d } ∧ d.plan.run = some q ∧ q.phase = .sealed ∧ d.vrd.d = some y ∧ y.1 = false ∧
        y.2.1 ≤ 9 ∧
        d.vrd.missing = satAdd s.dev.vrd.missing ((List.range r.body.nRank).filter fun j => !vs.any fun v => v.1 = j).length) ∧
    (s.dev.plan.run = some r → r.phase ≠ .voted → exec (.voteDeadline now) s = .next s)

/-- SEALS_GATHERED, SEAL_TIMEOUT, RECONCILE_GATHERED and RECONCILE_TIMEOUT (10 R318 to R320, R322 to R324, R333). With every seal a COMMIT the step commits: one more
commit, the next step index, attempt 0; with any seal a SKIP the attempt is skipped: one more skip, the same step index, one more attempt unless the
plan stops. A seal missing at SEAL_TO puts the chip in reconcile with the lowest missing rank or below as its suspect. Survivors that name another
suspect, or a record missing at SEAL_TO, stop the plan; FINAL_COMMIT among them commits the step. -/
def Obligations.VerdictIsFinal : Prop :=
  ∀ (s : State) (now c0 k0 c u : Nat) (own : Bool) (fin : Option Bool) (r : Run),
    let lack := (peers r).filter fun k => (sealOf s.mem s.dev r k).isNone
    let allSeals := s.dev.plan.run = some r ∧ r.phase = .sealed ∧ s.dev.vrd.d = some (own, c0, k0) ∧
      r.body.nRank ≤ (s.dev.tth.cur.get r.body.verdict.sealT).toNat + 1 ∧ lack = []
    let commits := own = true ∧ ∀ k ∈ peers r, ∀ w, sealOf s.mem s.dev r k = some w → bits w 431 429 = 1
    let inRecon := s.dev.plan.run = some r ∧ s.dev.vrd.suspect = some u ∧ s.dev.vrd.recAttempt = some (c, fin) ∧ r.phase = .reconcile
    let others := (peers r).filter fun k => k ≠ u
    (allSeals → commits →
      ∃ t q, exec (.sealsGathered now) s = .next t ∧ t.pending = s.pending ∧ t.dev.plan.run = some q ∧ q.step = r.step + 1 ∧ q.attempt = 0 ∧
        q.phase = .committed ∧ t.dev.vrd.lastDec = 1 ∧ t.dev.vrd.commits = satAdd s.dev.vrd.commits 1 ∧ t.dev.vrd.skips = s.dev.vrd.skips ∧
        t.dev.vrd.final = some (r.start, true)) ∧
    (allSeals → ¬ commits →
      ∃ t, exec (.sealsGathered now) s = .next t ∧ t.pending = s.pending ∧ t.dev.vrd.lastDec = 2 ∧
        t.dev.vrd.commits = s.dev.vrd.commits ∧ t.dev.vrd.skips = satAdd s.dev.vrd.skips 1 ∧
        (∀ q, t.dev.plan.run = some q → q.step = r.step ∧ q.attempt = r.attempt + 1 ∧ q.phase = .between)) ∧
    (s.dev.plan.run = some r → s.dev.vrd.d = some (own, c0, k0) → r.phase = .sealed → lack ≠ [] → exec (.sealsGathered now) s = .next s) ∧
    (s.dev.plan.run = some r → r.phase = .sealed → lack ≠ [] → s.dev.vrd.sentTime + r.body.verdict.sealTo ≤ now →
      ∃ d q k, exec (.sealTimeout now) s = .next { s with dev := d } ∧ d.plan.run = some q ∧ q.phase = .reconcile ∧ q.step = r.step ∧
        q.lost = some k ∧ d.vrd.suspect = some k ∧ (∀ j ∈ lack, k ≤ j) ∧ d.vrd.recon = satAdd s.dev.vrd.recon 1) ∧
    (s.dev.plan.run = some r → r.phase = .sealed → (lack = [] ∨ max now s.dev.dbg.now < s.dev.vrd.sentTime + r.body.verdict.sealTo) →
      exec (.sealTimeout now) s = .next s) ∧
    (inRecon → (∀ k ∈ others, (reconOf s.mem s.dev r k c).isSome = true) →
        (∃ k ∈ others, ∃ w, reconOf s.mem s.dev r k c = some w ∧ bits w 408 393 ≠ u) →
      ∃ d, exec (.reconcileGathered now) s = .next { s with dev := d } ∧ d.plan.run = none) ∧
    (inRecon → fin = none → isCurrent r c = true → r.pendVar ≠ none →
        (∀ k ∈ others, ∃ w, reconOf s.mem s.dev r k c = some w ∧ bits w 408 393 = u) →
        (∃ k ∈ others, ∃ w, reconOf s.mem s.dev r k c = some w ∧ bits w 431 429 = 3) →
      ∃ t q, exec (.reconcileGathered now) s = .next t ∧ t.pending = s.pending ∧ t.dev.plan.run = some q ∧ q.step = r.step + 1 ∧
        q.phase = .committed ∧ t.dev.vrd.lastDec = 1 ∧ t.dev.vrd.suspect = none ∧ t.dev.vrd.recAttempt = none) ∧
    (inRecon → fin = none → isCurrent r c = true → r.pendVar ≠ none → r.tackLost = none →
        (∀ k ∈ others, ∃ w, reconOf s.mem s.dev r k c = some w ∧ bits w 408 393 = u ∧ bits w 431 429 ≠ 3) →
      ∃ t q, exec (.reconcileGathered now) s = .next t ∧ t.pending = s.pending ∧ t.dev.plan.run = some q ∧ q.step = r.step ∧
        q.attempt = r.attempt + 1 ∧ q.phase = .between ∧ t.dev.vrd.lastDec = 2 ∧ t.dev.vrd.suspect = none ∧ t.dev.vrd.recAttempt = none) ∧
    (∀ f, inRecon → fin = some f → r.pendVar ≠ none → (∀ k ∈ others, ∃ w, reconOf s.mem s.dev r k c = some w ∧ bits w 408 393 = u) →
      ∃ t q, exec (.reconcileGathered now) s = .next t ∧ t.pending = s.pending ∧ t.mem = s.mem ∧ t.dev.plan.run = some q ∧ q.step = r.step ∧
        t.dev.vrd.suspect = none ∧ (isCurrent r c = true → f = true → q.phase = .committed ∧ q.start = r.start) ∧
        (isCurrent r c = false → q.phase = .between ∧ q.start = c ∧ t.dev.tth.nxt = s.dev.tth.cur ∧ t.dev.tth.cur = [])) ∧
    (inRecon → r.pendVar = none → (∀ k ∈ others, (reconOf s.mem s.dev r k c).isSome = true) →
      ∃ t, exec (.reconcileGathered now) s = .next t ∧ t.pending = s.pending ∧ t.dev.plan.run = none) ∧
    (inRecon → (∃ k ∈ others, reconOf s.mem s.dev r k c = none) → exec (.reconcileGathered now) s = .next s) ∧
    (inRecon → (∃ k ∈ others, reconOf s.mem s.dev r k c = none) → s.dev.vrd.sentTime + r.body.verdict.sealTo ≤ now →
      ∃ d, exec (.reconcileTimeout now) s = .next { s with dev := d } ∧ d.plan.run = none) ∧
    (inRecon → (∀ k ∈ others, (reconOf s.mem s.dev r k c).isSome = true) → exec (.reconcileTimeout now) s = .next s)

/-- SNAPSHOT_COMPLETE, INTERVAL_COMPUTE and SWEEP_COMPLETE (08 R264; R267; 11 R343, R345, R347, R348). On a chip with a way to rank 0, a host slot that is acknowledged holds the
image and, in its last 64 bytes, the commit record; a snapshot whose every target is complete is recorded in CRW_SNAP_LAST and counted; one
whose target did not take every byte is abandoned there and counted, and CRW_SNAP_LAST stays; the cost is kept. Rank 0 averages the largest cost of the
reports for its own report's DATA_STEP by quarters; another rank, or one without its own report, does nothing. The writes of a running sweep
are acknowledged: with every piece written it awaits its flip, and what readiness waited for is not repeated. -/
def Obligations.SnapshotsAndSweeps : Prop :=
  ∀ (s : State) (c : SnapCost) (x : Drain) (r : Run) (base len g : Nat) (v : IntervalIn) (own : Nat) (shard : Nat),
    let sb := r.body.tack.slotBytes
    let a := base + x.slot * sb
    let reach : Prop := outPort s.dev (hopOf r 0) 265 ≠ none
    let copies := s.dev.tack.copies.map fun y => (releaseCopy y.1, releaseCopy y.2)
    let reports := (List.range r.body.nRank).filterMap fun k =>
      (snapRecord s.mem s.dev r.body.tack.area k 1).bind fun w =>
        if bits w 507 492 = k ∧ bits w 491 428 = bits own 491 428 then some (bits w 427 364) else none
    let most := reports.foldl max 0
    (s.dev.plan.run = some r → s.dev.snap.drain = some x → drainBad s.dev x = none → r.body.tack.tgt = 4 → x.aborted = 0 → x.ok = 0 →
        r.body.self ≠ 0 → reach → bit c.ok 2 = true → s.dev.snap.host = some (base, len, g) → (x.slot + 1) * sb ≤ len →
      ∃ d, exec (.snapshotComplete c) s = .next { s with dev := d } ∧ d.snap.drain = none ∧ d.snap.last = some x.step ∧
        d.snap.done = satAdd s.dev.snap.done 1 ∧ d.snap.abort = s.dev.snap.abort ∧ d.snap.cost = min (x.cost / 100) ctrMax ∧
        d.host = (s.dev.host.write a (x.image.read 0 x.used)).write (a + sb - 64)
          (commitRecord x.step (x.image.read 0 (256 + 32 * x.items.length))) ∧
        d.vrd.sha = (if r.body.digests = [] then s.dev.vrd.sha else some (x.step, c.sha)) ∧ d.tack = { s.dev.tack with copies := copies, waits := [] } ∧
        d = { s.dev with snap := d.snap, host := d.host, vrd := { s.dev.vrd with sha := d.vrd.sha }, tack := d.tack, curv := d.curv, tth := d.tth, plan := d.plan }) ∧
    (s.dev.plan.run = some r → s.dev.snap.drain = some x → drainBad s.dev x = none → r.body.tack.tgt = 4 → x.aborted = 0 → x.ok = 0 →
        r.body.self ≠ 0 → reach → (bit c.ok 2 = false ∨ s.dev.snap.host = none ∨ s.dev.snap.host = some (base, len, g) ∧ len < (x.slot + 1) * sb) →
      ∃ d, exec (.snapshotComplete c) s = .next { s with dev := d } ∧ d.snap.drain = none ∧ d.snap.last = s.dev.snap.last ∧
        d.snap.done = s.dev.snap.done ∧ d.snap.abort = satAdd s.dev.snap.abort 1 ∧ d.evt.fseq = s.dev.evt.fseq + 1 ∧
        d.tack = { s.dev.tack with copies := copies, waits := [] }) ∧
    (s.dev.plan.run = some r → s.dev.snap.drain = some x → drainBad s.dev x = none → r.body.tack.tgt = 1 → x.aborted = 0 → x.ok = 0 →
        r.body.self ≠ 0 → bit c.ok 0 = true → x.sentG = x.used → x.used + 64 ≤ sb → NoBadWords s.dev → MemCanonical s →
        backed s.dev (r.body.tack.gonBase + x.slot * sb + x.used) = true → backed s.dev (r.body.tack.gonBase + x.slot * sb + x.used - 1) = true →
      ∃ t, exec (.snapshotComplete c) s = .next t ∧ t.pending = s.pending ∧ t.dev.snap.drain = none ∧ t.dev.snap.last = some x.step ∧
        t.dev.snap.done = satAdd s.dev.snap.done 1 ∧
        t.mem.read (r.body.tack.gonBase + x.slot * sb + sb - 64) 64 = commitRecord x.step (x.image.read 0 (256 + 32 * x.items.length)) ∧
        (∀ k, (k < r.body.tack.gonBase + x.slot * sb + sb - 64 ∨ r.body.tack.gonBase + x.slot * sb + sb ≤ k) → t.mem.get k = s.mem.get k)) ∧
    (s.dev.plan.run = some r → s.dev.snap.drain = none → exec (.snapshotComplete c) s = .next s) ∧
    (s.dev.plan.run = some r → r.body.self = 0 → snapRecord s.mem s.dev r.body.tack.area 0 1 = some own → NoBadWords s.dev → MemCanonical s →
        (r.body.nRank ≤ reports.length ∨ s.dev.snap.drain.any (fun y => decide (bits own 491 428 < y.step)) = true) →
      ∃ t, exec (.intervalCompute v) s = .next t ∧ t.pending = s.pending ∧ t.dev.snap.costKnown = true ∧
        t.dev.snap.cost = min ctrMax (if s.dev.snap.costKnown then (3 * s.dev.snap.cost + most) / 4 else most) ∧
        t.dev.dbg = { s.dev.dbg with now := max s.dev.dbg.now v.now } ∧ (∃ q, t.dev.plan.run = some q ∧ q.step = r.step) ∧ t.dev.snap.drain = s.dev.snap.drain ∧
        t.dev.snap.next = s.dev.snap.next ∧ t.dev.snap.interval = s.dev.snap.interval ∧
        (∀ k, (k < r.body.tack.area + 128 * r.body.nRank ∨ r.body.tack.area + 128 * r.body.nRank + 64 ≤ k) → t.mem.get k = s.mem.get k)) ∧
    (s.dev.plan.run = some r → (r.body.self ≠ 0 ∨ snapRecord s.mem s.dev r.body.tack.area 0 1 = none) → exec (.intervalCompute v) s = .next s) ∧
    (s.dev.plan.run = some r → r.body.self = 0 → snapRecord s.mem s.dev r.body.tack.area 0 1 = some own → reports.length < r.body.nRank →
        s.dev.snap.drain.any (fun y => decide (bits own 491 428 < y.step)) = false →
      exec (.intervalCompute v) s = .next { s with dev := atTime v.now s.dev }) ∧
    (sweepWhole s.dev shard = false → exec (.sweepComplete shard) s = .next s) ∧
    (sweepWhole s.dev shard = true →
      let sweeps := s.dev.tack.sweeps.map fun y => if y.1 = shard ∧ y.2.2 = 0 then (y.1, y.2.1, 1) else y
      ∃ d, exec (.sweepComplete shard) s = .next { s with dev := d } ∧ d.tack = { s.dev.tack with sweeps := sweeps } ∧
        d = { s.dev with tack := d.tack, plan := d.plan } ∧ (readinessHeld s.dev = false → d.plan = s.dev.plan) ∧
        (readinessHeld { s.dev with tack := d.tack } = true → d.plan = s.dev.plan) ∧
        (readinessHeld s.dev = true → readinessHeld { s.dev with tack := d.tack } = false → s.dev.plan.run = some r →
          ∃ q, d.plan.run = some q ∧ q = { r with issued := q.issued, done := q.done } ∧ (∀ k ∈ r.sweepSlots, k ∈ q.issued) ∧
            (∀ k ∈ r.issued, k ∈ q.issued) ∧ ∀ k ∈ r.done, k ∈ q.done))

/-- INVENTORY_COMPLETE, INVENTORY_TIMEOUT and PERMUTATION_COMPLETE (11 R351, R355, R356). With every survivor's record present the largest step index that
every rank of the old layout holds is taken, and with none the plan stops; a record missing keeps the chip waiting, and at the
timeout the plan stops. The end of the permuting collective runs the plan; after a chip loss it sets every selector to 0, the step index to the one
found, FAILS one higher and the step lengths empty. -/
def Obligations.LossRecovery : Prop :=
  ∀ (s : State) (r : Run) (old : PlanBody) (hosts : List (Nat × Nat)) (u : Nat),
    let invs := (List.range r.body.nRank).filterMap fun k => (inventoryOf s.mem s.dev r k).map fun w => (k, w)
    let due := ((permTable s.mem r).filter fun e => e.kind = 3 && e.dstRank = r.body.self).length
    let sent : Prop := r.permSig = [] ∧ permAwait s.mem r ≤ (s.dev.tth.cur.get r.body.verdict.recT).toNat
    (s.dev.plan.run = some r → r.prev = some old → r.phase = .permuting → r.rewind = none → r.lost ≠ none → invs.length = r.body.nRank →
        commonStep old r.body invs hosts = some u → permTable s.mem r = [] →
      exec (.inventoryComplete hosts) s = .next { s with dev := { s.dev with plan := { s.dev.plan with run := some { r with rewind := some u, permSig := [] } } } }) ∧
    (s.dev.plan.run = some r → r.prev = some old → r.phase = .permuting → r.rewind = none → r.lost ≠ none → invs.length = r.body.nRank →
        commonStep old r.body invs hosts = some u → NoBadWords s.dev →
      ∃ t q, exec (.inventoryComplete hosts) s = .next t ∧ t.pending = s.pending ∧ t.dev.plan.run = some q ∧ q.rewind = some u ∧ q.phase = .permuting ∧
        q.step = r.step) ∧
    (s.dev.plan.run = some r → r.prev = some old → r.phase = .permuting → r.rewind = none → r.lost ≠ none → invs.length = r.body.nRank →
        commonStep old r.body invs hosts = none →
      ∃ d, exec (.inventoryComplete hosts) s = .next { s with dev := d } ∧ d.plan.run = none) ∧
    (s.dev.plan.run = some r → invs.length < r.body.nRank → exec (.inventoryComplete hosts) s = .next s) ∧
    (s.dev.plan.run = some r → r.phase = .permuting → r.rewind = none → r.lost ≠ none →
      ∃ d, exec .inventoryTimeout s = .next { s with dev := d } ∧ d.plan.run = none) ∧
    (s.dev.plan.run = some r → (r.phase ≠ .permuting ∨ r.rewind ≠ none ∨ r.lost = none) → exec .inventoryTimeout s = .next s) ∧
    (s.dev.plan.run = some r → r.phase = .permuting → due ≤ s.dev.plan.permHost → r.rewind = none → r.lost = none → sent →
      exec .permutationComplete s = .next { s with dev := { s.dev with plan := { s.dev.plan with
        run := some { r with phase := .running, rewind := none, prev := none, prevSel := [], ent := none, lost := none } } } }) ∧
    (s.dev.plan.run = some r → r.phase = .permuting → due ≤ s.dev.plan.permHost → r.rewind = some u → sent →
      ∃ t q, exec .permutationComplete s = .next t ∧ t.pending = s.pending ∧ t.dev.plan.run = some q ∧ q.phase = .running ∧ q.step = u ∧
        q.attempt = 0 ∧ q.rewind = none ∧ q.lost = none ∧ t.dev.snap.fails = s.dev.snap.fails + 1 ∧ t.dev.snap.lens = [] ∧
        t.dev.snap.restore = satAdd s.dev.snap.restore 1 ∧ t.dev.tack.sel = List.replicate r.body.tacks.length false ∧
        t.dev.tack.copies = List.replicate r.body.tacks.length (.current, .off)) ∧
    (s.dev.plan.run = some r → (r.phase ≠ .permuting ∨ s.dev.plan.permHost < due ∨ (r.lost ≠ none ∧ r.rewind = none) ∨ ¬ sent) →
      exec .permutationComplete s = .next s)

/-- GONDOLA_DEVICE_PRESENCE, BAY_TRAINING_COMPLETE and BAY_DRAIN_COMPLETE (08 R255, R258, R259). A device takes the lowest EMPTY bay into
TRAINING, waits latched behind a DRAINING bay, or is not enumerated, with a NOTE; a trained bay is ONLINE, a failed one EMPTY again; a
drained bay is EMPTY with its contents gone, or trains the latched device. Each change is counted and reported; a bay in another state stays. -/
def Obligations.BayLifeCycle : Prop :=
  ∀ (s : State) (v : CxlDev) (b : Nat) (y : Bay),
    let blank := s.mem.zero (gonBase b) 0x20000000000
    let clean := { s.dev.ecc with gonLost := cutRanges s.dev.ecc.gonLost [(gonBase b, 0x20000000000)] }
    (v.bay = none → s.dev.gon.bays.findIdx? (fun k => k.state = .empty) = some b →
      exec (.gondolaDevicePresence v) s = .next { s with dev := { s.dev with gon := { s.dev.gon with
        bays := modAt (fun k => { k with
          state := .training, switched := v.switched, linkW := v.linkW, gen := v.gen, devCap := min 8192 (v.capBytes / unit256)
          cap := 0, tmo := 0 }) b s.dev.gon.bays } } }) ∧
    (v.bay = some b → s.dev.gon.bays[b]? = some y → y.state = .draining →
      exec (.gondolaDevicePresence v) s = .next { s with dev := { s.dev with gon := { s.dev.gon with
        bays := modAt (fun k => { k with restPend := some v, restShow := true }) b s.dev.gon.bays } } }) ∧
    (v.bay = some b → s.dev.gon.bays[b]? = some y → y.state ≠ .draining → exec (.gondolaDevicePresence v) s = .next s) ∧
    (v.bay = none → (∀ k ∈ s.dev.gon.bays, k.state ≠ .empty) →
      ∃ d, exec (.gondolaDevicePresence v) s = .next { s with dev := d } ∧ ReportsOnly s.dev d ∧ d.evt.fseq = s.dev.evt.fseq + 1) ∧
    (s.dev.gon.bays[b]? = some y → y.state = .training →
      ∃ d y', exec (.bayTrainingComplete b true) s = .next { s with dev := d } ∧ d.gon.bays[b]? = some y' ∧ y'.state = .online ∧
        y'.devCap = y.devCap ∧ y'.cap ≤ y.devCap ∧ y'.linkW = y.linkW ∧ y'.gen = y.gen ∧ y'.restShow = false ∧
        d.gon.bays.map Bay.state = modAt (fun _ => .online) b (s.dev.gon.bays.map Bay.state) ∧
        d.gon.hotplug = satAdd s.dev.gon.hotplug 1 ∧ s.dev.evt.fseq < d.evt.fseq ∧ ReportsOnly { s.dev with gon := d.gon } d) ∧
    (s.dev.gon.bays[b]? = some y → y.state = .training →
      ∃ d, exec (.bayTrainingComplete b false) s = .next { s with dev := d } ∧ d.evt.fseq = s.dev.evt.fseq + 1 ∧
        ReportsOnly { s.dev with gon := { s.dev.gon with
          bays := modAt (fun _ => Bay.reset) b s.dev.gon.bays, hotplug := satAdd s.dev.gon.hotplug 1 } } d) ∧
    (∀ ok, s.dev.gon.bays[b]? = some y → y.state ≠ .training → exec (.bayTrainingComplete b ok) s = .next s) ∧
    (s.dev.gon.bays[b]? = some y → y.state = .draining → y.restPend = none →
      ∃ d, exec (.bayDrainComplete b) s = .next { s with mem := blank, dev := d } ∧ d.gon.bays[b]? = some Bay.reset ∧
        d.gon.hotplug = satAdd s.dev.gon.hotplug 1 ∧ d.evt.fseq = s.dev.evt.fseq + 1 ∧ ReportsOnly { s.dev with gon := d.gon, ecc := clean } d) ∧
    (s.dev.gon.bays[b]? = some y → y.state = .draining → y.restPend = some v →
      ∃ d y', exec (.bayDrainComplete b) s = .next { s with mem := blank, dev := d } ∧ d.gon.bays[b]? = some y' ∧ y'.state = .training ∧ y'.restPend = none ∧
        y'.linkW = v.linkW ∧ y'.gen = v.gen ∧ y'.devCap = min 8192 (v.capBytes / unit256) ∧ y'.restShow = true ∧
        ReportsOnly { s.dev with gon := d.gon, ecc := clean } d) ∧
    (s.dev.gon.bays[b]? = some y → y.state ≠ .draining → exec (.bayDrainComplete b) s = .next s)

/-- GONDOLA_READ_TIMEOUT, GONDOLA_BAD_COMPLETION, PORT_G_LINK_DOWN, GONDOLA_VIRAL and PSEUDO_CHANNEL_FAILURE (08 R252, R253, R257, R260; 09 R289;
14 R403). A read timeout and a bad completion are uncorrectable errors with their counters: contained while a step runs, NACK ADDRESS for a
tether request, whose range is then lost, a NOTE otherwise; a failed write loses its range. The third timeout in a row, a link that goes
down and viral lose the bay: GONE, reported, its transfers in flight counted as errors, and the plan stops that places a range there. A bay neither
ONLINE nor DRAINING stays. A failed pseudo-channel's lines go to the other stacks' reserve, counted, or its stack leaves service. -/
def Obligations.GondolaAndHbmLosses : Prop :=
  ∀ (s : State) (k p port : Nat) (y : Bay) (r : Run) (e : GonErr) (h : WireHdr) (next : Bool) (w : Nat × Nat) (lost : Option (Nat × Nat)),
    let b := e.bay
    let here := s.dev.gon.bays[b]? = some y ∧ (y.state = .online ∨ y.state = .draining)
    let away := s.dev.gon.bays[b]? = some y ∧ y.state ≠ .online ∧ y.state ≠ .draining
    let timedOut := { s.dev.gon with tmo := satAdd s.dev.gon.tmo 1, bays := modAt (fun y => { y with tmo := y.tmo + 1 }) b s.dev.gon.bays }
    let failed := { s.dev.gon with badRsp := satAdd s.dev.gon.badRsp 1, bays := modAt (fun y => { y with tmo := 0 }) b s.dev.gon.bays }
    let contained (g : Gon) : Dev := { s.dev with
      gon := g, evt := { s.dev.evt with fseq := s.dev.evt.fseq + 1 }
      integ := { s.dev.integ with ue := satAdd s.dev.integ.ue 1 }
      tack := { s.dev.tack with bad := s.dev.tack.bad ++ sweepShards s.dev e.addr }
      plan := { s.dev.plan with run := some { r with cde := r.cde ++ [3], cdeSeq := r.cdeSeq ++ [s.dev.evt.fseq + 1] } } }
    let noted (g : Gon) (d : Dev) : Prop := d.evt.fseq = s.dev.evt.fseq + 1 ∧ d.evt.wait.length = s.dev.evt.wait.length + 1 ∧
      ReportsOnly { s.dev with gon := g, integ := { s.dev.integ with ue := satAdd s.dev.integ.ue 1 } } d
    let inFlight (u : Nat) : Nat := (bayFlights s.mem s.dev b).foldl (fun u _ => satAdd u 1) u
    let gone (d : Dev) : Prop := ∃ y', d.gon.bays[b]? = some y' ∧ y'.state = .gone ∧ y'.linkW = 0 ∧ y'.gen = 0 ∧
      d.gon.hotplug = satAdd s.dev.gon.hotplug 1 ∧ s.dev.evt.fseq < d.evt.fseq ∧
      (s.dev.plan.run = some r → placedOn s.dev b = true → d.plan.run = none)
    (here → y.tmo < 2 → e.req = none → s.dev.plan.run = some r → r.phase = .running →
      exec (.gondolaReadTimeout e) s = .next { s with dev := contained timedOut } ∧
      exec (.gondolaBadCompletion e none) s = .next { s with dev := contained failed } ∧
      exec (.gondolaBadCompletion e (some w)) s = .next { s with dev := { contained failed with
        ecc := { s.dev.ecc with gonLost := s.dev.ecc.gonLost ++ [w] } } }) ∧
    (here → y.tmo < 2 → e.req = none → s.dev.plan.run = none →
      ∃ d d', exec (.gondolaReadTimeout e) s = .next { s with dev := d } ∧ noted timedOut d ∧
        exec (.gondolaBadCompletion e none) s = .next { s with dev := d' } ∧ noted failed d') ∧
    (here → y.tmo < 2 → e.req = some (port, h) → h.opc < 2 → Accepted s port h.opc h r next →
      ∃ d d', exec (.gondolaReadTimeout e) s = .next { s with dev := d } ∧ Answers s.dev d port h 0xA 5 [] ∧
        exec (.gondolaBadCompletion e none) s = .next { s with dev := d' } ∧ Answers s.dev d' port h 0xA 5 [] ∧
        d.ecc.gonLost = s.dev.ecc.gonLost ++ [(h.remote, h.lenM1 + 1)] ∧ d'.ecc.gonLost = d.ecc.gonLost ∧ d.plan = s.dev.plan ∧ d'.plan = s.dev.plan ∧
        d.integ.ue = satAdd s.dev.integ.ue 1 ∧ d'.integ.ue = satAdd s.dev.integ.ue 1) ∧
    (here → 2 ≤ y.tmo → e.req = none →
      ∃ d, exec (.gondolaReadTimeout e) s = .next { s with dev := d } ∧ gone d ∧ d.integ.ue = inFlight (satAdd s.dev.integ.ue 1) ∧
        d.gon.tmo = satAdd s.dev.gon.tmo 1) ∧
    (here → ∃ d, exec (.portGLinkDown b) s = .next { s with dev := d } ∧ exec (.gondolaViral b) s = .next { s with dev := d } ∧ gone d ∧
      d.integ.ue = inFlight s.dev.integ.ue ∧ (placedOn s.dev b = false → d.plan = s.dev.plan)) ∧
    (away → exec (.gondolaReadTimeout e) s = .next s ∧ exec (.portGLinkDown b) s = .next s ∧ exec (.gondolaViral b) s = .next s ∧
      exec (.gondolaBadCompletion e lost) s = .next { s with dev := { s.dev with
        ecc := { s.dev.ecc with gonLost := s.dev.ecc.gonLost ++ lost.toList } } }) ∧
    (k < 8 → p < 32 → s.dev.integ.stackAbsent.contains k = false → s.dev.integ.pcFailed.contains (k, p) = false →
        pcLines p ≤ freeReserve s.dev k →
      ∃ d, exec (.pseudoChannelFailure k p) s = .next { s with dev := d } ∧ d.integ.pcFailed = s.dev.integ.pcFailed ++ [(k, p)] ∧
        d.integ.reserveUsed = modAt (fun _ => pcReserve (32 * k + p)) (32 * k + p) (takeReserve s.dev (pcLines p) k) ∧ d.gon = { s.dev.gon with hbmRemap := satAdd s.dev.gon.hbmRemap (pcLines p) } ∧
        (⟨hbmBase k, hbmBytes, some p, []⟩ : Lost) ∈ d.ecc.lost ∧ d.evt.fseq = s.dev.evt.fseq + 1 ∧
        d.integ.stackAbsent = s.dev.integ.stackAbsent ∧
        d = { s.dev with ecc := d.ecc, integ := d.integ, gon := d.gon, evt := d.evt }) ∧
    (k < 8 → p < 32 → s.dev.integ.stackAbsent.contains k = false → s.dev.integ.pcFailed.contains (k, p) = false →
        freeReserve s.dev k < pcLines p →
      ∃ d, exec (.pseudoChannelFailure k p) s = .next { s with dev := d } ∧ d.integ.stackAbsent = s.dev.integ.stackAbsent ++ [k] ∧
        d.gon = s.dev.gon ∧ s.dev.evt.fseq < d.evt.fseq) ∧
    ((8 ≤ k ∨ 32 ≤ p ∨ s.dev.integ.stackAbsent.contains k = true ∨ s.dev.integ.pcFailed.contains (k, p) = true) →
      exec (.pseudoChannelFailure k p) s = .next s)

/-- SCRUB_LINE, CORRECTIVE_WRITE_BACK and BUCKET_LEAK_TICK (13 R383, R385, R387 to R389). The scrubber reads the next line of its pass and moves on, at the end
of the tier it counts a pass; a corrected word queues its line for write-back and is counted; an uncorrectable line that nothing uses is counted,
reported and rewritten with zeros; a line that is not next, or a stopped scrubber, changes nothing. A write-back takes its line off the queue
and clears its errors; a tick lowers every level above 0 of its class by 1. -/
def Obligations.ScrubberAndBuckets : Prop :=
  ∀ (s : State) (line a n : Nat) (f : EccFind) (b : Bucket),
    let reads := s.dev.fw.ready = true ∧ s.dev.integ.scrubEn = true ∧ s.dev.integ.scrubStopping = false ∧ prioOf s.dev line = [] ∧
      s.dev.ecc.ce.filter (fun k => lineOf k = line) = []
    let sram := line < 0x60000000 ∧ s.dev.integ.rateS ≠ 0 ∧ line = s.dev.ecc.scrubS ∧ line % 256 = 0
    let hbm := 0x60000000 ≤ line ∧ s.dev.integ.rateH ≠ 0 ∧ line = s.dev.ecc.scrubH
    (reads → sram → f.ce = [] → f.ue = [] → firstBad s.dev.ecc line 256 = none → line % 0x2000000 + 256 < 0x2000000 →
      exec (.scrubLine line f) s = .next { s with dev := { s.dev with ecc := { s.dev.ecc with scrubS := line + 256 } } }) ∧
    (reads → sram → f.ce = [] → f.ue = [] → firstBad s.dev.ecc line 256 = none → line % 0x2000000 + 256 = 0x2000000 →
        (∀ k < 48, line / 0x2000000 < k → s.dev.integ.bankAbsent.contains k = true) → s.dev.integ.bankAbsent.contains 0 = false →
      exec (.scrubLine line f) s = .next { s with dev := { s.dev with
        ecc := { s.dev.ecc with scrubS := 0 }, integ := { s.dev.integ with passS := satAdd s.dev.integ.passS 1 } } }) ∧
    (reads → hbm → f.ce = [] → f.ue = [] → firstBad s.dev.ecc line 256 = none → stackOf line = some n →
        line + 256 < hbmBase n + hbmBytes →
      exec (.scrubLine line f) s = .next { s with dev := { s.dev with ecc := { s.dev.ecc with scrubH := line + 256 } } }) ∧
    (reads → sram → f.ce = [a] → f.ue = [] → NoBadWords s.dev → lineOf a = line → s.dev.ecc.defer.contains line = false →
        s.dev.ecc.wbq.contains line = false → (∀ k ∈ s.dev.ecc.rows, k.1 = rowOf line → k.2 = false) → wbqIn s.dev line < 16 →
      ∃ d, exec (.scrubLine line f) s = .next { s with dev := d } ∧ d.ecc.wbq = s.dev.ecc.wbq ++ [line] ∧
        d.integ.corr = satAdd s.dev.integ.corr 1 ∧ s.dev.evt.fseq < d.evt.fseq) ∧
    (reads → sram → f.ce = [] → f.ue = [a] → lineOf a = line → weightSlotAt s.dev line = none → s.dev.plan.run = none →
        serviceLine s.mem s.dev line = false → MemCanonical s →
      ∃ t, exec (.scrubLine line f) s = .next t ∧ t.pending = s.pending ∧ t.dev.integ.ue = satAdd s.dev.integ.ue 1 ∧
        t.dev.evt.fseq = s.dev.evt.fseq + 1 ∧ (∀ k, line ≤ k → k < line + 256 → t.mem.get k = 0 ∧ wordBad t.dev.ecc k = false) ∧
        (∀ k, (k < line ∨ line + 256 ≤ k) → t.mem.get k = s.mem.get k)) ∧
    ((s.dev.fw.ready = false ∨ s.dev.integ.scrubEn = false ∧ s.dev.integ.scrubStopping = false) → exec (.scrubLine line f) s = .next s) ∧
    (reads → line < 0x60000000 → line ≠ s.dev.ecc.scrubS → exec (.scrubLine line f) s = .next s) ∧
    (line ∈ s.dev.ecc.wbq →
      exec (.correctiveWriteBack line) s = .next { s with dev := { s.dev with ecc := { s.dev.ecc with
        ce := s.dev.ecc.ce.filter fun k => lineOf k ≠ line
        wbq := s.dev.ecc.wbq.filter fun k => k ≠ line
        defer := s.dev.ecc.defer.filter fun k => k ≠ line
        prioS := s.dev.ecc.prioS.filter fun k => k ≠ line
        prioH := s.dev.ecc.prioH.filter fun k => k ≠ line
        rows := s.dev.ecc.rows.map fun k => if k.1 = rowOf line then (k.1, true) else k } } }) ∧
    (line ∉ s.dev.ecc.wbq → exec (.correctiveWriteBack line) s = .next s) ∧
    (s.dev.integ.buckets[n]? = some b → b.timer = true → b.level.Pairwise (fun x y => x.1 < y.1) →
      ∃ b', exec (.bucketLeakTick n) s = .next { s with dev := { s.dev with integ := { s.dev.integ with
          buckets := modAt (fun _ => b') n s.dev.integ.buckets } } } ∧
        b' = { b with level := b'.level } ∧ ∀ k, (b'.level.get k).toNat = (b.level.get k).toNat - 1) ∧
    (s.dev.integ.buckets[n]? = some b → b.timer = false → exec (.bucketLeakTick n) s = .next s)

/-- BANK_MIGRATION_COMPLETE, BANK_FAILURE, CORE_HEARTBEAT_MISS, BIST_COMPLETE and BIST_BUDGET_EXPIRY (13 R385 to R387, R392, R398, R399; 15 R450). A
migrated bank keeps its contents with fresh spare rows, reported under the fault that began the migration; a dead bank is replaced by a spare with
every line marked lost, and is a hole with no spare left; a core that misses its heartbeat or holds an uncorrectable word is replaced by the spare,
then lost, and the next loss is the safe state with cause 6; a corrected word in its memory is counted, and a second overflow within 1 s replaces
it; a test ends with its result, which its command's completion carries. Each replacement is DEGRADED. -/
def Obligations.BanksCoresAndTests : Prop :=
  ∀ (s : State) (b c n now ring tag slice : Nat) (x : CorePower) (e : CoreEvent) (sig : W64),
    let lostBank : Lost := ⟨0x2000000 * b, 0x2000000, none, []⟩
    let there := b < 48 ∧ s.dev.integ.bankAbsent.contains b = false
    let serves := s.dev.integ.cores[c]? = some x ∧ x ≠ .lost
    let fails := e = .missed ∨ e = .uncorrectable
    let counted := if e = .uncorrectable then satAdd s.dev.integ.ue 1 else s.dev.integ.ue
    (s.dev.integ.migrating.find? (fun q => q.1 = b) = some (b, n) →
      ∃ d, exec (.bankMigrationComplete b) s = .next { s with dev := d } ∧ d.integ.migrating = s.dev.integ.migrating.filter (fun k => k.1 ≠ b) ∧
        d.ecc.bankRows = modAt (fun _ => 0) b s.dev.ecc.bankRows ∧ d.ecc.lost = s.dev.ecc.lost ∧
        d.evt = { s.dev.evt with wait := s.dev.evt.wait ++ [evtRecord s.dev.dbg.now n ⟨clsDegraded, 0x0A, 0x0D2C, b, b, false⟩] } ∧
        d = { s.dev with integ := d.integ, ecc := d.ecc, evt := d.evt }) ∧
    (bankMoves s.dev b = false → exec (.bankMigrationComplete b) s = .next s) ∧
    (there → s.dev.integ.balBanks ≠ 0 → bankMoves s.dev b = false → s.dev.integ.bistRun = false →
      ∃ d, exec (.bankFailure b) s = .next { s with dev := d } ∧ d.integ.balBanks = s.dev.integ.balBanks - 1 ∧
        siteOf d 6 b = 50 - s.dev.integ.balBanks ∧ lostBank ∈ d.ecc.lost ∧ d.ecc.bankRows = modAt (fun _ => 0) b s.dev.ecc.bankRows ∧
        d.integ.bankAbsent = s.dev.integ.bankAbsent ∧ d.evt.fseq = s.dev.evt.fseq + 1 ∧
        d = { s.dev with integ := d.integ, ecc := d.ecc, evt := d.evt }) ∧
    (there → bankMoves s.dev b = true →
      ∃ d, exec (.bankFailure b) s = .next { s with dev := d } ∧ d.integ.balBanks = s.dev.integ.balBanks ∧ bankMoves d b = false ∧
        lostBank ∈ d.ecc.lost ∧ d.ecc.bankRows = modAt (fun _ => 0) b s.dev.ecc.bankRows ∧ d.evt.fseq = s.dev.evt.fseq + 1 ∧
        d = { s.dev with integ := d.integ, ecc := d.ecc, evt := d.evt }) ∧
    (there → s.dev.integ.balBanks = 0 → bankMoves s.dev b = false →
      ∃ d, exec (.bankFailure b) s = .next { s with dev := d } ∧ d.integ.bankAbsent = s.dev.integ.bankAbsent ++ [b] ∧
        d.ecc = s.dev.ecc ∧ s.dev.evt.fseq < d.evt.fseq) ∧
    ((48 ≤ b ∨ s.dev.integ.bankAbsent.contains b = true) → exec (.bankFailure b) s = .next s) ∧
    (serves → fails → s.dev.integ.balCore = true → s.dev.integ.bistRun = false →
      ∃ d, exec (.coreHeartbeatMiss ⟨c, e⟩) s = .next { s with dev := d } ∧ d.integ.balCore = false ∧ d.integ.ue = counted ∧ siteOf d 0xA c = 4 ∧
        d.integ.cores = modAt (fun _ => .running) c s.dev.integ.cores ∧ d.evt.fseq = s.dev.evt.fseq + 1 ∧
        d = { s.dev with integ := d.integ, evt := d.evt }) ∧
    (serves → fails → s.dev.integ.balCore = false → (∀ y ∈ s.dev.integ.cores, y ≠ .lost) →
      ∃ d, exec (.coreHeartbeatMiss ⟨c, e⟩) s = .next { s with dev := d } ∧ d.integ.cores = modAt (fun _ => .lost) c s.dev.integ.cores ∧
        d.integ.ue = counted ∧ d.evt.fseq = s.dev.evt.fseq + 1 ∧ d = { s.dev with integ := d.integ, evt := d.evt }) ∧
    (serves → fails → s.dev.integ.balCore = false → (∃ y ∈ s.dev.integ.cores, y = .lost) → s.dev.pwr.cause = 0 →
      ∃ d, exec (.coreHeartbeatMiss ⟨c, e⟩) s = .next { s with dev := d } ∧ d.pwr.cause = 6 ∧
        d.integ.cores = modAt (fun _ => .lost) c s.dev.integ.cores) ∧
    (serves → bucketFull 6 c s.dev = false →
      ∃ d, exec (.coreHeartbeatMiss ⟨c, .corrected now⟩) s = .next { s with dev := d } ∧ d.integ.cores = s.dev.integ.cores ∧
        d.integ.corr = satAdd s.dev.integ.corr 1 ∧ d.integ.balCore = s.dev.integ.balCore) ∧
    (serves → bucketFull 6 c s.dev = true → (∃ o ∈ s.dev.integ.coreOvf, o.1 = c ∧ now < o.2 + 100000000 ∧ s.dev.dbg.now < o.2 + 100000000) →
        s.dev.integ.balCore = true →
      ∃ d, exec (.coreHeartbeatMiss ⟨c, .corrected now⟩) s = .next { s with dev := d } ∧ d.integ.balCore = false ∧
        d.integ.cores = modAt (fun _ => .running) c s.dev.integ.cores ∧ d.integ.corr = satAdd s.dev.integ.corr 1) ∧
    (s.dev.integ.cores[c]? = some .lost → exec (.coreHeartbeatMiss ⟨c, e⟩) s = .next s) ∧
    (s.dev.integ.bistRun = true → s.dev.integ.bistCmd = some (slice, ring, tag) →
      exec (.bistComplete true sig) s = .next { s with dev := (completeTag ring tag 0x601 {}
        { s.dev with integ := { s.dev.integ with bistRun := false, bistResult := 0, bistCmd := none } }) }) ∧
    (s.dev.integ.bistRun = true → s.dev.integ.bistCmd = some (8, ring, tag) → s.dev.integ.bistSite = 4 → s.dev.integ.balCore = true →
      ∃ d e, exec (.bistComplete false sig) s = .next { s with dev := completeTag ring tag 0x601 { cls := 3, data := 1 } d } ∧
        exec .bistBudgetExpiry s = .next { s with dev := completeTag ring tag 0x601 { cls := 3, data := 4 } e } ∧
        d.integ.balCore = false ∧ d.integ.bistRun = false ∧ d.integ.bistResult = 1 ∧ d.evt.fseq = s.dev.evt.fseq + 1 ∧
        e.integ.balCore = false ∧ e.integ.bistRun = false ∧ e.integ.bistResult = 4 ∧ e.evt.fseq = s.dev.evt.fseq + 1) ∧
    (s.dev.integ.bistRun = false → exec (.bistComplete true sig) s = .next s ∧ exec .bistBudgetExpiry s = .next s)

/-- WEIGHT_FETCH_RESPONSE, WEIGHT_FETCH_TIMEOUT, DIGEST_SCRUB and ZEROING_COMPLETE (12 R367 to R371, R377). A fetched chunk that verifies is written into
its slot at the shard's place and counted, and the next one is fetched; the last one readies the slot with OK; a bad tag is counted and the chunk fetched
again, the third time the session ends with code 4; a shard whose digest is wrong is fetched once more, then the session ends with code 5; a repaired
shard loses its BAD mark; a fetch without answer, or with NACK, is counted and repeated, after three repeats the session ends with code 6. A
mismatch at rest marks its shard bad, counted, with a NOTE. When the zeros are written the slots that waited are EMPTY, and a stop
with traced copies is complete. -/
def Obligations.WeightFetchAndZeroing : Prop :=
  ∀ (s : State) (i k : Nat) (c : ChunkIn) (q : Session) (man : ManifestIn) (sh : Shard) (rest : List (Nat × Nat)) (key : KeyIn),
    let wants := s.dev.wgt.sessions[i]? = some q ∧ i < 4 ∧ q.isOpen = true ∧ q.hostRoute = false ∧ q.cek = true ∧
      q.want = (c.shard, c.chunk) :: rest ∧ c.nack = false
    let refused := s.dev.wgt.sessions[i]? = some q ∧ i < 4 ∧ q.isOpen = true ∧ q.hostRoute = false ∧ q.cek = true ∧
      q.want = (c.shard, c.chunk) :: rest ∧ c.nack = true
    let good := c.tagOk = true ∧ q.man = some man ∧ man.shards[c.shard]? = some sh
    let more := rest.any (fun w => w.1 = c.shard)
    let written := (writeMem s.mem s.dev.ecc ((slotRange s.dev q.adapter q.slot).1 + sh.dstOff + 65536 * c.chunk) (padLine c.plain)).1
    let ends (e : Instr) (code : Nat) : Prop := ∃ d, exec e s = .next { s with dev := d } ∧ (sessionAt d i).isOpen = false ∧
      (sessionAt d i).cek = false ∧ (slotAt d q.adapter q.slot = slotAt s.dev q.adapter q.slot ∨
        (slotAt d q.adapter q.slot).result = code ∧ (slotAt d q.adapter q.slot).state = (slotAt s.dev q.adapter q.slot).state) ∧
      s.dev.evt.fseq < d.evt.fseq
    let again (q' : Session) (g : Wgt → Wgt) (e : Instr) : Prop := exec e s = .next { s with dev := { s.dev with
      wgt := g { s.dev.wgt with sessions := modAt (fun _ => q') i s.dev.wgt.sessions }
      tth := { s.dev.tth with out := s.dev.tth.out ++ fetchGets s.dev q' } } }
    (wants → good → more = true →
      ∃ t q', exec (.weightFetchResponse i c) s = .next t ∧ t.pending = s.pending ∧ t.mem = written ∧ t.dev.wgt.sessions[i]? = some q' ∧
        q' = { q with want := rest, tagTries := 0, fetchTries := 0 } ∧ t.dev.wgt.chunks = satAdd s.dev.wgt.chunks 1 ∧
        t.dev.tth.out = s.dev.tth.out ++ fetchGets s.dev q' ∧ t.dev.plan = s.dev.plan) ∧
    (wants → good → rest = [] → c.digestOk = true → q.repair = false → q.key = some key →
        q.slot < (if q.adapter then s.dev.wgt.adapter else s.dev.wgt.base).length →
      ∃ t, exec (.weightFetchResponse i c) s = .next t ∧ t.pending = s.pending ∧ t.mem = written ∧ (sessionAt t.dev i).isOpen = false ∧
        (slotAt t.dev q.adapter q.slot).state = .ready ∧ (slotAt t.dev q.adapter q.slot).result = 0 ∧
        (slotAt t.dev q.adapter q.slot).modelId = man.modelId ∧ (slotAt t.dev q.adapter q.slot).shards = man.shards ∧
        t.dev.wgt.chunks = satAdd s.dev.wgt.chunks 1 ∧ s.dev.evt.fseq < t.dev.evt.fseq) ∧
    (wants → good → rest = [] → c.digestOk = true → q.repair = true →
        q.slot < (if q.adapter then s.dev.wgt.adapter else s.dev.wgt.base).length →
      ∃ t, exec (.weightFetchResponse i c) s = .next t ∧ t.pending = s.pending ∧ t.mem = written ∧ (sessionAt t.dev i).isOpen = false ∧
        slotAt t.dev q.adapter q.slot = { slotAt s.dev q.adapter q.slot with
          result := 0, bad := (slotAt s.dev q.adapter q.slot).bad.filter (fun x => x ≠ c.shard) }) ∧
    (wants → good → more = false → c.digestOk = false → q.digTries.contains c.shard = false →
      ∃ t q', exec (.weightFetchResponse i c) s = .next t ∧ t.pending = s.pending ∧ t.mem = written ∧ t.dev.wgt.sessions[i]? = some q' ∧
        q'.want = shardChunks sh ++ rest ∧ q'.digTries = c.shard :: q.digTries ∧ q'.isOpen = true ∧
        t.dev.wgt.digFail = satAdd s.dev.wgt.digFail 1) ∧
    (wants → good → more = false → c.digestOk = false → q.digTries.contains c.shard = true →
      ∃ t, exec (.weightFetchResponse i c) s = .next t ∧ t.pending = s.pending ∧ t.mem = written ∧ (sessionAt t.dev i).isOpen = false ∧
        t.dev.wgt.digFail = satAdd s.dev.wgt.digFail 1 ∧ s.dev.evt.fseq < t.dev.evt.fseq) ∧
    (refused → q.fetchTries < 3 →
      again { q with fetchTries := q.fetchTries + 1 } (fun w => { w with refetch := satAdd s.dev.wgt.refetch 1 }) (.weightFetchResponse i c)) ∧
    (refused → 3 ≤ q.fetchTries → ends (.weightFetchResponse i c) 6) ∧
    (wants → c.tagOk = false → q.tagTries < 2 →
      again { q with tagTries := q.tagTries + 1 } (fun w => { w with tagFail := satAdd s.dev.wgt.tagFail 1 }) (.weightFetchResponse i c)) ∧
    (wants → c.tagOk = false → 2 ≤ q.tagTries → ends (.weightFetchResponse i c) 4) ∧
    (s.dev.wgt.sessions[i]? = some q → q.isOpen = true → q.hostRoute = false → q.want ≠ [] → q.fetchTries < 3 →
      again { q with fetchTries := q.fetchTries + 1 } (fun w => { w with refetch := satAdd s.dev.wgt.refetch 1 }) (.weightFetchTimeout i)) ∧
    (s.dev.wgt.sessions[i]? = some q → i < 4 → q.isOpen = true → q.hostRoute = false → q.want ≠ [] → 3 ≤ q.fetchTries →
      ends (.weightFetchTimeout i) 6) ∧
    (s.dev.wgt.sessions[i]? = some q → (q.isOpen = false ∨ q.hostRoute = true) →
      exec (.weightFetchTimeout i) s = .next s ∧ exec (.weightFetchResponse i c) s = .next s) ∧
    (k < 4 → k < s.dev.wgt.base.length → (slotAt s.dev false k).state = .ready → (slotAt s.dev false k).bad.contains i = false →
      ∃ d, exec (.digestScrub [(k, i)]) s = .next { s with dev := d } ∧ d.evt.fseq = s.dev.evt.fseq + 1 ∧
        ReportsOnly { s.dev with wgt := { s.dev.wgt with
          scrubFail := satAdd s.dev.wgt.scrubFail 1
          base := modAt (fun w => { w with bad := w.bad ++ [i] }) k s.dev.wgt.base } } d) ∧
    exec (.digestScrub []) s = .next s ∧
    (s.dev.plan.latched = none → MemCanonical s →
      let zs := allSlots.filter fun x => (slotAt s.dev x.1 x.2).zeroing
      let ranges := zs.map (fun x => slotRange s.dev x.1 x.2) ++ (if s.dev.plan.stopping then s.dev.wgt.traced else [])
      ∃ t, exec .zeroingComplete s = .next t ∧ t.pending = s.pending ∧
        (∀ x ∈ zs, (slotAt t.dev x.1 x.2) = { WSlot.reset with result := (slotAt s.dev x.1 x.2).result }) ∧
        (∀ x ∈ allSlots, x ∉ zs → slotAt t.dev x.1 x.2 = slotAt s.dev x.1 x.2) ∧
        (∀ x ∈ ranges, ∀ a, x.1 ≤ a → a < x.1 + x.2 → t.mem.get a = 0) ∧
        (∀ a, (∀ x ∈ ranges, a < x.1 ∨ x.1 + x.2 ≤ a) → t.mem.get a = s.mem.get a) ∧
        t.dev.plan = { s.dev.plan with stopping := false } ∧ t.dev.wgt.traced = (if s.dev.plan.stopping then [] else s.dev.wgt.traced) ∧
        t.dev.wgt.sessions = s.dev.wgt.sessions)
end

