-- ==== Sys2Proof/Laws/Mem.lean ====
section
/-! SUPPORT. Memory: a read after a write, what a write leaves alone, and that every memory operation keeps the canonical form. -/

namespace Sys2Proof.Machine

/-! ## The canonical form -/

/-- A list above a bound is above every lower one. -/
theorem Mem.above_mono {a b : Nat} (h : a ≤ b) {m : Mem} (hm : Mem.above b m = true) : Mem.above a m = true := by
  cases m with
  | nil => rfl
  | cons c t =>
    simp only [Mem.above, Bool.and_eq_true, decide_eq_true_eq] at hm ⊢
    exact ⟨⟨by omega, hm.1.2⟩, hm.2⟩

/-- A list above a bound is canonical. -/
theorem Mem.above_wf {a : Nat} {m : Mem} (hm : Mem.above a m = true) : m.wf = true := by
  cases m with
  | nil => rfl
  | cons c t =>
    simp only [Mem.above, Mem.wf, Bool.and_eq_true] at hm ⊢
    exact ⟨hm.1.2, hm.2⟩

/-- Writing a byte above a bound keeps the list above it. -/
theorem Mem.above_set {a b : Nat} (v : Byte) {m : Mem} (hm : Mem.above b m = true) (h : b < a) :
    Mem.above b (m.set a v) = true := by
  induction m generalizing b with
  | nil =>
    simp only [Mem.set]
    split
    · rfl
    · simp [Mem.above, *]
  | cons c t ih =>
    obtain ⟨x, w⟩ := c
    simp only [Mem.above, Bool.and_eq_true, decide_eq_true_eq, bne_iff_ne] at hm
    obtain ⟨⟨h1, h2⟩, h3⟩ := hm
    simp only [Mem.set]
    split
    · next hx => simp [Mem.above, h1, h2, ih h3 hx]
    · split
      · next hx =>
        subst hx
        split
        · exact Mem.above_mono (by omega) h3
        · next hv => simp [Mem.above, h, hv, h3]
      · split
        · simp [Mem.above, h1, h2, h3]
        · next hx hxa hv =>
          have hlt : a < x := by omega
          simp [Mem.above, h, hv, hlt, h2, h3]

/-- Writing a byte keeps the canonical form. -/
@[simp] theorem Mem.set_wf (a : Nat) (v : Byte) {m : Mem} (hm : m.wf = true) : (m.set a v).wf = true := by
  cases m with
  | nil =>
    simp only [Mem.set]
    split
    · rfl
    · simp [Mem.wf, Mem.above, *]
  | cons c t =>
    obtain ⟨x, w⟩ := c
    simp only [Mem.wf, Bool.and_eq_true, bne_iff_ne] at hm
    obtain ⟨h2, h3⟩ := hm
    simp only [Mem.set]
    split
    · next hx => simp [Mem.wf, h2, Mem.above_set v h3 hx]
    · split
      · next hx =>
        subst hx
        split
        · exact Mem.above_wf h3
        · next hv => simp [Mem.wf, hv, h3]
      · split
        · simp [Mem.wf, h2, h3]
        · next hx hxa hv =>
          have hlt : a < x := by omega
          simp [Mem.wf, Mem.above, hv, hlt, h2, h3]

/-- Writing bytes keeps the canonical form. -/
@[simp] theorem Mem.write_wf (a : Nat) (bs : List Byte) {m : Mem} (hm : m.wf = true) : (m.write a bs).wf = true := by
  induction bs generalizing m a with
  | nil => exact hm
  | cons b bs ih => exact ih (a + 1) (Mem.set_wf a b hm)

/-- Writing a number keeps the canonical form. -/
@[simp] theorem Mem.writeLE_wf (a n v : Nat) {m : Mem} (hm : m.wf = true) : (m.writeLE a n v).wf = true :=
  Mem.write_wf a _ hm

/-- Keeping some cells keeps the list above a bound. -/
theorem Mem.above_filter (p : Host.Cell → Bool) {b : Nat} {m : Mem} (hm : Mem.above b m = true) :
    Mem.above b (m.filter p) = true := by
  induction m generalizing b with
  | nil => rfl
  | cons c t ih =>
    simp only [Mem.above, Bool.and_eq_true, decide_eq_true_eq] at hm
    simp only [List.filter_cons]
    split
    · simp [Mem.above, hm.1.1, ih hm.2]
      simpa using hm.1.2
    · exact ih (Mem.above_mono (by omega) hm.2)

/-- Writing zeros over a range keeps the canonical form. -/
@[simp] theorem Mem.zero_wf (a n : Nat) {m : Mem} (hm : m.wf = true) : (m.zero a n).wf = true := by
  cases m with
  | nil => rfl
  | cons c t =>
    simp only [Mem.wf, Bool.and_eq_true] at hm
    simp only [Mem.zero, List.filter_cons]
    split
    · simp only [Mem.wf, Bool.and_eq_true]
      exact ⟨hm.1, Mem.above_filter _ hm.2⟩
    · exact Mem.above_wf (Mem.above_filter _ hm.2)

/-- Zeroing ranges keeps the canonical form. -/
@[simp] theorem zeroRanges_wf (rs : List (Nat × Nat)) {m : Mem} (hm : m.wf = true) : (zeroRanges rs m).wf = true := by
  unfold zeroRanges
  induction rs generalizing m with
  | nil => exact hm
  | cons r t ih => exact ih (Mem.zero_wf _ _ hm)

/-- A piece of a line keeps the canonical form. -/
theorem writePiece_wf (e : Ecc) (a : Nat) (bs : List Byte) {m : Mem} (hm : m.wf = true) : (writePiece m e a bs).1.wf = true := by
  unfold writePiece
  split
  · split
    · exact hm
    · exact Mem.write_wf _ _ hm
  · exact Mem.write_wf _ _ hm

/-- Writing lines through the code keeps the canonical form. -/
theorem writeLines_wf (e : Ecc) (ps : List (Nat × List Byte)) {m : Mem} (hm : m.wf = true) : (writeLines m e ps).1.wf = true := by
  induction ps generalizing m e with
  | nil => exact hm
  | cons p t ih => exact ih _ (writePiece_wf e _ _ hm)

/-- Writing through the code keeps the canonical form. -/
@[simp] theorem writeMem_wf (e : Ecc) (a : Nat) (bs : List Byte) {m : Mem} (hm : m.wf = true) : (writeMem m e a bs).1.wf = true :=
  writeLines_wf e _ hm

/-! ## Reading -/

/-- Nothing is listed at or below the bound of a list. -/
theorem Mem.get_above {b a : Nat} {m : Mem} (hm : Mem.above b m = true) (h : a ≤ b) : m.get a = Mem.blank := by
  cases m with
  | nil => rfl
  | cons c t =>
    simp only [Mem.above, Bool.and_eq_true, decide_eq_true_eq] at hm
    simp only [Mem.get]
    rw [if_neg (by omega), if_pos (by omega)]

/-- The byte written is read back, and every other byte reads as before. -/
theorem Mem.get_set {m : Mem} (hm : m.wf = true) (a : Nat) (v : Byte) (b : Nat) :
    (m.set a v).get b = if b = a then v else m.get b := by
  induction m with
  | nil =>
    simp only [Mem.set]
    split
    · split <;> simp_all [Mem.get]
    · simp only [Mem.get]
      split
      · simp_all
      · have : b ≠ a := fun h => by omega
        simp [this]
  | cons c t ih =>
    obtain ⟨x, w⟩ := c
    simp only [Mem.wf, Bool.and_eq_true, bne_iff_ne] at hm
    obtain ⟨h2, h3⟩ := hm
    have hi := ih (Mem.above_wf h3)
    simp only [Mem.set]
    split
    · next hx =>
      simp only [Mem.get]
      by_cases h1 : x = b
      · rw [if_pos h1, if_pos h1, if_neg (by omega)]
      · by_cases h4 : b < x
        · rw [if_neg h1, if_pos h4, if_neg h1, if_pos h4, if_neg (by omega)]
        · rw [if_neg h1, if_neg h4, if_neg h1, if_neg h4, hi]
    · split
      · next hx =>
        subst hx
        split
        · next hv =>
          simp only [Mem.get]
          by_cases h1 : b = x
          · subst h1
            rw [if_pos rfl, Mem.get_above h3 (Nat.le_refl _), hv]
          · rw [if_neg h1, if_neg (Ne.symm h1)]
            split
            · exact Mem.get_above h3 (by omega)
            · rfl
        · simp only [Mem.get]
          by_cases h1 : b = x
          · simp [h1]
          · rw [if_neg (Ne.symm h1), if_neg h1, if_neg (Ne.symm h1)]
      · have hlt : a < x := by omega
        split
        · next hv =>
          by_cases h1 : b = a
          · subst h1
            simp only [Mem.get]
            rw [if_neg (by omega), if_pos (by omega), hv]; simp
          · rw [if_neg h1]
        · simp only [Mem.get]
          by_cases h1 : b = a
          · simp [h1]
          · rw [if_neg (Ne.symm h1), if_neg h1]
            by_cases h4 : b < a
            · rw [if_pos h4, if_neg (by omega), if_pos (by omega)]
            · rw [if_neg h4]

/-- A byte outside the bytes written reads as before. -/
theorem Mem.get_write_other {m : Mem} (hm : m.wf = true) (a : Nat) (bs : List Byte) (b : Nat) (h : b < a ∨ a + bs.length ≤ b) :
    (m.write a bs).get b = m.get b := by
  induction bs generalizing m a with
  | nil => rfl
  | cons x t ih =>
    simp only [List.length_cons] at h
    simp only [Mem.write]
    rw [ih (Mem.set_wf a x hm) (a + 1) (by omega), Mem.get_set hm, if_neg (by omega)]

/-- The bytes written are read back. -/
theorem Mem.get_write_same {m : Mem} (hm : m.wf = true) (a : Nat) (bs : List Byte) (k : Nat) (h : k < bs.length) :
    (m.write a bs).get (a + k) = bs[k] := by
  induction bs generalizing m a k with
  | nil => simp at h
  | cons x t ih =>
    simp only [Mem.write]
    cases k with
    | zero =>
      rw [Mem.get_write_other (Mem.set_wf a x hm) (a + 1) t (a + 0) (by omega), Mem.get_set hm]
      simp
    | succ k =>
      have := ih (Mem.set_wf a x hm) (a + 1) k (by simpa using h)
      rw [show a + (k + 1) = a + 1 + k by omega, this]
      rfl

end Sys2Proof.Machine
end

