-- ==== Sys2Proof/Laws/State.lean ====
section
/-! SUPPORT. Lemmas about lists changed at one place, and, for each update of one part of the device, what it leaves alone. -/

namespace Sys2Proof.Machine

/-! ## Lists changed at one place -/

/-- Changing one element keeps the length. -/
@[simp] theorem modAt_length {α : Type} (f : α → α) (i : Nat) (l : List α) : (modAt f i l).length = l.length := by
  induction l generalizing i with
  | nil => cases i <;> rfl
  | cons x t ih => cases i with
    | zero => rfl
    | succ i => simp [modAt, ih]

/-- The element at the place is the image of the old one. -/
@[simp] theorem modAt_same {α : Type} (f : α → α) (i : Nat) (l : List α) : (modAt f i l)[i]? = (l[i]?).map f := by
  induction l generalizing i with
  | nil => cases i <;> rfl
  | cons x t ih => cases i with
    | zero => rfl
    | succ i => simp [modAt, ih]

/-- Elements at other places stay. -/
theorem modAt_other {α : Type} (f : α → α) {i j : Nat} (h : j ≠ i) (l : List α) : (modAt f i l)[j]? = l[j]? := by
  induction l generalizing i j with
  | nil => cases i <;> rfl
  | cons x t ih => cases i with
    | zero => cases j with
      | zero => exact absurd rfl h
      | succ j => rfl
    | succ i => cases j with
      | zero => rfl
      | succ j => simpa [modAt] using ih (by omega)

/-! ## modRing -/

@[simp] theorem modRing_hly (n : Nat) (f : Ring → Ring) (d : Dev) : (modRing n f d).hly.rings = modAt f n d.hly.rings := rfl
@[simp] theorem modRing_pins (n : Nat) (f : Ring → Ring) (d : Dev) : (modRing n f d).pins = d.pins := rfl
@[simp] theorem modRing_dbg (n : Nat) (f : Ring → Ring) (d : Dev) : (modRing n f d).dbg = d.dbg := rfl
@[simp] theorem modRing_fuses (n : Nat) (f : Ring → Ring) (d : Dev) : (modRing n f d).fuses = d.fuses := rfl
@[simp] theorem modRing_flash (n : Nat) (f : Ring → Ring) (d : Dev) : (modRing n f d).flash = d.flash := rfl
@[simp] theorem modRing_fw (n : Nat) (f : Ring → Ring) (d : Dev) : (modRing n f d).fw = d.fw := rfl
@[simp] theorem modRing_pwr (n : Nat) (f : Ring → Ring) (d : Dev) : (modRing n f d).pwr = d.pwr := rfl
@[simp] theorem modRing_gpwr (n : Nat) (f : Ring → Ring) (d : Dev) : (modRing n f d).gpwr = d.gpwr := rfl
@[simp] theorem modRing_evt (n : Nat) (f : Ring → Ring) (d : Dev) : (modRing n f d).evt = d.evt := rfl
@[simp] theorem modRing_irq (n : Nat) (f : Ring → Ring) (d : Dev) : (modRing n f d).irq = d.irq := rfl
@[simp] theorem modRing_cxl (n : Nat) (f : Ring → Ring) (d : Dev) : (modRing n f d).cxl = d.cxl := rfl
@[simp] theorem modRing_gen (n : Nat) (f : Ring → Ring) (d : Dev) : (modRing n f d).gen = d.gen := rfl
@[simp] theorem modRing_ecc (n : Nat) (f : Ring → Ring) (d : Dev) : (modRing n f d).ecc = d.ecc := rfl
@[simp] theorem modRing_integ (n : Nat) (f : Ring → Ring) (d : Dev) : (modRing n f d).integ = d.integ := rfl
@[simp] theorem modRing_gon (n : Nat) (f : Ring → Ring) (d : Dev) : (modRing n f d).gon = d.gon := rfl
@[simp] theorem modRing_wgt (n : Nat) (f : Ring → Ring) (d : Dev) : (modRing n f d).wgt = d.wgt := rfl
@[simp] theorem modRing_plan (n : Nat) (f : Ring → Ring) (d : Dev) : (modRing n f d).plan = d.plan := rfl
@[simp] theorem modRing_tth (n : Nat) (f : Ring → Ring) (d : Dev) : (modRing n f d).tth = d.tth := rfl
@[simp] theorem modRing_vrd (n : Nat) (f : Ring → Ring) (d : Dev) : (modRing n f d).vrd = d.vrd := rfl
@[simp] theorem modRing_tack (n : Nat) (f : Ring → Ring) (d : Dev) : (modRing n f d).tack = d.tack := rfl
@[simp] theorem modRing_snap (n : Nat) (f : Ring → Ring) (d : Dev) : (modRing n f d).snap = d.snap := rfl
@[simp] theorem modRing_arrays (n : Nat) (f : Ring → Ring) (d : Dev) : (modRing n f d).arrays = d.arrays := rfl
@[simp] theorem modRing_groups (n : Nat) (f : Ring → Ring) (d : Dev) : (modRing n f d).groups = d.groups := rfl
@[simp] theorem modRing_nflag (n : Nat) (f : Ring → Ring) (d : Dev) : (modRing n f d).nflag = d.nflag := rfl
@[simp] theorem modRing_narrow (n : Nat) (f : Ring → Ring) (d : Dev) : (modRing n f d).narrow = d.narrow := rfl
@[simp] theorem modRing_curv (n : Nat) (f : Ring → Ring) (d : Dev) : (modRing n f d).curv = d.curv := rfl
@[simp] theorem modRing_solv (n : Nat) (f : Ring → Ring) (d : Dev) : (modRing n f d).solv = d.solv := rfl
@[simp] theorem modRing_host (n : Nat) (f : Ring → Ring) (d : Dev) : (modRing n f d).host = d.host := rfl
@[simp] theorem modRing_freeCtr (n : Nat) (f : Ring → Ring) (d : Dev) : (modRing n f d).freeCtr = d.freeCtr := rfl

/-! ## modBay -/

@[simp] theorem modBay_gon (b : Nat) (f : Bay → Bay) (d : Dev) : (modBay b f d).gon.bays = modAt f b d.gon.bays := rfl
@[simp] theorem modBay_pins (b : Nat) (f : Bay → Bay) (d : Dev) : (modBay b f d).pins = d.pins := rfl
@[simp] theorem modBay_dbg (b : Nat) (f : Bay → Bay) (d : Dev) : (modBay b f d).dbg = d.dbg := rfl
@[simp] theorem modBay_fuses (b : Nat) (f : Bay → Bay) (d : Dev) : (modBay b f d).fuses = d.fuses := rfl
@[simp] theorem modBay_flash (b : Nat) (f : Bay → Bay) (d : Dev) : (modBay b f d).flash = d.flash := rfl
@[simp] theorem modBay_fw (b : Nat) (f : Bay → Bay) (d : Dev) : (modBay b f d).fw = d.fw := rfl
@[simp] theorem modBay_pwr (b : Nat) (f : Bay → Bay) (d : Dev) : (modBay b f d).pwr = d.pwr := rfl
@[simp] theorem modBay_gpwr (b : Nat) (f : Bay → Bay) (d : Dev) : (modBay b f d).gpwr = d.gpwr := rfl
@[simp] theorem modBay_hly (b : Nat) (f : Bay → Bay) (d : Dev) : (modBay b f d).hly = d.hly := rfl
@[simp] theorem modBay_evt (b : Nat) (f : Bay → Bay) (d : Dev) : (modBay b f d).evt = d.evt := rfl
@[simp] theorem modBay_irq (b : Nat) (f : Bay → Bay) (d : Dev) : (modBay b f d).irq = d.irq := rfl
@[simp] theorem modBay_cxl (b : Nat) (f : Bay → Bay) (d : Dev) : (modBay b f d).cxl = d.cxl := rfl
@[simp] theorem modBay_gen (b : Nat) (f : Bay → Bay) (d : Dev) : (modBay b f d).gen = d.gen := rfl
@[simp] theorem modBay_ecc (b : Nat) (f : Bay → Bay) (d : Dev) : (modBay b f d).ecc = d.ecc := rfl
@[simp] theorem modBay_integ (b : Nat) (f : Bay → Bay) (d : Dev) : (modBay b f d).integ = d.integ := rfl
@[simp] theorem modBay_wgt (b : Nat) (f : Bay → Bay) (d : Dev) : (modBay b f d).wgt = d.wgt := rfl
@[simp] theorem modBay_plan (b : Nat) (f : Bay → Bay) (d : Dev) : (modBay b f d).plan = d.plan := rfl
@[simp] theorem modBay_tth (b : Nat) (f : Bay → Bay) (d : Dev) : (modBay b f d).tth = d.tth := rfl
@[simp] theorem modBay_vrd (b : Nat) (f : Bay → Bay) (d : Dev) : (modBay b f d).vrd = d.vrd := rfl
@[simp] theorem modBay_tack (b : Nat) (f : Bay → Bay) (d : Dev) : (modBay b f d).tack = d.tack := rfl
@[simp] theorem modBay_snap (b : Nat) (f : Bay → Bay) (d : Dev) : (modBay b f d).snap = d.snap := rfl
@[simp] theorem modBay_arrays (b : Nat) (f : Bay → Bay) (d : Dev) : (modBay b f d).arrays = d.arrays := rfl
@[simp] theorem modBay_groups (b : Nat) (f : Bay → Bay) (d : Dev) : (modBay b f d).groups = d.groups := rfl
@[simp] theorem modBay_nflag (b : Nat) (f : Bay → Bay) (d : Dev) : (modBay b f d).nflag = d.nflag := rfl
@[simp] theorem modBay_narrow (b : Nat) (f : Bay → Bay) (d : Dev) : (modBay b f d).narrow = d.narrow := rfl
@[simp] theorem modBay_curv (b : Nat) (f : Bay → Bay) (d : Dev) : (modBay b f d).curv = d.curv := rfl
@[simp] theorem modBay_solv (b : Nat) (f : Bay → Bay) (d : Dev) : (modBay b f d).solv = d.solv := rfl
@[simp] theorem modBay_host (b : Nat) (f : Bay → Bay) (d : Dev) : (modBay b f d).host = d.host := rfl
@[simp] theorem modBay_freeCtr (b : Nat) (f : Bay → Bay) (d : Dev) : (modBay b f d).freeCtr = d.freeCtr := rfl

/-! ## modGpwr -/

@[simp] theorem modGpwr_gpwr (g : Nat) (f : GroupPwr → GroupPwr) (d : Dev) : (modGpwr g f d).gpwr = modAt f g d.gpwr := rfl
@[simp] theorem modGpwr_pins (g : Nat) (f : GroupPwr → GroupPwr) (d : Dev) : (modGpwr g f d).pins = d.pins := rfl
@[simp] theorem modGpwr_dbg (g : Nat) (f : GroupPwr → GroupPwr) (d : Dev) : (modGpwr g f d).dbg = d.dbg := rfl
@[simp] theorem modGpwr_fuses (g : Nat) (f : GroupPwr → GroupPwr) (d : Dev) : (modGpwr g f d).fuses = d.fuses := rfl
@[simp] theorem modGpwr_flash (g : Nat) (f : GroupPwr → GroupPwr) (d : Dev) : (modGpwr g f d).flash = d.flash := rfl
@[simp] theorem modGpwr_fw (g : Nat) (f : GroupPwr → GroupPwr) (d : Dev) : (modGpwr g f d).fw = d.fw := rfl
@[simp] theorem modGpwr_pwr (g : Nat) (f : GroupPwr → GroupPwr) (d : Dev) : (modGpwr g f d).pwr = d.pwr := rfl
@[simp] theorem modGpwr_hly (g : Nat) (f : GroupPwr → GroupPwr) (d : Dev) : (modGpwr g f d).hly = d.hly := rfl
@[simp] theorem modGpwr_evt (g : Nat) (f : GroupPwr → GroupPwr) (d : Dev) : (modGpwr g f d).evt = d.evt := rfl
@[simp] theorem modGpwr_irq (g : Nat) (f : GroupPwr → GroupPwr) (d : Dev) : (modGpwr g f d).irq = d.irq := rfl
@[simp] theorem modGpwr_cxl (g : Nat) (f : GroupPwr → GroupPwr) (d : Dev) : (modGpwr g f d).cxl = d.cxl := rfl
@[simp] theorem modGpwr_gen (g : Nat) (f : GroupPwr → GroupPwr) (d : Dev) : (modGpwr g f d).gen = d.gen := rfl
@[simp] theorem modGpwr_ecc (g : Nat) (f : GroupPwr → GroupPwr) (d : Dev) : (modGpwr g f d).ecc = d.ecc := rfl
@[simp] theorem modGpwr_integ (g : Nat) (f : GroupPwr → GroupPwr) (d : Dev) : (modGpwr g f d).integ = d.integ := rfl
@[simp] theorem modGpwr_gon (g : Nat) (f : GroupPwr → GroupPwr) (d : Dev) : (modGpwr g f d).gon = d.gon := rfl
@[simp] theorem modGpwr_wgt (g : Nat) (f : GroupPwr → GroupPwr) (d : Dev) : (modGpwr g f d).wgt = d.wgt := rfl
@[simp] theorem modGpwr_plan (g : Nat) (f : GroupPwr → GroupPwr) (d : Dev) : (modGpwr g f d).plan = d.plan := rfl
@[simp] theorem modGpwr_tth (g : Nat) (f : GroupPwr → GroupPwr) (d : Dev) : (modGpwr g f d).tth = d.tth := rfl
@[simp] theorem modGpwr_vrd (g : Nat) (f : GroupPwr → GroupPwr) (d : Dev) : (modGpwr g f d).vrd = d.vrd := rfl
@[simp] theorem modGpwr_tack (g : Nat) (f : GroupPwr → GroupPwr) (d : Dev) : (modGpwr g f d).tack = d.tack := rfl
@[simp] theorem modGpwr_snap (g : Nat) (f : GroupPwr → GroupPwr) (d : Dev) : (modGpwr g f d).snap = d.snap := rfl
@[simp] theorem modGpwr_arrays (g : Nat) (f : GroupPwr → GroupPwr) (d : Dev) : (modGpwr g f d).arrays = d.arrays := rfl
@[simp] theorem modGpwr_groups (g : Nat) (f : GroupPwr → GroupPwr) (d : Dev) : (modGpwr g f d).groups = d.groups := rfl
@[simp] theorem modGpwr_nflag (g : Nat) (f : GroupPwr → GroupPwr) (d : Dev) : (modGpwr g f d).nflag = d.nflag := rfl
@[simp] theorem modGpwr_narrow (g : Nat) (f : GroupPwr → GroupPwr) (d : Dev) : (modGpwr g f d).narrow = d.narrow := rfl
@[simp] theorem modGpwr_curv (g : Nat) (f : GroupPwr → GroupPwr) (d : Dev) : (modGpwr g f d).curv = d.curv := rfl
@[simp] theorem modGpwr_solv (g : Nat) (f : GroupPwr → GroupPwr) (d : Dev) : (modGpwr g f d).solv = d.solv := rfl
@[simp] theorem modGpwr_host (g : Nat) (f : GroupPwr → GroupPwr) (d : Dev) : (modGpwr g f d).host = d.host := rfl
@[simp] theorem modGpwr_freeCtr (g : Nat) (f : GroupPwr → GroupPwr) (d : Dev) : (modGpwr g f d).freeCtr = d.freeCtr := rfl

/-! ## modArr -/

@[simp] theorem modArr_arrays (a : Nat) (f : MArr → MArr) (d : Dev) : (modArr a f d).arrays = modAt f a d.arrays := rfl
@[simp] theorem modArr_pins (a : Nat) (f : MArr → MArr) (d : Dev) : (modArr a f d).pins = d.pins := rfl
@[simp] theorem modArr_dbg (a : Nat) (f : MArr → MArr) (d : Dev) : (modArr a f d).dbg = d.dbg := rfl
@[simp] theorem modArr_fuses (a : Nat) (f : MArr → MArr) (d : Dev) : (modArr a f d).fuses = d.fuses := rfl
@[simp] theorem modArr_flash (a : Nat) (f : MArr → MArr) (d : Dev) : (modArr a f d).flash = d.flash := rfl
@[simp] theorem modArr_fw (a : Nat) (f : MArr → MArr) (d : Dev) : (modArr a f d).fw = d.fw := rfl
@[simp] theorem modArr_pwr (a : Nat) (f : MArr → MArr) (d : Dev) : (modArr a f d).pwr = d.pwr := rfl
@[simp] theorem modArr_gpwr (a : Nat) (f : MArr → MArr) (d : Dev) : (modArr a f d).gpwr = d.gpwr := rfl
@[simp] theorem modArr_hly (a : Nat) (f : MArr → MArr) (d : Dev) : (modArr a f d).hly = d.hly := rfl
@[simp] theorem modArr_evt (a : Nat) (f : MArr → MArr) (d : Dev) : (modArr a f d).evt = d.evt := rfl
@[simp] theorem modArr_irq (a : Nat) (f : MArr → MArr) (d : Dev) : (modArr a f d).irq = d.irq := rfl
@[simp] theorem modArr_cxl (a : Nat) (f : MArr → MArr) (d : Dev) : (modArr a f d).cxl = d.cxl := rfl
@[simp] theorem modArr_gen (a : Nat) (f : MArr → MArr) (d : Dev) : (modArr a f d).gen = d.gen := rfl
@[simp] theorem modArr_ecc (a : Nat) (f : MArr → MArr) (d : Dev) : (modArr a f d).ecc = d.ecc := rfl
@[simp] theorem modArr_integ (a : Nat) (f : MArr → MArr) (d : Dev) : (modArr a f d).integ = d.integ := rfl
@[simp] theorem modArr_gon (a : Nat) (f : MArr → MArr) (d : Dev) : (modArr a f d).gon = d.gon := rfl
@[simp] theorem modArr_wgt (a : Nat) (f : MArr → MArr) (d : Dev) : (modArr a f d).wgt = d.wgt := rfl
@[simp] theorem modArr_plan (a : Nat) (f : MArr → MArr) (d : Dev) : (modArr a f d).plan = d.plan := rfl
@[simp] theorem modArr_tth (a : Nat) (f : MArr → MArr) (d : Dev) : (modArr a f d).tth = d.tth := rfl
@[simp] theorem modArr_vrd (a : Nat) (f : MArr → MArr) (d : Dev) : (modArr a f d).vrd = d.vrd := rfl
@[simp] theorem modArr_tack (a : Nat) (f : MArr → MArr) (d : Dev) : (modArr a f d).tack = d.tack := rfl
@[simp] theorem modArr_snap (a : Nat) (f : MArr → MArr) (d : Dev) : (modArr a f d).snap = d.snap := rfl
@[simp] theorem modArr_groups (a : Nat) (f : MArr → MArr) (d : Dev) : (modArr a f d).groups = d.groups := rfl
@[simp] theorem modArr_nflag (a : Nat) (f : MArr → MArr) (d : Dev) : (modArr a f d).nflag = d.nflag := rfl
@[simp] theorem modArr_narrow (a : Nat) (f : MArr → MArr) (d : Dev) : (modArr a f d).narrow = d.narrow := rfl
@[simp] theorem modArr_curv (a : Nat) (f : MArr → MArr) (d : Dev) : (modArr a f d).curv = d.curv := rfl
@[simp] theorem modArr_solv (a : Nat) (f : MArr → MArr) (d : Dev) : (modArr a f d).solv = d.solv := rfl
@[simp] theorem modArr_host (a : Nat) (f : MArr → MArr) (d : Dev) : (modArr a f d).host = d.host := rfl
@[simp] theorem modArr_freeCtr (a : Nat) (f : MArr → MArr) (d : Dev) : (modArr a f d).freeCtr = d.freeCtr := rfl

/-! ## modGroup -/

@[simp] theorem modGroup_groups (g : Nat) (f : Group → Group) (d : Dev) : (modGroup g f d).groups = modAt f g d.groups := rfl
@[simp] theorem modGroup_pins (g : Nat) (f : Group → Group) (d : Dev) : (modGroup g f d).pins = d.pins := rfl
@[simp] theorem modGroup_dbg (g : Nat) (f : Group → Group) (d : Dev) : (modGroup g f d).dbg = d.dbg := rfl
@[simp] theorem modGroup_fuses (g : Nat) (f : Group → Group) (d : Dev) : (modGroup g f d).fuses = d.fuses := rfl
@[simp] theorem modGroup_flash (g : Nat) (f : Group → Group) (d : Dev) : (modGroup g f d).flash = d.flash := rfl
@[simp] theorem modGroup_fw (g : Nat) (f : Group → Group) (d : Dev) : (modGroup g f d).fw = d.fw := rfl
@[simp] theorem modGroup_pwr (g : Nat) (f : Group → Group) (d : Dev) : (modGroup g f d).pwr = d.pwr := rfl
@[simp] theorem modGroup_gpwr (g : Nat) (f : Group → Group) (d : Dev) : (modGroup g f d).gpwr = d.gpwr := rfl
@[simp] theorem modGroup_hly (g : Nat) (f : Group → Group) (d : Dev) : (modGroup g f d).hly = d.hly := rfl
@[simp] theorem modGroup_evt (g : Nat) (f : Group → Group) (d : Dev) : (modGroup g f d).evt = d.evt := rfl
@[simp] theorem modGroup_irq (g : Nat) (f : Group → Group) (d : Dev) : (modGroup g f d).irq = d.irq := rfl
@[simp] theorem modGroup_cxl (g : Nat) (f : Group → Group) (d : Dev) : (modGroup g f d).cxl = d.cxl := rfl
@[simp] theorem modGroup_gen (g : Nat) (f : Group → Group) (d : Dev) : (modGroup g f d).gen = d.gen := rfl
@[simp] theorem modGroup_ecc (g : Nat) (f : Group → Group) (d : Dev) : (modGroup g f d).ecc = d.ecc := rfl
@[simp] theorem modGroup_integ (g : Nat) (f : Group → Group) (d : Dev) : (modGroup g f d).integ = d.integ := rfl
@[simp] theorem modGroup_gon (g : Nat) (f : Group → Group) (d : Dev) : (modGroup g f d).gon = d.gon := rfl
@[simp] theorem modGroup_wgt (g : Nat) (f : Group → Group) (d : Dev) : (modGroup g f d).wgt = d.wgt := rfl
@[simp] theorem modGroup_plan (g : Nat) (f : Group → Group) (d : Dev) : (modGroup g f d).plan = d.plan := rfl
@[simp] theorem modGroup_tth (g : Nat) (f : Group → Group) (d : Dev) : (modGroup g f d).tth = d.tth := rfl
@[simp] theorem modGroup_vrd (g : Nat) (f : Group → Group) (d : Dev) : (modGroup g f d).vrd = d.vrd := rfl
@[simp] theorem modGroup_tack (g : Nat) (f : Group → Group) (d : Dev) : (modGroup g f d).tack = d.tack := rfl
@[simp] theorem modGroup_snap (g : Nat) (f : Group → Group) (d : Dev) : (modGroup g f d).snap = d.snap := rfl
@[simp] theorem modGroup_arrays (g : Nat) (f : Group → Group) (d : Dev) : (modGroup g f d).arrays = d.arrays := rfl
@[simp] theorem modGroup_nflag (g : Nat) (f : Group → Group) (d : Dev) : (modGroup g f d).nflag = d.nflag := rfl
@[simp] theorem modGroup_narrow (g : Nat) (f : Group → Group) (d : Dev) : (modGroup g f d).narrow = d.narrow := rfl
@[simp] theorem modGroup_curv (g : Nat) (f : Group → Group) (d : Dev) : (modGroup g f d).curv = d.curv := rfl
@[simp] theorem modGroup_solv (g : Nat) (f : Group → Group) (d : Dev) : (modGroup g f d).solv = d.solv := rfl
@[simp] theorem modGroup_host (g : Nat) (f : Group → Group) (d : Dev) : (modGroup g f d).host = d.host := rfl
@[simp] theorem modGroup_freeCtr (g : Nat) (f : Group → Group) (d : Dev) : (modGroup g f d).freeCtr = d.freeCtr := rfl

/-! ## modRun -/

@[simp] theorem modRun_plan (f : Run → Run) (d : Dev) : (modRun f d).plan.run = d.plan.run.map f := rfl
@[simp] theorem modRun_pins (f : Run → Run) (d : Dev) : (modRun f d).pins = d.pins := rfl
@[simp] theorem modRun_dbg (f : Run → Run) (d : Dev) : (modRun f d).dbg = d.dbg := rfl
@[simp] theorem modRun_fuses (f : Run → Run) (d : Dev) : (modRun f d).fuses = d.fuses := rfl
@[simp] theorem modRun_flash (f : Run → Run) (d : Dev) : (modRun f d).flash = d.flash := rfl
@[simp] theorem modRun_fw (f : Run → Run) (d : Dev) : (modRun f d).fw = d.fw := rfl
@[simp] theorem modRun_pwr (f : Run → Run) (d : Dev) : (modRun f d).pwr = d.pwr := rfl
@[simp] theorem modRun_gpwr (f : Run → Run) (d : Dev) : (modRun f d).gpwr = d.gpwr := rfl
@[simp] theorem modRun_hly (f : Run → Run) (d : Dev) : (modRun f d).hly = d.hly := rfl
@[simp] theorem modRun_evt (f : Run → Run) (d : Dev) : (modRun f d).evt = d.evt := rfl
@[simp] theorem modRun_irq (f : Run → Run) (d : Dev) : (modRun f d).irq = d.irq := rfl
@[simp] theorem modRun_cxl (f : Run → Run) (d : Dev) : (modRun f d).cxl = d.cxl := rfl
@[simp] theorem modRun_gen (f : Run → Run) (d : Dev) : (modRun f d).gen = d.gen := rfl
@[simp] theorem modRun_ecc (f : Run → Run) (d : Dev) : (modRun f d).ecc = d.ecc := rfl
@[simp] theorem modRun_integ (f : Run → Run) (d : Dev) : (modRun f d).integ = d.integ := rfl
@[simp] theorem modRun_gon (f : Run → Run) (d : Dev) : (modRun f d).gon = d.gon := rfl
@[simp] theorem modRun_wgt (f : Run → Run) (d : Dev) : (modRun f d).wgt = d.wgt := rfl
@[simp] theorem modRun_tth (f : Run → Run) (d : Dev) : (modRun f d).tth = d.tth := rfl
@[simp] theorem modRun_vrd (f : Run → Run) (d : Dev) : (modRun f d).vrd = d.vrd := rfl
@[simp] theorem modRun_tack (f : Run → Run) (d : Dev) : (modRun f d).tack = d.tack := rfl
@[simp] theorem modRun_snap (f : Run → Run) (d : Dev) : (modRun f d).snap = d.snap := rfl
@[simp] theorem modRun_arrays (f : Run → Run) (d : Dev) : (modRun f d).arrays = d.arrays := rfl
@[simp] theorem modRun_groups (f : Run → Run) (d : Dev) : (modRun f d).groups = d.groups := rfl
@[simp] theorem modRun_nflag (f : Run → Run) (d : Dev) : (modRun f d).nflag = d.nflag := rfl
@[simp] theorem modRun_narrow (f : Run → Run) (d : Dev) : (modRun f d).narrow = d.narrow := rfl
@[simp] theorem modRun_curv (f : Run → Run) (d : Dev) : (modRun f d).curv = d.curv := rfl
@[simp] theorem modRun_solv (f : Run → Run) (d : Dev) : (modRun f d).solv = d.solv := rfl
@[simp] theorem modRun_host (f : Run → Run) (d : Dev) : (modRun f d).host = d.host := rfl
@[simp] theorem modRun_freeCtr (f : Run → Run) (d : Dev) : (modRun f d).freeCtr = d.freeCtr := rfl

/-! ## modSolver -/

@[simp] theorem modSolver_solv (id : Nat) (f : Solver → Solver) (d : Dev) : (modSolver id f d).solv.solvers = d.solv.solvers.map fun s => if s.record.id = id then f s else s := rfl
@[simp] theorem modSolver_pins (id : Nat) (f : Solver → Solver) (d : Dev) : (modSolver id f d).pins = d.pins := rfl
@[simp] theorem modSolver_dbg (id : Nat) (f : Solver → Solver) (d : Dev) : (modSolver id f d).dbg = d.dbg := rfl
@[simp] theorem modSolver_fuses (id : Nat) (f : Solver → Solver) (d : Dev) : (modSolver id f d).fuses = d.fuses := rfl
@[simp] theorem modSolver_flash (id : Nat) (f : Solver → Solver) (d : Dev) : (modSolver id f d).flash = d.flash := rfl
@[simp] theorem modSolver_fw (id : Nat) (f : Solver → Solver) (d : Dev) : (modSolver id f d).fw = d.fw := rfl
@[simp] theorem modSolver_pwr (id : Nat) (f : Solver → Solver) (d : Dev) : (modSolver id f d).pwr = d.pwr := rfl
@[simp] theorem modSolver_gpwr (id : Nat) (f : Solver → Solver) (d : Dev) : (modSolver id f d).gpwr = d.gpwr := rfl
@[simp] theorem modSolver_hly (id : Nat) (f : Solver → Solver) (d : Dev) : (modSolver id f d).hly = d.hly := rfl
@[simp] theorem modSolver_evt (id : Nat) (f : Solver → Solver) (d : Dev) : (modSolver id f d).evt = d.evt := rfl
@[simp] theorem modSolver_irq (id : Nat) (f : Solver → Solver) (d : Dev) : (modSolver id f d).irq = d.irq := rfl
@[simp] theorem modSolver_cxl (id : Nat) (f : Solver → Solver) (d : Dev) : (modSolver id f d).cxl = d.cxl := rfl
@[simp] theorem modSolver_gen (id : Nat) (f : Solver → Solver) (d : Dev) : (modSolver id f d).gen = d.gen := rfl
@[simp] theorem modSolver_ecc (id : Nat) (f : Solver → Solver) (d : Dev) : (modSolver id f d).ecc = d.ecc := rfl
@[simp] theorem modSolver_integ (id : Nat) (f : Solver → Solver) (d : Dev) : (modSolver id f d).integ = d.integ := rfl
@[simp] theorem modSolver_gon (id : Nat) (f : Solver → Solver) (d : Dev) : (modSolver id f d).gon = d.gon := rfl
@[simp] theorem modSolver_wgt (id : Nat) (f : Solver → Solver) (d : Dev) : (modSolver id f d).wgt = d.wgt := rfl
@[simp] theorem modSolver_plan (id : Nat) (f : Solver → Solver) (d : Dev) : (modSolver id f d).plan = d.plan := rfl
@[simp] theorem modSolver_tth (id : Nat) (f : Solver → Solver) (d : Dev) : (modSolver id f d).tth = d.tth := rfl
@[simp] theorem modSolver_vrd (id : Nat) (f : Solver → Solver) (d : Dev) : (modSolver id f d).vrd = d.vrd := rfl
@[simp] theorem modSolver_tack (id : Nat) (f : Solver → Solver) (d : Dev) : (modSolver id f d).tack = d.tack := rfl
@[simp] theorem modSolver_snap (id : Nat) (f : Solver → Solver) (d : Dev) : (modSolver id f d).snap = d.snap := rfl
@[simp] theorem modSolver_arrays (id : Nat) (f : Solver → Solver) (d : Dev) : (modSolver id f d).arrays = d.arrays := rfl
@[simp] theorem modSolver_groups (id : Nat) (f : Solver → Solver) (d : Dev) : (modSolver id f d).groups = d.groups := rfl
@[simp] theorem modSolver_nflag (id : Nat) (f : Solver → Solver) (d : Dev) : (modSolver id f d).nflag = d.nflag := rfl
@[simp] theorem modSolver_narrow (id : Nat) (f : Solver → Solver) (d : Dev) : (modSolver id f d).narrow = d.narrow := rfl
@[simp] theorem modSolver_curv (id : Nat) (f : Solver → Solver) (d : Dev) : (modSolver id f d).curv = d.curv := rfl
@[simp] theorem modSolver_host (id : Nat) (f : Solver → Solver) (d : Dev) : (modSolver id f d).host = d.host := rfl
@[simp] theorem modSolver_freeCtr (id : Nat) (f : Solver → Solver) (d : Dev) : (modSolver id f d).freeCtr = d.freeCtr := rfl

/-! ## modSet -/

@[simp] theorem modSet_curv (id : Nat) (f : RootSet → RootSet) (d : Dev) : (modSet id f d).curv.sets = d.curv.sets.map fun s => if s.record.id = id then f s else s := rfl
@[simp] theorem modSet_pins (id : Nat) (f : RootSet → RootSet) (d : Dev) : (modSet id f d).pins = d.pins := rfl
@[simp] theorem modSet_dbg (id : Nat) (f : RootSet → RootSet) (d : Dev) : (modSet id f d).dbg = d.dbg := rfl
@[simp] theorem modSet_fuses (id : Nat) (f : RootSet → RootSet) (d : Dev) : (modSet id f d).fuses = d.fuses := rfl
@[simp] theorem modSet_flash (id : Nat) (f : RootSet → RootSet) (d : Dev) : (modSet id f d).flash = d.flash := rfl
@[simp] theorem modSet_fw (id : Nat) (f : RootSet → RootSet) (d : Dev) : (modSet id f d).fw = d.fw := rfl
@[simp] theorem modSet_pwr (id : Nat) (f : RootSet → RootSet) (d : Dev) : (modSet id f d).pwr = d.pwr := rfl
@[simp] theorem modSet_gpwr (id : Nat) (f : RootSet → RootSet) (d : Dev) : (modSet id f d).gpwr = d.gpwr := rfl
@[simp] theorem modSet_hly (id : Nat) (f : RootSet → RootSet) (d : Dev) : (modSet id f d).hly = d.hly := rfl
@[simp] theorem modSet_evt (id : Nat) (f : RootSet → RootSet) (d : Dev) : (modSet id f d).evt = d.evt := rfl
@[simp] theorem modSet_irq (id : Nat) (f : RootSet → RootSet) (d : Dev) : (modSet id f d).irq = d.irq := rfl
@[simp] theorem modSet_cxl (id : Nat) (f : RootSet → RootSet) (d : Dev) : (modSet id f d).cxl = d.cxl := rfl
@[simp] theorem modSet_gen (id : Nat) (f : RootSet → RootSet) (d : Dev) : (modSet id f d).gen = d.gen := rfl
@[simp] theorem modSet_ecc (id : Nat) (f : RootSet → RootSet) (d : Dev) : (modSet id f d).ecc = d.ecc := rfl
@[simp] theorem modSet_integ (id : Nat) (f : RootSet → RootSet) (d : Dev) : (modSet id f d).integ = d.integ := rfl
@[simp] theorem modSet_gon (id : Nat) (f : RootSet → RootSet) (d : Dev) : (modSet id f d).gon = d.gon := rfl
@[simp] theorem modSet_wgt (id : Nat) (f : RootSet → RootSet) (d : Dev) : (modSet id f d).wgt = d.wgt := rfl
@[simp] theorem modSet_plan (id : Nat) (f : RootSet → RootSet) (d : Dev) : (modSet id f d).plan = d.plan := rfl
@[simp] theorem modSet_tth (id : Nat) (f : RootSet → RootSet) (d : Dev) : (modSet id f d).tth = d.tth := rfl
@[simp] theorem modSet_vrd (id : Nat) (f : RootSet → RootSet) (d : Dev) : (modSet id f d).vrd = d.vrd := rfl
@[simp] theorem modSet_tack (id : Nat) (f : RootSet → RootSet) (d : Dev) : (modSet id f d).tack = d.tack := rfl
@[simp] theorem modSet_snap (id : Nat) (f : RootSet → RootSet) (d : Dev) : (modSet id f d).snap = d.snap := rfl
@[simp] theorem modSet_arrays (id : Nat) (f : RootSet → RootSet) (d : Dev) : (modSet id f d).arrays = d.arrays := rfl
@[simp] theorem modSet_groups (id : Nat) (f : RootSet → RootSet) (d : Dev) : (modSet id f d).groups = d.groups := rfl
@[simp] theorem modSet_nflag (id : Nat) (f : RootSet → RootSet) (d : Dev) : (modSet id f d).nflag = d.nflag := rfl
@[simp] theorem modSet_narrow (id : Nat) (f : RootSet → RootSet) (d : Dev) : (modSet id f d).narrow = d.narrow := rfl
@[simp] theorem modSet_solv (id : Nat) (f : RootSet → RootSet) (d : Dev) : (modSet id f d).solv = d.solv := rfl
@[simp] theorem modSet_host (id : Nat) (f : RootSet → RootSet) (d : Dev) : (modSet id f d).host = d.host := rfl
@[simp] theorem modSet_freeCtr (id : Nat) (f : RootSet → RootSet) (d : Dev) : (modSet id f d).freeCtr = d.freeCtr := rfl

/-! ## modPort -/

@[simp] theorem modPort_tth (p : Nat) (f : Port → Port) (d : Dev) : (modPort p f d).tth.ports = modAt f p d.tth.ports := rfl
@[simp] theorem modPort_pins (p : Nat) (f : Port → Port) (d : Dev) : (modPort p f d).pins = d.pins := rfl
@[simp] theorem modPort_dbg (p : Nat) (f : Port → Port) (d : Dev) : (modPort p f d).dbg = d.dbg := rfl
@[simp] theorem modPort_fuses (p : Nat) (f : Port → Port) (d : Dev) : (modPort p f d).fuses = d.fuses := rfl
@[simp] theorem modPort_flash (p : Nat) (f : Port → Port) (d : Dev) : (modPort p f d).flash = d.flash := rfl
@[simp] theorem modPort_fw (p : Nat) (f : Port → Port) (d : Dev) : (modPort p f d).fw = d.fw := rfl
@[simp] theorem modPort_pwr (p : Nat) (f : Port → Port) (d : Dev) : (modPort p f d).pwr = d.pwr := rfl
@[simp] theorem modPort_gpwr (p : Nat) (f : Port → Port) (d : Dev) : (modPort p f d).gpwr = d.gpwr := rfl
@[simp] theorem modPort_hly (p : Nat) (f : Port → Port) (d : Dev) : (modPort p f d).hly = d.hly := rfl
@[simp] theorem modPort_evt (p : Nat) (f : Port → Port) (d : Dev) : (modPort p f d).evt = d.evt := rfl
@[simp] theorem modPort_irq (p : Nat) (f : Port → Port) (d : Dev) : (modPort p f d).irq = d.irq := rfl
@[simp] theorem modPort_cxl (p : Nat) (f : Port → Port) (d : Dev) : (modPort p f d).cxl = d.cxl := rfl
@[simp] theorem modPort_gen (p : Nat) (f : Port → Port) (d : Dev) : (modPort p f d).gen = d.gen := rfl
@[simp] theorem modPort_ecc (p : Nat) (f : Port → Port) (d : Dev) : (modPort p f d).ecc = d.ecc := rfl
@[simp] theorem modPort_integ (p : Nat) (f : Port → Port) (d : Dev) : (modPort p f d).integ = d.integ := rfl
@[simp] theorem modPort_gon (p : Nat) (f : Port → Port) (d : Dev) : (modPort p f d).gon = d.gon := rfl
@[simp] theorem modPort_wgt (p : Nat) (f : Port → Port) (d : Dev) : (modPort p f d).wgt = d.wgt := rfl
@[simp] theorem modPort_plan (p : Nat) (f : Port → Port) (d : Dev) : (modPort p f d).plan = d.plan := rfl
@[simp] theorem modPort_vrd (p : Nat) (f : Port → Port) (d : Dev) : (modPort p f d).vrd = d.vrd := rfl
@[simp] theorem modPort_tack (p : Nat) (f : Port → Port) (d : Dev) : (modPort p f d).tack = d.tack := rfl
@[simp] theorem modPort_snap (p : Nat) (f : Port → Port) (d : Dev) : (modPort p f d).snap = d.snap := rfl
@[simp] theorem modPort_arrays (p : Nat) (f : Port → Port) (d : Dev) : (modPort p f d).arrays = d.arrays := rfl
@[simp] theorem modPort_groups (p : Nat) (f : Port → Port) (d : Dev) : (modPort p f d).groups = d.groups := rfl
@[simp] theorem modPort_nflag (p : Nat) (f : Port → Port) (d : Dev) : (modPort p f d).nflag = d.nflag := rfl
@[simp] theorem modPort_narrow (p : Nat) (f : Port → Port) (d : Dev) : (modPort p f d).narrow = d.narrow := rfl
@[simp] theorem modPort_curv (p : Nat) (f : Port → Port) (d : Dev) : (modPort p f d).curv = d.curv := rfl
@[simp] theorem modPort_solv (p : Nat) (f : Port → Port) (d : Dev) : (modPort p f d).solv = d.solv := rfl
@[simp] theorem modPort_host (p : Nat) (f : Port → Port) (d : Dev) : (modPort p f d).host = d.host := rfl
@[simp] theorem modPort_freeCtr (p : Nat) (f : Port → Port) (d : Dev) : (modPort p f d).freeCtr = d.freeCtr := rfl

/-! ## modSession -/

@[simp] theorem modSession_wgt (i : Nat) (f : Session → Session) (d : Dev) : (modSession i f d).wgt.sessions = modAt f i d.wgt.sessions := rfl
@[simp] theorem modSession_pins (i : Nat) (f : Session → Session) (d : Dev) : (modSession i f d).pins = d.pins := rfl
@[simp] theorem modSession_dbg (i : Nat) (f : Session → Session) (d : Dev) : (modSession i f d).dbg = d.dbg := rfl
@[simp] theorem modSession_fuses (i : Nat) (f : Session → Session) (d : Dev) : (modSession i f d).fuses = d.fuses := rfl
@[simp] theorem modSession_flash (i : Nat) (f : Session → Session) (d : Dev) : (modSession i f d).flash = d.flash := rfl
@[simp] theorem modSession_fw (i : Nat) (f : Session → Session) (d : Dev) : (modSession i f d).fw = d.fw := rfl
@[simp] theorem modSession_pwr (i : Nat) (f : Session → Session) (d : Dev) : (modSession i f d).pwr = d.pwr := rfl
@[simp] theorem modSession_gpwr (i : Nat) (f : Session → Session) (d : Dev) : (modSession i f d).gpwr = d.gpwr := rfl
@[simp] theorem modSession_hly (i : Nat) (f : Session → Session) (d : Dev) : (modSession i f d).hly = d.hly := rfl
@[simp] theorem modSession_evt (i : Nat) (f : Session → Session) (d : Dev) : (modSession i f d).evt = d.evt := rfl
@[simp] theorem modSession_irq (i : Nat) (f : Session → Session) (d : Dev) : (modSession i f d).irq = d.irq := rfl
@[simp] theorem modSession_cxl (i : Nat) (f : Session → Session) (d : Dev) : (modSession i f d).cxl = d.cxl := rfl
@[simp] theorem modSession_gen (i : Nat) (f : Session → Session) (d : Dev) : (modSession i f d).gen = d.gen := rfl
@[simp] theorem modSession_ecc (i : Nat) (f : Session → Session) (d : Dev) : (modSession i f d).ecc = d.ecc := rfl
@[simp] theorem modSession_integ (i : Nat) (f : Session → Session) (d : Dev) : (modSession i f d).integ = d.integ := rfl
@[simp] theorem modSession_gon (i : Nat) (f : Session → Session) (d : Dev) : (modSession i f d).gon = d.gon := rfl
@[simp] theorem modSession_plan (i : Nat) (f : Session → Session) (d : Dev) : (modSession i f d).plan = d.plan := rfl
@[simp] theorem modSession_tth (i : Nat) (f : Session → Session) (d : Dev) : (modSession i f d).tth = d.tth := rfl
@[simp] theorem modSession_vrd (i : Nat) (f : Session → Session) (d : Dev) : (modSession i f d).vrd = d.vrd := rfl
@[simp] theorem modSession_tack (i : Nat) (f : Session → Session) (d : Dev) : (modSession i f d).tack = d.tack := rfl
@[simp] theorem modSession_snap (i : Nat) (f : Session → Session) (d : Dev) : (modSession i f d).snap = d.snap := rfl
@[simp] theorem modSession_arrays (i : Nat) (f : Session → Session) (d : Dev) : (modSession i f d).arrays = d.arrays := rfl
@[simp] theorem modSession_groups (i : Nat) (f : Session → Session) (d : Dev) : (modSession i f d).groups = d.groups := rfl
@[simp] theorem modSession_nflag (i : Nat) (f : Session → Session) (d : Dev) : (modSession i f d).nflag = d.nflag := rfl
@[simp] theorem modSession_narrow (i : Nat) (f : Session → Session) (d : Dev) : (modSession i f d).narrow = d.narrow := rfl
@[simp] theorem modSession_curv (i : Nat) (f : Session → Session) (d : Dev) : (modSession i f d).curv = d.curv := rfl
@[simp] theorem modSession_solv (i : Nat) (f : Session → Session) (d : Dev) : (modSession i f d).solv = d.solv := rfl
@[simp] theorem modSession_host (i : Nat) (f : Session → Session) (d : Dev) : (modSession i f d).host = d.host := rfl
@[simp] theorem modSession_freeCtr (i : Nat) (f : Session → Session) (d : Dev) : (modSession i f d).freeCtr = d.freeCtr := rfl

end Sys2Proof.Machine
end

