-- ==== Sys2Proof/Laws/Reports.lean ====
section
/-! SUPPORT. What reports, interrupts and completions can change: the halyard, the event ring, the interrupt registers and host
memory. -/

namespace Sys2Proof.Machine

/-- Nothing changed. -/
theorem ReportsOnly.rfl' (d : Dev) : ReportsOnly d d := rfl

/-- Reporting parts replaced. -/
theorem ReportsOnly.of (d : Dev) (h : Hly) (e : Evt) (i : Irq) (o : Mem) :
    ReportsOnly d { d with hly := h, evt := e, irq := i, host := o } := rfl

/-- Two changes of reporting parts after one another. -/
theorem ReportsOnly.trans {a b c : Dev} (h : ReportsOnly a b) (g : ReportsOnly b c) : ReportsOnly a c := by
  unfold ReportsOnly at *
  rw [g, h]

/-- A raised cause on top of such a change. -/
theorem ReportsOnly.raiseIf {d x : Dev} (h : ReportsOnly d x) (c : Prop) [Decidable c] (b : BitVec 10) :
    ReportsOnly d (if c then raise b x else x) := by
  split
  · exact h.trans rfl
  · exact h

theorem ReportsOnly.pins {a b : Dev} (h : ReportsOnly a b) : b.pins = a.pins := by rw [h]
theorem ReportsOnly.dbg {a b : Dev} (h : ReportsOnly a b) : b.dbg = a.dbg := by rw [h]
theorem ReportsOnly.fuses {a b : Dev} (h : ReportsOnly a b) : b.fuses = a.fuses := by rw [h]
theorem ReportsOnly.flash {a b : Dev} (h : ReportsOnly a b) : b.flash = a.flash := by rw [h]
theorem ReportsOnly.fw {a b : Dev} (h : ReportsOnly a b) : b.fw = a.fw := by rw [h]
theorem ReportsOnly.pwr {a b : Dev} (h : ReportsOnly a b) : b.pwr = a.pwr := by rw [h]
theorem ReportsOnly.gpwr {a b : Dev} (h : ReportsOnly a b) : b.gpwr = a.gpwr := by rw [h]
theorem ReportsOnly.cxl {a b : Dev} (h : ReportsOnly a b) : b.cxl = a.cxl := by rw [h]
theorem ReportsOnly.gen {a b : Dev} (h : ReportsOnly a b) : b.gen = a.gen := by rw [h]
theorem ReportsOnly.ecc {a b : Dev} (h : ReportsOnly a b) : b.ecc = a.ecc := by rw [h]
theorem ReportsOnly.integ {a b : Dev} (h : ReportsOnly a b) : b.integ = a.integ := by rw [h]
theorem ReportsOnly.gon {a b : Dev} (h : ReportsOnly a b) : b.gon = a.gon := by rw [h]
theorem ReportsOnly.wgt {a b : Dev} (h : ReportsOnly a b) : b.wgt = a.wgt := by rw [h]
theorem ReportsOnly.plan {a b : Dev} (h : ReportsOnly a b) : b.plan = a.plan := by rw [h]
theorem ReportsOnly.tth {a b : Dev} (h : ReportsOnly a b) : b.tth = a.tth := by rw [h]
theorem ReportsOnly.vrd {a b : Dev} (h : ReportsOnly a b) : b.vrd = a.vrd := by rw [h]
theorem ReportsOnly.tack {a b : Dev} (h : ReportsOnly a b) : b.tack = a.tack := by rw [h]
theorem ReportsOnly.snap {a b : Dev} (h : ReportsOnly a b) : b.snap = a.snap := by rw [h]
theorem ReportsOnly.arrays {a b : Dev} (h : ReportsOnly a b) : b.arrays = a.arrays := by rw [h]
theorem ReportsOnly.groups {a b : Dev} (h : ReportsOnly a b) : b.groups = a.groups := by rw [h]
theorem ReportsOnly.nflag {a b : Dev} (h : ReportsOnly a b) : b.nflag = a.nflag := by rw [h]
theorem ReportsOnly.narrow {a b : Dev} (h : ReportsOnly a b) : b.narrow = a.narrow := by rw [h]
theorem ReportsOnly.curv {a b : Dev} (h : ReportsOnly a b) : b.curv = a.curv := by rw [h]
theorem ReportsOnly.solv {a b : Dev} (h : ReportsOnly a b) : b.solv = a.solv := by rw [h]
theorem ReportsOnly.freeCtr {a b : Dev} (h : ReportsOnly a b) : b.freeCtr = a.freeCtr := by rw [h]

/-- Raising an interrupt cause changes the interrupt registers alone. -/
theorem raise_reports (b : BitVec 10) (d : Dev) : ReportsOnly d (raise b d) := rfl

/-- Writing an event record. -/
theorem evtWrite_reports (r : BitVec 256) (d : Dev) : ReportsOnly d (evtWrite r d) := by
  unfold evtWrite
  exact ReportsOnly.raiseIf (ReportsOnly.of d _ _ _ _) _ _

/-- Dropping an event record. -/
theorem evtDropped_reports (d : Dev) : ReportsOnly d (evtDropped d) := rfl

/-- Delivering a record. -/
theorem deliver_reports (d : Dev) (w : BitVec 256) : ReportsOnly d (deliver d w) := by
  unfold deliver
  dsimp only
  split
  · rfl
  · split
    · rfl
    · split <;> split
      · exact ReportsOnly.trans
          (b := { d with evt := { d.evt with fatal := true, held := d.evt.held.filter fun h => recClass h = clsFatal } }) rfl
          (evtWrite_reports _ _)
      · rfl
      · exact evtWrite_reports _ _
      · split <;> rfl

/-- A fold of changes of reporting parts. -/
theorem ReportsOnly.foldl {α : Type} {f : Dev → α → Dev} (h : ∀ x a, ReportsOnly x (f x a)) (l : List α) (d : Dev) :
    ReportsOnly d (l.foldl f d) := by
  induction l generalizing d with
  | nil => rfl
  | cons a t ih => exact (h d a).trans (ih _)

/-- Delivering the records of a watch cycle. -/
theorem deliverAll_reports (d : Dev) : ReportsOnly d (deliverAll d) :=
  ReportsOnly.trans (b := { d with evt := { d.evt with wait := [] } }) rfl (ReportsOnly.foldl deliver_reports _ _)

/-- Further reports of the last fault. -/
theorem also_reports (rs : List Rep) (d : Dev) : ReportsOnly d (also rs d) := ReportsOnly.foldl (f := arise) (fun _ _ => rfl) _ _

/-- The reports of one fault arise. -/
theorem fault_reports (rs : List Rep) (d : Dev) : ReportsOnly d (fault rs d) := by
  unfold fault
  split
  · rfl
  · exact ReportsOnly.trans (b := newFault d) rfl (also_reports _ _)

/-- A NOTE. -/
theorem note_reports (b e s a : Nat) (d : Dev) : ReportsOnly d (note b e s a d) := fault_reports _ d

/-- Writing held event records. -/
theorem evtDrain_reports (n : Nat) (d : Dev) : ReportsOnly d (evtDrain n d) := by
  induction n generalizing d with
  | zero => rfl
  | succ n ih =>
    have step (e : Evt) (w : BitVec 256) : ReportsOnly d (evtDrain n (evtWrite w { d with evt := e })) :=
      ((ReportsOnly.of d d.hly e d.irq d.host).trans (evtWrite_reports _ _)).trans (ih _)
    unfold evtDrain
    split
    · split
      · exact step _ _
      · rfl
    · split
      · rfl
      · split
        · exact step _ _
        · rfl

/-- Writing a completion. -/
theorem cqWrite_reports (n : Nat) (r : BitVec 256) (b : Bool) (d : Dev) : ReportsOnly d (cqWrite n r b d) := by
  unfold cqWrite
  split
  · rfl
  · exact ReportsOnly.raiseIf (ReportsOnly.of d _ _ _ _) _ _

/-- Posting a completion. -/
theorem post_reports (n : Nat) (r : BitVec 256) (b : Bool) (d : Dev) : ReportsOnly d (post n r b d) := by
  unfold post
  split
  · rfl
  · split
    · rfl
    · split
      · exact cqWrite_reports _ _ _ _
      · rfl

/-- Ending a command. -/
theorem finish_reports (n o : Nat) (desc : BitVec 512) (a : Ans) (d : Dev) : ReportsOnly d (finish n o desc a d) :=
  ReportsOnly.trans (b := modRing n (fun r => { r with inProg := r.inProg.filter fun e => e.1 ≠ o }) d) rfl (post_reports _ _ _ _)

/-- Ending a command by its TAG. -/
theorem completeTag_reports (n tag opc : Nat) (a : Ans) (d : Dev) : ReportsOnly d (completeTag n tag opc a d) := by
  unfold completeTag
  split
  · rfl
  · split
    · rfl
    · exact finish_reports _ _ _ _ _

@[simp] theorem raise_pins (b : BitVec 10) (d : Dev) : (raise b d).pins = d.pins := (raise_reports b d).pins
@[simp] theorem raise_dbg (b : BitVec 10) (d : Dev) : (raise b d).dbg = d.dbg := (raise_reports b d).dbg
@[simp] theorem raise_fuses (b : BitVec 10) (d : Dev) : (raise b d).fuses = d.fuses := (raise_reports b d).fuses
@[simp] theorem raise_flash (b : BitVec 10) (d : Dev) : (raise b d).flash = d.flash := (raise_reports b d).flash
@[simp] theorem raise_fw (b : BitVec 10) (d : Dev) : (raise b d).fw = d.fw := (raise_reports b d).fw
@[simp] theorem raise_pwr (b : BitVec 10) (d : Dev) : (raise b d).pwr = d.pwr := (raise_reports b d).pwr
@[simp] theorem raise_gpwr (b : BitVec 10) (d : Dev) : (raise b d).gpwr = d.gpwr := (raise_reports b d).gpwr
@[simp] theorem raise_cxl (b : BitVec 10) (d : Dev) : (raise b d).cxl = d.cxl := (raise_reports b d).cxl
@[simp] theorem raise_gen (b : BitVec 10) (d : Dev) : (raise b d).gen = d.gen := (raise_reports b d).gen
@[simp] theorem raise_ecc (b : BitVec 10) (d : Dev) : (raise b d).ecc = d.ecc := (raise_reports b d).ecc
@[simp] theorem raise_integ (b : BitVec 10) (d : Dev) : (raise b d).integ = d.integ := (raise_reports b d).integ
@[simp] theorem raise_gon (b : BitVec 10) (d : Dev) : (raise b d).gon = d.gon := (raise_reports b d).gon
@[simp] theorem raise_wgt (b : BitVec 10) (d : Dev) : (raise b d).wgt = d.wgt := (raise_reports b d).wgt
@[simp] theorem raise_plan (b : BitVec 10) (d : Dev) : (raise b d).plan = d.plan := (raise_reports b d).plan
@[simp] theorem raise_tth (b : BitVec 10) (d : Dev) : (raise b d).tth = d.tth := (raise_reports b d).tth
@[simp] theorem raise_vrd (b : BitVec 10) (d : Dev) : (raise b d).vrd = d.vrd := (raise_reports b d).vrd
@[simp] theorem raise_tack (b : BitVec 10) (d : Dev) : (raise b d).tack = d.tack := (raise_reports b d).tack
@[simp] theorem raise_snap (b : BitVec 10) (d : Dev) : (raise b d).snap = d.snap := (raise_reports b d).snap
@[simp] theorem raise_arrays (b : BitVec 10) (d : Dev) : (raise b d).arrays = d.arrays := (raise_reports b d).arrays
@[simp] theorem raise_groups (b : BitVec 10) (d : Dev) : (raise b d).groups = d.groups := (raise_reports b d).groups
@[simp] theorem raise_nflag (b : BitVec 10) (d : Dev) : (raise b d).nflag = d.nflag := (raise_reports b d).nflag
@[simp] theorem raise_narrow (b : BitVec 10) (d : Dev) : (raise b d).narrow = d.narrow := (raise_reports b d).narrow
@[simp] theorem raise_curv (b : BitVec 10) (d : Dev) : (raise b d).curv = d.curv := (raise_reports b d).curv
@[simp] theorem raise_solv (b : BitVec 10) (d : Dev) : (raise b d).solv = d.solv := (raise_reports b d).solv
@[simp] theorem raise_freeCtr (b : BitVec 10) (d : Dev) : (raise b d).freeCtr = d.freeCtr := (raise_reports b d).freeCtr

@[simp] theorem fault_pins (rs : List Rep) (d : Dev) : (fault rs d).pins = d.pins := (fault_reports rs d).pins
@[simp] theorem fault_dbg (rs : List Rep) (d : Dev) : (fault rs d).dbg = d.dbg := (fault_reports rs d).dbg
@[simp] theorem fault_fuses (rs : List Rep) (d : Dev) : (fault rs d).fuses = d.fuses := (fault_reports rs d).fuses
@[simp] theorem fault_flash (rs : List Rep) (d : Dev) : (fault rs d).flash = d.flash := (fault_reports rs d).flash
@[simp] theorem fault_fw (rs : List Rep) (d : Dev) : (fault rs d).fw = d.fw := (fault_reports rs d).fw
@[simp] theorem fault_pwr (rs : List Rep) (d : Dev) : (fault rs d).pwr = d.pwr := (fault_reports rs d).pwr
@[simp] theorem fault_gpwr (rs : List Rep) (d : Dev) : (fault rs d).gpwr = d.gpwr := (fault_reports rs d).gpwr
@[simp] theorem fault_cxl (rs : List Rep) (d : Dev) : (fault rs d).cxl = d.cxl := (fault_reports rs d).cxl
@[simp] theorem fault_gen (rs : List Rep) (d : Dev) : (fault rs d).gen = d.gen := (fault_reports rs d).gen
@[simp] theorem fault_ecc (rs : List Rep) (d : Dev) : (fault rs d).ecc = d.ecc := (fault_reports rs d).ecc
@[simp] theorem fault_integ (rs : List Rep) (d : Dev) : (fault rs d).integ = d.integ := (fault_reports rs d).integ
@[simp] theorem fault_gon (rs : List Rep) (d : Dev) : (fault rs d).gon = d.gon := (fault_reports rs d).gon
@[simp] theorem fault_wgt (rs : List Rep) (d : Dev) : (fault rs d).wgt = d.wgt := (fault_reports rs d).wgt
@[simp] theorem fault_plan (rs : List Rep) (d : Dev) : (fault rs d).plan = d.plan := (fault_reports rs d).plan
@[simp] theorem fault_tth (rs : List Rep) (d : Dev) : (fault rs d).tth = d.tth := (fault_reports rs d).tth
@[simp] theorem fault_vrd (rs : List Rep) (d : Dev) : (fault rs d).vrd = d.vrd := (fault_reports rs d).vrd
@[simp] theorem fault_tack (rs : List Rep) (d : Dev) : (fault rs d).tack = d.tack := (fault_reports rs d).tack
@[simp] theorem fault_snap (rs : List Rep) (d : Dev) : (fault rs d).snap = d.snap := (fault_reports rs d).snap
@[simp] theorem fault_arrays (rs : List Rep) (d : Dev) : (fault rs d).arrays = d.arrays := (fault_reports rs d).arrays
@[simp] theorem fault_groups (rs : List Rep) (d : Dev) : (fault rs d).groups = d.groups := (fault_reports rs d).groups
@[simp] theorem fault_nflag (rs : List Rep) (d : Dev) : (fault rs d).nflag = d.nflag := (fault_reports rs d).nflag
@[simp] theorem fault_narrow (rs : List Rep) (d : Dev) : (fault rs d).narrow = d.narrow := (fault_reports rs d).narrow
@[simp] theorem fault_curv (rs : List Rep) (d : Dev) : (fault rs d).curv = d.curv := (fault_reports rs d).curv
@[simp] theorem fault_solv (rs : List Rep) (d : Dev) : (fault rs d).solv = d.solv := (fault_reports rs d).solv
@[simp] theorem fault_freeCtr (rs : List Rep) (d : Dev) : (fault rs d).freeCtr = d.freeCtr := (fault_reports rs d).freeCtr

@[simp] theorem note_pins (b e s a : Nat) (d : Dev) : (note b e s a d).pins = d.pins := (note_reports b e s a d).pins
@[simp] theorem note_dbg (b e s a : Nat) (d : Dev) : (note b e s a d).dbg = d.dbg := (note_reports b e s a d).dbg
@[simp] theorem note_fuses (b e s a : Nat) (d : Dev) : (note b e s a d).fuses = d.fuses := (note_reports b e s a d).fuses
@[simp] theorem note_flash (b e s a : Nat) (d : Dev) : (note b e s a d).flash = d.flash := (note_reports b e s a d).flash
@[simp] theorem note_fw (b e s a : Nat) (d : Dev) : (note b e s a d).fw = d.fw := (note_reports b e s a d).fw
@[simp] theorem note_pwr (b e s a : Nat) (d : Dev) : (note b e s a d).pwr = d.pwr := (note_reports b e s a d).pwr
@[simp] theorem note_gpwr (b e s a : Nat) (d : Dev) : (note b e s a d).gpwr = d.gpwr := (note_reports b e s a d).gpwr
@[simp] theorem note_cxl (b e s a : Nat) (d : Dev) : (note b e s a d).cxl = d.cxl := (note_reports b e s a d).cxl
@[simp] theorem note_gen (b e s a : Nat) (d : Dev) : (note b e s a d).gen = d.gen := (note_reports b e s a d).gen
@[simp] theorem note_ecc (b e s a : Nat) (d : Dev) : (note b e s a d).ecc = d.ecc := (note_reports b e s a d).ecc
@[simp] theorem note_integ (b e s a : Nat) (d : Dev) : (note b e s a d).integ = d.integ := (note_reports b e s a d).integ
@[simp] theorem note_gon (b e s a : Nat) (d : Dev) : (note b e s a d).gon = d.gon := (note_reports b e s a d).gon
@[simp] theorem note_wgt (b e s a : Nat) (d : Dev) : (note b e s a d).wgt = d.wgt := (note_reports b e s a d).wgt
@[simp] theorem note_plan (b e s a : Nat) (d : Dev) : (note b e s a d).plan = d.plan := (note_reports b e s a d).plan
@[simp] theorem note_tth (b e s a : Nat) (d : Dev) : (note b e s a d).tth = d.tth := (note_reports b e s a d).tth
@[simp] theorem note_vrd (b e s a : Nat) (d : Dev) : (note b e s a d).vrd = d.vrd := (note_reports b e s a d).vrd
@[simp] theorem note_tack (b e s a : Nat) (d : Dev) : (note b e s a d).tack = d.tack := (note_reports b e s a d).tack
@[simp] theorem note_snap (b e s a : Nat) (d : Dev) : (note b e s a d).snap = d.snap := (note_reports b e s a d).snap
@[simp] theorem note_arrays (b e s a : Nat) (d : Dev) : (note b e s a d).arrays = d.arrays := (note_reports b e s a d).arrays
@[simp] theorem note_groups (b e s a : Nat) (d : Dev) : (note b e s a d).groups = d.groups := (note_reports b e s a d).groups
@[simp] theorem note_nflag (b e s a : Nat) (d : Dev) : (note b e s a d).nflag = d.nflag := (note_reports b e s a d).nflag
@[simp] theorem note_narrow (b e s a : Nat) (d : Dev) : (note b e s a d).narrow = d.narrow := (note_reports b e s a d).narrow
@[simp] theorem note_curv (b e s a : Nat) (d : Dev) : (note b e s a d).curv = d.curv := (note_reports b e s a d).curv
@[simp] theorem note_solv (b e s a : Nat) (d : Dev) : (note b e s a d).solv = d.solv := (note_reports b e s a d).solv
@[simp] theorem note_freeCtr (b e s a : Nat) (d : Dev) : (note b e s a d).freeCtr = d.freeCtr := (note_reports b e s a d).freeCtr

@[simp] theorem evtDrain_pins (n : Nat) (d : Dev) : (evtDrain n d).pins = d.pins := (evtDrain_reports n d).pins
@[simp] theorem evtDrain_dbg (n : Nat) (d : Dev) : (evtDrain n d).dbg = d.dbg := (evtDrain_reports n d).dbg
@[simp] theorem evtDrain_fuses (n : Nat) (d : Dev) : (evtDrain n d).fuses = d.fuses := (evtDrain_reports n d).fuses
@[simp] theorem evtDrain_flash (n : Nat) (d : Dev) : (evtDrain n d).flash = d.flash := (evtDrain_reports n d).flash
@[simp] theorem evtDrain_fw (n : Nat) (d : Dev) : (evtDrain n d).fw = d.fw := (evtDrain_reports n d).fw
@[simp] theorem evtDrain_pwr (n : Nat) (d : Dev) : (evtDrain n d).pwr = d.pwr := (evtDrain_reports n d).pwr
@[simp] theorem evtDrain_gpwr (n : Nat) (d : Dev) : (evtDrain n d).gpwr = d.gpwr := (evtDrain_reports n d).gpwr
@[simp] theorem evtDrain_cxl (n : Nat) (d : Dev) : (evtDrain n d).cxl = d.cxl := (evtDrain_reports n d).cxl
@[simp] theorem evtDrain_gen (n : Nat) (d : Dev) : (evtDrain n d).gen = d.gen := (evtDrain_reports n d).gen
@[simp] theorem evtDrain_ecc (n : Nat) (d : Dev) : (evtDrain n d).ecc = d.ecc := (evtDrain_reports n d).ecc
@[simp] theorem evtDrain_integ (n : Nat) (d : Dev) : (evtDrain n d).integ = d.integ := (evtDrain_reports n d).integ
@[simp] theorem evtDrain_gon (n : Nat) (d : Dev) : (evtDrain n d).gon = d.gon := (evtDrain_reports n d).gon
@[simp] theorem evtDrain_wgt (n : Nat) (d : Dev) : (evtDrain n d).wgt = d.wgt := (evtDrain_reports n d).wgt
@[simp] theorem evtDrain_plan (n : Nat) (d : Dev) : (evtDrain n d).plan = d.plan := (evtDrain_reports n d).plan
@[simp] theorem evtDrain_tth (n : Nat) (d : Dev) : (evtDrain n d).tth = d.tth := (evtDrain_reports n d).tth
@[simp] theorem evtDrain_vrd (n : Nat) (d : Dev) : (evtDrain n d).vrd = d.vrd := (evtDrain_reports n d).vrd
@[simp] theorem evtDrain_tack (n : Nat) (d : Dev) : (evtDrain n d).tack = d.tack := (evtDrain_reports n d).tack
@[simp] theorem evtDrain_snap (n : Nat) (d : Dev) : (evtDrain n d).snap = d.snap := (evtDrain_reports n d).snap
@[simp] theorem evtDrain_arrays (n : Nat) (d : Dev) : (evtDrain n d).arrays = d.arrays := (evtDrain_reports n d).arrays
@[simp] theorem evtDrain_groups (n : Nat) (d : Dev) : (evtDrain n d).groups = d.groups := (evtDrain_reports n d).groups
@[simp] theorem evtDrain_nflag (n : Nat) (d : Dev) : (evtDrain n d).nflag = d.nflag := (evtDrain_reports n d).nflag
@[simp] theorem evtDrain_narrow (n : Nat) (d : Dev) : (evtDrain n d).narrow = d.narrow := (evtDrain_reports n d).narrow
@[simp] theorem evtDrain_curv (n : Nat) (d : Dev) : (evtDrain n d).curv = d.curv := (evtDrain_reports n d).curv
@[simp] theorem evtDrain_solv (n : Nat) (d : Dev) : (evtDrain n d).solv = d.solv := (evtDrain_reports n d).solv
@[simp] theorem evtDrain_freeCtr (n : Nat) (d : Dev) : (evtDrain n d).freeCtr = d.freeCtr := (evtDrain_reports n d).freeCtr

@[simp] theorem post_pins (n : Nat) (r : BitVec 256) (b : Bool) (d : Dev) : (post n r b d).pins = d.pins := (post_reports n r b d).pins
@[simp] theorem post_dbg (n : Nat) (r : BitVec 256) (b : Bool) (d : Dev) : (post n r b d).dbg = d.dbg := (post_reports n r b d).dbg
@[simp] theorem post_fuses (n : Nat) (r : BitVec 256) (b : Bool) (d : Dev) : (post n r b d).fuses = d.fuses := (post_reports n r b d).fuses
@[simp] theorem post_flash (n : Nat) (r : BitVec 256) (b : Bool) (d : Dev) : (post n r b d).flash = d.flash := (post_reports n r b d).flash
@[simp] theorem post_fw (n : Nat) (r : BitVec 256) (b : Bool) (d : Dev) : (post n r b d).fw = d.fw := (post_reports n r b d).fw
@[simp] theorem post_pwr (n : Nat) (r : BitVec 256) (b : Bool) (d : Dev) : (post n r b d).pwr = d.pwr := (post_reports n r b d).pwr
@[simp] theorem post_gpwr (n : Nat) (r : BitVec 256) (b : Bool) (d : Dev) : (post n r b d).gpwr = d.gpwr := (post_reports n r b d).gpwr
@[simp] theorem post_cxl (n : Nat) (r : BitVec 256) (b : Bool) (d : Dev) : (post n r b d).cxl = d.cxl := (post_reports n r b d).cxl
@[simp] theorem post_gen (n : Nat) (r : BitVec 256) (b : Bool) (d : Dev) : (post n r b d).gen = d.gen := (post_reports n r b d).gen
@[simp] theorem post_ecc (n : Nat) (r : BitVec 256) (b : Bool) (d : Dev) : (post n r b d).ecc = d.ecc := (post_reports n r b d).ecc
@[simp] theorem post_integ (n : Nat) (r : BitVec 256) (b : Bool) (d : Dev) : (post n r b d).integ = d.integ := (post_reports n r b d).integ
@[simp] theorem post_gon (n : Nat) (r : BitVec 256) (b : Bool) (d : Dev) : (post n r b d).gon = d.gon := (post_reports n r b d).gon
@[simp] theorem post_wgt (n : Nat) (r : BitVec 256) (b : Bool) (d : Dev) : (post n r b d).wgt = d.wgt := (post_reports n r b d).wgt
@[simp] theorem post_plan (n : Nat) (r : BitVec 256) (b : Bool) (d : Dev) : (post n r b d).plan = d.plan := (post_reports n r b d).plan
@[simp] theorem post_tth (n : Nat) (r : BitVec 256) (b : Bool) (d : Dev) : (post n r b d).tth = d.tth := (post_reports n r b d).tth
@[simp] theorem post_vrd (n : Nat) (r : BitVec 256) (b : Bool) (d : Dev) : (post n r b d).vrd = d.vrd := (post_reports n r b d).vrd
@[simp] theorem post_tack (n : Nat) (r : BitVec 256) (b : Bool) (d : Dev) : (post n r b d).tack = d.tack := (post_reports n r b d).tack
@[simp] theorem post_snap (n : Nat) (r : BitVec 256) (b : Bool) (d : Dev) : (post n r b d).snap = d.snap := (post_reports n r b d).snap
@[simp] theorem post_arrays (n : Nat) (r : BitVec 256) (b : Bool) (d : Dev) : (post n r b d).arrays = d.arrays := (post_reports n r b d).arrays
@[simp] theorem post_groups (n : Nat) (r : BitVec 256) (b : Bool) (d : Dev) : (post n r b d).groups = d.groups := (post_reports n r b d).groups
@[simp] theorem post_nflag (n : Nat) (r : BitVec 256) (b : Bool) (d : Dev) : (post n r b d).nflag = d.nflag := (post_reports n r b d).nflag
@[simp] theorem post_narrow (n : Nat) (r : BitVec 256) (b : Bool) (d : Dev) : (post n r b d).narrow = d.narrow := (post_reports n r b d).narrow
@[simp] theorem post_curv (n : Nat) (r : BitVec 256) (b : Bool) (d : Dev) : (post n r b d).curv = d.curv := (post_reports n r b d).curv
@[simp] theorem post_solv (n : Nat) (r : BitVec 256) (b : Bool) (d : Dev) : (post n r b d).solv = d.solv := (post_reports n r b d).solv
@[simp] theorem post_freeCtr (n : Nat) (r : BitVec 256) (b : Bool) (d : Dev) : (post n r b d).freeCtr = d.freeCtr := (post_reports n r b d).freeCtr

@[simp] theorem finish_pins (n o : Nat) (desc : BitVec 512) (a : Ans) (d : Dev) : (finish n o desc a d).pins = d.pins := (finish_reports n o desc a d).pins
@[simp] theorem finish_dbg (n o : Nat) (desc : BitVec 512) (a : Ans) (d : Dev) : (finish n o desc a d).dbg = d.dbg := (finish_reports n o desc a d).dbg
@[simp] theorem finish_fuses (n o : Nat) (desc : BitVec 512) (a : Ans) (d : Dev) : (finish n o desc a d).fuses = d.fuses := (finish_reports n o desc a d).fuses
@[simp] theorem finish_flash (n o : Nat) (desc : BitVec 512) (a : Ans) (d : Dev) : (finish n o desc a d).flash = d.flash := (finish_reports n o desc a d).flash
@[simp] theorem finish_fw (n o : Nat) (desc : BitVec 512) (a : Ans) (d : Dev) : (finish n o desc a d).fw = d.fw := (finish_reports n o desc a d).fw
@[simp] theorem finish_pwr (n o : Nat) (desc : BitVec 512) (a : Ans) (d : Dev) : (finish n o desc a d).pwr = d.pwr := (finish_reports n o desc a d).pwr
@[simp] theorem finish_gpwr (n o : Nat) (desc : BitVec 512) (a : Ans) (d : Dev) : (finish n o desc a d).gpwr = d.gpwr := (finish_reports n o desc a d).gpwr
@[simp] theorem finish_cxl (n o : Nat) (desc : BitVec 512) (a : Ans) (d : Dev) : (finish n o desc a d).cxl = d.cxl := (finish_reports n o desc a d).cxl
@[simp] theorem finish_gen (n o : Nat) (desc : BitVec 512) (a : Ans) (d : Dev) : (finish n o desc a d).gen = d.gen := (finish_reports n o desc a d).gen
@[simp] theorem finish_ecc (n o : Nat) (desc : BitVec 512) (a : Ans) (d : Dev) : (finish n o desc a d).ecc = d.ecc := (finish_reports n o desc a d).ecc
@[simp] theorem finish_integ (n o : Nat) (desc : BitVec 512) (a : Ans) (d : Dev) : (finish n o desc a d).integ = d.integ := (finish_reports n o desc a d).integ
@[simp] theorem finish_gon (n o : Nat) (desc : BitVec 512) (a : Ans) (d : Dev) : (finish n o desc a d).gon = d.gon := (finish_reports n o desc a d).gon
@[simp] theorem finish_wgt (n o : Nat) (desc : BitVec 512) (a : Ans) (d : Dev) : (finish n o desc a d).wgt = d.wgt := (finish_reports n o desc a d).wgt
@[simp] theorem finish_plan (n o : Nat) (desc : BitVec 512) (a : Ans) (d : Dev) : (finish n o desc a d).plan = d.plan := (finish_reports n o desc a d).plan
@[simp] theorem finish_tth (n o : Nat) (desc : BitVec 512) (a : Ans) (d : Dev) : (finish n o desc a d).tth = d.tth := (finish_reports n o desc a d).tth
@[simp] theorem finish_vrd (n o : Nat) (desc : BitVec 512) (a : Ans) (d : Dev) : (finish n o desc a d).vrd = d.vrd := (finish_reports n o desc a d).vrd
@[simp] theorem finish_tack (n o : Nat) (desc : BitVec 512) (a : Ans) (d : Dev) : (finish n o desc a d).tack = d.tack := (finish_reports n o desc a d).tack
@[simp] theorem finish_snap (n o : Nat) (desc : BitVec 512) (a : Ans) (d : Dev) : (finish n o desc a d).snap = d.snap := (finish_reports n o desc a d).snap
@[simp] theorem finish_arrays (n o : Nat) (desc : BitVec 512) (a : Ans) (d : Dev) : (finish n o desc a d).arrays = d.arrays := (finish_reports n o desc a d).arrays
@[simp] theorem finish_groups (n o : Nat) (desc : BitVec 512) (a : Ans) (d : Dev) : (finish n o desc a d).groups = d.groups := (finish_reports n o desc a d).groups
@[simp] theorem finish_nflag (n o : Nat) (desc : BitVec 512) (a : Ans) (d : Dev) : (finish n o desc a d).nflag = d.nflag := (finish_reports n o desc a d).nflag
@[simp] theorem finish_narrow (n o : Nat) (desc : BitVec 512) (a : Ans) (d : Dev) : (finish n o desc a d).narrow = d.narrow := (finish_reports n o desc a d).narrow
@[simp] theorem finish_curv (n o : Nat) (desc : BitVec 512) (a : Ans) (d : Dev) : (finish n o desc a d).curv = d.curv := (finish_reports n o desc a d).curv
@[simp] theorem finish_solv (n o : Nat) (desc : BitVec 512) (a : Ans) (d : Dev) : (finish n o desc a d).solv = d.solv := (finish_reports n o desc a d).solv
@[simp] theorem finish_freeCtr (n o : Nat) (desc : BitVec 512) (a : Ans) (d : Dev) : (finish n o desc a d).freeCtr = d.freeCtr := (finish_reports n o desc a d).freeCtr

@[simp] theorem completeTag_pins (n tag opc : Nat) (a : Ans) (d : Dev) : (completeTag n tag opc a d).pins = d.pins := (completeTag_reports n tag opc a d).pins
@[simp] theorem completeTag_dbg (n tag opc : Nat) (a : Ans) (d : Dev) : (completeTag n tag opc a d).dbg = d.dbg := (completeTag_reports n tag opc a d).dbg
@[simp] theorem completeTag_fuses (n tag opc : Nat) (a : Ans) (d : Dev) : (completeTag n tag opc a d).fuses = d.fuses := (completeTag_reports n tag opc a d).fuses
@[simp] theorem completeTag_flash (n tag opc : Nat) (a : Ans) (d : Dev) : (completeTag n tag opc a d).flash = d.flash := (completeTag_reports n tag opc a d).flash
@[simp] theorem completeTag_fw (n tag opc : Nat) (a : Ans) (d : Dev) : (completeTag n tag opc a d).fw = d.fw := (completeTag_reports n tag opc a d).fw
@[simp] theorem completeTag_pwr (n tag opc : Nat) (a : Ans) (d : Dev) : (completeTag n tag opc a d).pwr = d.pwr := (completeTag_reports n tag opc a d).pwr
@[simp] theorem completeTag_gpwr (n tag opc : Nat) (a : Ans) (d : Dev) : (completeTag n tag opc a d).gpwr = d.gpwr := (completeTag_reports n tag opc a d).gpwr
@[simp] theorem completeTag_cxl (n tag opc : Nat) (a : Ans) (d : Dev) : (completeTag n tag opc a d).cxl = d.cxl := (completeTag_reports n tag opc a d).cxl
@[simp] theorem completeTag_gen (n tag opc : Nat) (a : Ans) (d : Dev) : (completeTag n tag opc a d).gen = d.gen := (completeTag_reports n tag opc a d).gen
@[simp] theorem completeTag_ecc (n tag opc : Nat) (a : Ans) (d : Dev) : (completeTag n tag opc a d).ecc = d.ecc := (completeTag_reports n tag opc a d).ecc
@[simp] theorem completeTag_integ (n tag opc : Nat) (a : Ans) (d : Dev) : (completeTag n tag opc a d).integ = d.integ := (completeTag_reports n tag opc a d).integ
@[simp] theorem completeTag_gon (n tag opc : Nat) (a : Ans) (d : Dev) : (completeTag n tag opc a d).gon = d.gon := (completeTag_reports n tag opc a d).gon
@[simp] theorem completeTag_wgt (n tag opc : Nat) (a : Ans) (d : Dev) : (completeTag n tag opc a d).wgt = d.wgt := (completeTag_reports n tag opc a d).wgt
@[simp] theorem completeTag_plan (n tag opc : Nat) (a : Ans) (d : Dev) : (completeTag n tag opc a d).plan = d.plan := (completeTag_reports n tag opc a d).plan
@[simp] theorem completeTag_tth (n tag opc : Nat) (a : Ans) (d : Dev) : (completeTag n tag opc a d).tth = d.tth := (completeTag_reports n tag opc a d).tth
@[simp] theorem completeTag_vrd (n tag opc : Nat) (a : Ans) (d : Dev) : (completeTag n tag opc a d).vrd = d.vrd := (completeTag_reports n tag opc a d).vrd
@[simp] theorem completeTag_tack (n tag opc : Nat) (a : Ans) (d : Dev) : (completeTag n tag opc a d).tack = d.tack := (completeTag_reports n tag opc a d).tack
@[simp] theorem completeTag_snap (n tag opc : Nat) (a : Ans) (d : Dev) : (completeTag n tag opc a d).snap = d.snap := (completeTag_reports n tag opc a d).snap
@[simp] theorem completeTag_arrays (n tag opc : Nat) (a : Ans) (d : Dev) : (completeTag n tag opc a d).arrays = d.arrays := (completeTag_reports n tag opc a d).arrays
@[simp] theorem completeTag_groups (n tag opc : Nat) (a : Ans) (d : Dev) : (completeTag n tag opc a d).groups = d.groups := (completeTag_reports n tag opc a d).groups
@[simp] theorem completeTag_nflag (n tag opc : Nat) (a : Ans) (d : Dev) : (completeTag n tag opc a d).nflag = d.nflag := (completeTag_reports n tag opc a d).nflag
@[simp] theorem completeTag_narrow (n tag opc : Nat) (a : Ans) (d : Dev) : (completeTag n tag opc a d).narrow = d.narrow := (completeTag_reports n tag opc a d).narrow
@[simp] theorem completeTag_curv (n tag opc : Nat) (a : Ans) (d : Dev) : (completeTag n tag opc a d).curv = d.curv := (completeTag_reports n tag opc a d).curv
@[simp] theorem completeTag_solv (n tag opc : Nat) (a : Ans) (d : Dev) : (completeTag n tag opc a d).solv = d.solv := (completeTag_reports n tag opc a d).solv
@[simp] theorem completeTag_freeCtr (n tag opc : Nat) (a : Ans) (d : Dev) : (completeTag n tag opc a d).freeCtr = d.freeCtr := (completeTag_reports n tag opc a d).freeCtr

@[simp] theorem also_pins (rs : List Rep) (d : Dev) : (also rs d).pins = d.pins := (also_reports rs d).pins
@[simp] theorem also_dbg (rs : List Rep) (d : Dev) : (also rs d).dbg = d.dbg := (also_reports rs d).dbg
@[simp] theorem also_fuses (rs : List Rep) (d : Dev) : (also rs d).fuses = d.fuses := (also_reports rs d).fuses
@[simp] theorem also_flash (rs : List Rep) (d : Dev) : (also rs d).flash = d.flash := (also_reports rs d).flash
@[simp] theorem also_fw (rs : List Rep) (d : Dev) : (also rs d).fw = d.fw := (also_reports rs d).fw
@[simp] theorem also_pwr (rs : List Rep) (d : Dev) : (also rs d).pwr = d.pwr := (also_reports rs d).pwr
@[simp] theorem also_gpwr (rs : List Rep) (d : Dev) : (also rs d).gpwr = d.gpwr := (also_reports rs d).gpwr
@[simp] theorem also_cxl (rs : List Rep) (d : Dev) : (also rs d).cxl = d.cxl := (also_reports rs d).cxl
@[simp] theorem also_gen (rs : List Rep) (d : Dev) : (also rs d).gen = d.gen := (also_reports rs d).gen
@[simp] theorem also_ecc (rs : List Rep) (d : Dev) : (also rs d).ecc = d.ecc := (also_reports rs d).ecc
@[simp] theorem also_integ (rs : List Rep) (d : Dev) : (also rs d).integ = d.integ := (also_reports rs d).integ
@[simp] theorem also_gon (rs : List Rep) (d : Dev) : (also rs d).gon = d.gon := (also_reports rs d).gon
@[simp] theorem also_wgt (rs : List Rep) (d : Dev) : (also rs d).wgt = d.wgt := (also_reports rs d).wgt
@[simp] theorem also_plan (rs : List Rep) (d : Dev) : (also rs d).plan = d.plan := (also_reports rs d).plan
@[simp] theorem also_tth (rs : List Rep) (d : Dev) : (also rs d).tth = d.tth := (also_reports rs d).tth
@[simp] theorem also_vrd (rs : List Rep) (d : Dev) : (also rs d).vrd = d.vrd := (also_reports rs d).vrd
@[simp] theorem also_tack (rs : List Rep) (d : Dev) : (also rs d).tack = d.tack := (also_reports rs d).tack
@[simp] theorem also_snap (rs : List Rep) (d : Dev) : (also rs d).snap = d.snap := (also_reports rs d).snap
@[simp] theorem also_arrays (rs : List Rep) (d : Dev) : (also rs d).arrays = d.arrays := (also_reports rs d).arrays
@[simp] theorem also_groups (rs : List Rep) (d : Dev) : (also rs d).groups = d.groups := (also_reports rs d).groups
@[simp] theorem also_nflag (rs : List Rep) (d : Dev) : (also rs d).nflag = d.nflag := (also_reports rs d).nflag
@[simp] theorem also_narrow (rs : List Rep) (d : Dev) : (also rs d).narrow = d.narrow := (also_reports rs d).narrow
@[simp] theorem also_curv (rs : List Rep) (d : Dev) : (also rs d).curv = d.curv := (also_reports rs d).curv
@[simp] theorem also_solv (rs : List Rep) (d : Dev) : (also rs d).solv = d.solv := (also_reports rs d).solv
@[simp] theorem also_freeCtr (rs : List Rep) (d : Dev) : (also rs d).freeCtr = d.freeCtr := (also_reports rs d).freeCtr

@[simp] theorem deliverAll_pins (d : Dev) : (deliverAll d).pins = d.pins := (deliverAll_reports d).pins
@[simp] theorem deliverAll_dbg (d : Dev) : (deliverAll d).dbg = d.dbg := (deliverAll_reports d).dbg
@[simp] theorem deliverAll_fuses (d : Dev) : (deliverAll d).fuses = d.fuses := (deliverAll_reports d).fuses
@[simp] theorem deliverAll_flash (d : Dev) : (deliverAll d).flash = d.flash := (deliverAll_reports d).flash
@[simp] theorem deliverAll_fw (d : Dev) : (deliverAll d).fw = d.fw := (deliverAll_reports d).fw
@[simp] theorem deliverAll_pwr (d : Dev) : (deliverAll d).pwr = d.pwr := (deliverAll_reports d).pwr
@[simp] theorem deliverAll_gpwr (d : Dev) : (deliverAll d).gpwr = d.gpwr := (deliverAll_reports d).gpwr
@[simp] theorem deliverAll_cxl (d : Dev) : (deliverAll d).cxl = d.cxl := (deliverAll_reports d).cxl
@[simp] theorem deliverAll_gen (d : Dev) : (deliverAll d).gen = d.gen := (deliverAll_reports d).gen
@[simp] theorem deliverAll_ecc (d : Dev) : (deliverAll d).ecc = d.ecc := (deliverAll_reports d).ecc
@[simp] theorem deliverAll_integ (d : Dev) : (deliverAll d).integ = d.integ := (deliverAll_reports d).integ
@[simp] theorem deliverAll_gon (d : Dev) : (deliverAll d).gon = d.gon := (deliverAll_reports d).gon
@[simp] theorem deliverAll_wgt (d : Dev) : (deliverAll d).wgt = d.wgt := (deliverAll_reports d).wgt
@[simp] theorem deliverAll_plan (d : Dev) : (deliverAll d).plan = d.plan := (deliverAll_reports d).plan
@[simp] theorem deliverAll_tth (d : Dev) : (deliverAll d).tth = d.tth := (deliverAll_reports d).tth
@[simp] theorem deliverAll_vrd (d : Dev) : (deliverAll d).vrd = d.vrd := (deliverAll_reports d).vrd
@[simp] theorem deliverAll_tack (d : Dev) : (deliverAll d).tack = d.tack := (deliverAll_reports d).tack
@[simp] theorem deliverAll_snap (d : Dev) : (deliverAll d).snap = d.snap := (deliverAll_reports d).snap
@[simp] theorem deliverAll_arrays (d : Dev) : (deliverAll d).arrays = d.arrays := (deliverAll_reports d).arrays
@[simp] theorem deliverAll_groups (d : Dev) : (deliverAll d).groups = d.groups := (deliverAll_reports d).groups
@[simp] theorem deliverAll_nflag (d : Dev) : (deliverAll d).nflag = d.nflag := (deliverAll_reports d).nflag
@[simp] theorem deliverAll_narrow (d : Dev) : (deliverAll d).narrow = d.narrow := (deliverAll_reports d).narrow
@[simp] theorem deliverAll_curv (d : Dev) : (deliverAll d).curv = d.curv := (deliverAll_reports d).curv
@[simp] theorem deliverAll_solv (d : Dev) : (deliverAll d).solv = d.solv := (deliverAll_reports d).solv
@[simp] theorem deliverAll_freeCtr (d : Dev) : (deliverAll d).freeCtr = d.freeCtr := (deliverAll_reports d).freeCtr

end Sys2Proof.Machine
end

