-- ==== Sys2Proof/Tests/Slice0.lean ====
section
/-! SUPPORT. Tests by hand calculation from the spec: the smoke test of WellFormed, and for the statements of Certificates states and
operands that meet their hypotheses, with one or two fields of what one step does there. -/

open Sys2Proof Sys2Proof.Machine

namespace Sys2Proof.Tests

set_option Elab.async false

/-! ## Small states -/

/-- The device after reset. -/
def d0 : Dev := State.reset.dev
/-- A powered device whose firmware is ready. -/
def up : Dev := { d0 with
  pins := { Pins.reset with resetN := true, pwrEn := true, pwrok := true, clocksOff := false, perstN := true }
  fw := { Fw.reset with ready := true } }
/-- A state with device `d`, nothing in memory and nothing pending. -/
def st (d : Dev) : State := ⟨[], d, []⟩
/-- The device that an outcome leaves. -/
def dv : Out → Dev
  | .next t => t.dev
  | _ => d0
/-- The memory that an outcome leaves. -/
def mm : Out → Mem
  | .next t => t.mem
  | _ => []
/-- An outcome is a next state. -/
def goes : Out → Bool
  | .next _ => true
  | _ => false
/-- A descriptor with TAG 7. -/
def desc (opc len haddr a0 a1 a2 : Nat) : BitVec 512 :=
  BitVec.ofNat 512 (opc * 2 ^ 500 + 7 * 2 ^ 480 + len * 2 ^ 448 + haddr * 2 ^ 384 + a0 * 2 ^ 320 + a1 * 2 ^ 256 + a2 * 2 ^ 192)
/-- The reference to TAG 7 of ring 0. -/
def c0 : CmdRef := ⟨0, 7, false⟩
/-- A device on which the descriptor is in progress on ring 0, in place 1. -/
def inP (x : BitVec 512) (d : Dev) : Dev := { d with hly := { d.hly with
  rings := modAt (fun r => { r with running := true, inProg := [(1, x)] }) 0 d.hly.rings } }
/-- A plan body without slots: one chip, self 0. -/
def body0 : PlanBody :=
  ⟨0, [], [], [], [], 1, 0, 0, 0, 0, [], [], ⟨0, 0, 0, 0, 0, 0, 0⟩, [], [], ⟨0, 0, 0, 1, 1, 1, 0, 0, 0, 0, 0, 0, 0, 0xFFFF, 0, 0⟩, [], [],
   ⟨0, 0, 0, 0, 0, 0⟩⟩
/-- The header of a plan. -/
def hdr0 : PlanHdr := ⟨0, 5, 0, 0, 1, 1, 0, 160, 40, 40, 40, 8, 48, 16, 0, 0, 0, 1000, 0, 100, 1, true⟩
/-- A step of that plan is running: step index 3, start 2. -/
def run0 : Run :=
  { addr := 0x60000000, hdr := hdr0, body := body0, t0 := 0, j := 2, start := 2, begun := true, barrier := true, barrierNote := true, step := 3
    attempt := 0, startTime := 0, phase := .running, issued := [], waited := [], done := [], carried := [], cde := [], cdeSeq := [], cdeNext := []
    sweepSlots := [], slipArmed := true, pendVar := none, ent := none, prevSel := [], permSig := [], lateEvent := none, fresh := false, lost := none
    wgt := none, tackLost := none, jobStart := 0, prev := none, rewind := none, rvar := false }
/-- The device while `r` runs. -/
def running (r : Run) (d : Dev) : Dev := { d with plan := { d.plan with run := some r } }

/-- The hypotheses `Runs` for TAG 7 in place 1 of ring 0, as a Bool. -/
def runsB (d : Dev) (opc : Nat) (x : BitVec 512) : Bool := decide (cmdFor d c0 opc = some (1, x)) && !turnedAway d x && !bufferLost c0 x
/-- The hypotheses `RunsIf` likewise. -/
def runsIfB (p : BitVec 512 → Bool) (d : Dev) (opc : Nat) (x : BitVec 512) : Bool :=
  decide (cmdIf p d c0 opc = some (1, x)) && !turnedAway d x && !bufferLost c0 x
theorem runs_of_runsB {d : Dev} {opc : Nat} {x : BitVec 512} (h : runsB d opc x = true) : Runs d c0 opc 1 x := by
  simpa [runsB, Runs, and_assoc] using h
theorem runsIf_of_runsIfB {p : BitVec 512 → Bool} {d : Dev} {opc : Nat} {x : BitVec 512} (h : runsIfB p d opc x = true) :
    RunsIf p d c0 opc 1 x := by
  simpa [runsIfB, RunsIf, and_assoc] using h
/-- `up` with port H's link in mode 1. -/
def linked : Dev := { up with cxl := { up.cxl with hMode := 1, hWidth := 16, hFlit256 := true, hIde := [4] } }
/-- A device with flags of context 1 set in engine 2 and every counter at 3. -/
def counted : Dev := { up with
  nflag := { up.nflag with host := [(17, 0x5)], plan := [(17, 0x5)], first := [0xFF, 2, 0xFF, 0xFF, 0xFF, 0xFF, 0xFF, 0xFF] }
  tth := { up.tth with accFlag := 0x81, retry := 3 }, gen := { up.gen with rsvdWr := 3 }, integ := { up.integ with corr := 3, ue := 3 }
  pwr := { up.pwr with peak := 3 }, vrd := { up.vrd with commits := 3 }, snap := { up.snap with done := 3 }
  gon := { up.gon with tmo := 3 }, wgt := { up.wgt with chunks := 3 }, curv := { up.curv with pub := 3 }
  solv := { up.solv with done := 3 }, plan := { up.plan with late := 3 } }

/-! ## Well-formed commands: every check takes a term at its bound and refuses one past it -/

/-- An instruction word of zeros on group 0, context 0. -/
def vu0 : VUse := ⟨0, 0⟩
/-- Its fields. -/
def vf0 : VFields := ⟨0, 0, 0, 0, 0, false, false, false, 0, 0, 0, 0⟩
/-- A message header of zeros. -/
def wh0 : WireHdr := ⟨0, 0, 0, false, 0, 0, 0, 0, 0, 0, 0, 0, 0, 0, 0, 0, 0, 0, 0, 0⟩
/-- A partner that trains. -/
def pt0 : PortTrain := ⟨true, 3, 4095, 63, 63, 7, 0⟩
/-- 14 R412, R418; 04 R112, R117, R122. -/
theorem test_wf_words : (Instr.nop ⟨3, 65535, true⟩).wf = true ∧ (Instr.nop ⟨4, 0, false⟩).wf = false ∧ (Instr.nop ⟨0, 65536, false⟩).wf = false
    ∧ (Instr.add ⟨39, 7⟩ ⟨3, 15, 15, 15, 15, true, true, true, 127, 127, 31, 65535⟩).wf = true
    ∧ ([Instr.add ⟨40, 0⟩ vf0, .add ⟨0, 8⟩ vf0, .add vu0 { vf0 with type := 4 }, .add vu0 { vf0 with dst := 16 }, .add vu0 { vf0 with a := 16 },
        .add vu0 { vf0 with b := 16 }, .add vu0 { vf0 with c := 16 }, .add vu0 { vf0 with row0 := 128 }, .add vu0 { vf0 with rowsM1 := 128 },
        .add vu0 { vf0 with scal := 32 }, .add vu0 { vf0 with imm := 65536 }, .cvt vu0 vf0 16 ⟨0, 0, 0, ⟨0, 0, 0, false⟩⟩, .vectorBlockRestart vu0 6 0 true,
        .vectorBlockRestart vu0 0 128 true, .queueEntryReplay vu0 8 0 true, .queueEntryReplay vu0 0 128 true].all fun i => !i.wf) = true := by
  decide +kernel
/-- 09 R275, R277, R285; 14 R402, R410; 08 R269. -/
theorem test_wf_links : (Instr.getReceive 15 { wh0 with step := 2 ^ 64 - 1 }).wf = true ∧ (Instr.portTrainingComplete 15 pt0).wf = true
    ∧ (Instr.portHLinkUp ⟨[6], 16, true, true, true, false⟩).wf = true ∧ (Instr.gondolaDevicePresence ⟨0, 16, 3, false, none⟩).wf = true
    ∧ ([{ wh0 with opc := 16 }, { wh0 with accOp := 4 }, { wh0 with fmt := 16 }, { wh0 with vc := 4 }, { wh0 with tally := 4096 },
        { wh0 with lenM1 := 8192 }, { wh0 with srcNode := 2 ^ 24 }, { wh0 with dstNode := 2 ^ 24 }, { wh0 with srcRank := 65536 },
        { wh0 with dstRank := 65536 }, { wh0 with lepoch := 65536 }, { wh0 with tag := 65536 }, { wh0 with remote := 2 ^ 48 },
        { wh0 with step := 2 ^ 64 }, { wh0 with job := 2 ^ 32 }, { wh0 with inc := 65536 }, { wh0 with status := 256 },
        { wh0 with start := 65536 }].all fun h => !(Instr.ackReceive h).wf) = true
    ∧ ([{ pt0 with rate := 4 }, { pt0 with board := 4096 }, { pt0 with x := 64 }, { pt0 with y := 64 },
        { pt0 with dir := 8 }].all fun r => !(Instr.portTrainingComplete 0 r).wf) = true
    ∧ ([Instr.portTrainingComplete 16 pt0, .getReceive 16 wh0, .portHLinkUp ⟨[7], 16, true, true, true, false⟩,
        .portHLinkUp ⟨[6], 2, true, true, true, false⟩, .gondolaDevicePresence ⟨0, 3, 0, false, none⟩,
        .gondolaDevicePresence ⟨0, 16, 4, false, none⟩].all fun i => !i.wf) = true := by decide +kernel
/-- Numbers of units, rings, vectors, lines and records, each one past its range. -/
theorem test_wf_numbers : ([Instr.reefReqChange 4, .wakeMark 40, .corePowerGate 4, .ringEnable 4, .doorbell 4 0, .doorbell 0 65536, .cqHeadWrite 0 65536,
      .eventRingHeadWrite 65536, .msixUnmask 16, .nflagClear 8 0 [], .nflagClear 0 0 [(240, 0)], .bktCfgWrite 8 0, .registerWrite 0x100000 0 4,
      .fenceSlot (2 ^ 30), .tileClaim 160, .gramReplay 40 true, .messageTimeout 65536, .linkReplay 16, .laneFailure 68 true true, .haloTimeout ⟨65536, 0, 0⟩,
      .refreshAbandon 65536, .sweepComplete 65536, .pseudoChannelFailure 8 0, .pseudoChannelFailure 0 32, .bayDrainComplete 4, .correctiveWriteBack 0x80,
      .bucketLeakTick 8, .bankFailure 48, .coreHeartbeatMiss ⟨4, .missed⟩, .weightFetchTimeout 4, .linkControlBallastNotice 4].all fun i => !i.wf) = true
    ∧ ([Instr.reefReqChange 3, .wakeMark 39, .corePowerGate 3, .ringEnable 3, .doorbell 3 65535, .eventRingHeadWrite 65535, .msixUnmask 15,
      .nflagClear 7 0 [(239, 0)], .bktCfgWrite 7 0, .registerWrite 0xFFFFC 0 4, .fenceSlot (2 ^ 30 - 1), .tileClaim 159, .gramReplay 39 true,
      .linkReplay 15, .laneFailure 67 true true, .pseudoChannelFailure 7 31, .bayDrainComplete 3, .correctiveWriteBack 0x100, .bankFailure 47,
      .weightFetchTimeout 3].all Instr.wf) = true := by decide +kernel
/-! ## Plans -/

/-- Address of the test plan: the first byte of HBM. -/
def planA : Nat := hbmBase 0
/-- A field of `w` bytes at offset `o` of the test plan's image. -/
def put (x : Nat × Nat × Nat) (m : Mem) : Mem := m.writeLE (planA + x.1) x.2.1 x.2.2
/-- A directory entry. -/
def dirE (i off len : Nat) : Nat × Nat × Nat := (128 + 16 * i, 16, off * 2 ^ 80 + len * 2 ^ 32)
/-- A plan of one chip, one context, one slot, its verdict point, and one replica range, without the CRC (07 R221 to R225; 08 R246; 09 R280; 10 R315). -/
def planBytes : Mem :=
  [(0, 128, 5 * 2 ^ 896 + 0x4B525031 * 2 ^ 800 + 1 * 2 ^ 792 + 1 * 2 ^ 784 + 1 * 2 ^ 720 + 100 * 2 ^ 480 + 1 * 2 ^ 448),
   dirE 0 0x200 64, dirE 1 0x300 16, dirE 2 0x400 32, dirE 3 0x500 256, dirE 6 0x600 48, dirE 7 0x700 80,
   (0x200, 8, 2 ^ 63), (0x208, 8, 2 ^ 58), (0x210, 8, 2 * 2 ^ 58), (0x218, 8, 3 * 2 ^ 58), (0x220, 8, 4 * 2 ^ 58), (0x228, 8, 5 * 2 ^ 58),
   (0x230, 8, 6 * 2 ^ 58), (0x238, 8, 7 * 2 ^ 58),
   (0x300, 16, 265 * 2 ^ 119 + 0 * 2 ^ 116 + 0 * 2 ^ 64 + 1),
   (0x400, 32, 1 * 2 ^ 224 + 265 * 2 ^ 215 + 7 * 2 ^ 211 + 2 * 2 ^ 16 + 0xFFFF),
   (0x500, 64, 0x2000 * 2 ^ 464 + 0 * 2 ^ 452 + 1 * 2 ^ 440 + 2 * 2 ^ 428 + 100 * 2 ^ 396 + 1000 * 2 ^ 364),
   (0x540, 64, 0x5C0 * 2 ^ 464 + 1 * 2 ^ 448 + 1 * 2 ^ 413 + 1 * 2 ^ 397 + 1 * 2 ^ 381 + 1 * 2 ^ 365 + 0x1000 * 2 ^ 133 + 0xFFFF * 2 ^ 69),
   (0x5C0, 32, 7 * 2 ^ 235 + 0x4000 * 2 ^ 160 + 0x5000 * 2 ^ 112 + 0x100 * 2 ^ 64),
   (0x600, 16, 0x2000 * 2 ^ 48 + 0x1000), (0x610, 16, 1 * 2 ^ 120 + 0x4000 * 2 ^ 48 + 0x1000), (0x620, 16, 2 * 2 ^ 120 + 0x5000 * 2 ^ 48 + 0x1000),
   (0x700, 64, 1 * 2 ^ 496)].foldl (fun m x => put x m) []
/-- The same with its CRC (07 R221): its bytes that are not 0. -/
def planImg : Mem :=
  [(0x1000000038, 0x01), (0x100000003C, 0x64), (0x100000005A, 0x01), (0x1000000062, 0x01), (0x1000000063, 0x01), (0x1000000064, 0x31),
   (0x1000000065, 0x50), (0x1000000066, 0x52), (0x1000000067, 0x4B), (0x1000000070, 0x05), (0x1000000078, 0xA5), (0x1000000079, 0xBA),
   (0x100000007A, 0xDC), (0x100000007B, 0x46), (0x100000007C, 0xB0), (0x100000007D, 0x3E), (0x100000007E, 0xEC), (0x100000007F, 0x90),
   (0x1000000084, 0x40), (0x100000008B, 0x02), (0x1000000094, 0x10), (0x100000009B, 0x03), (0x10000000A4, 0x20), (0x10000000AB, 0x04),
   (0x10000000B5, 0x01), (0x10000000BB, 0x05), (0x10000000E4, 0x30), (0x10000000EB, 0x06), (0x10000000F4, 0x50), (0x10000000FB, 0x07),
   (0x1000000207, 0x80), (0x100000020F, 0x04), (0x1000000217, 0x08), (0x100000021F, 0x0C), (0x1000000227, 0x10), (0x100000022F, 0x14),
   (0x1000000237, 0x18), (0x100000023F, 0x1C), (0x1000000300, 0x01), (0x100000030E, 0x80), (0x100000030F, 0x84), (0x1000000400, 0xFF),
   (0x1000000401, 0xFF), (0x1000000402, 0x02), (0x100000041A, 0xB8), (0x100000041B, 0x84), (0x100000041C, 0x01), (0x100000052D, 0x80),
   (0x100000052E, 0x3E), (0x1000000531, 0x40), (0x1000000532, 0x06), (0x1000000535, 0x20), (0x1000000537, 0x01), (0x100000053B, 0x20),
   (0x1000000548, 0xE0), (0x1000000549, 0xFF), (0x100000054A, 0x1F), (0x1000000552, 0x02), (0x100000056D, 0x20), (0x100000056F, 0x20),
   (0x1000000571, 0x20), (0x1000000573, 0x20), (0x1000000578, 0x01), (0x100000057A, 0xC0), (0x100000057B, 0x05), (0x10000005C9, 0x01),
   (0x10000005CF, 0x50), (0x10000005D5, 0x40), (0x10000005DD, 0x38), (0x1000000601, 0x10), (0x1000000607, 0x20), (0x1000000611, 0x10),
   (0x1000000617, 0x40), (0x100000061F, 0x01), (0x1000000621, 0x10), (0x1000000627, 0x50), (0x100000062F, 0x02), (0x100000073E, 0x01)]
theorem plan_img : planImg = put (120, 8, 10442790562789374629) planBytes := by decide +kernel
theorem mem_read_append (m : Mem) (a n k : Nat) : m.read a (n + k) = m.read a n ++ m.read (a + n) k := by
  induction n generalizing a with
  | zero => simp [Mem.read]
  | succ n ih =>
    have e : n + 1 + k = (n + k) + 1 := by omega
    have f : a + (n + 1) = a + 1 + n := by omega
    rw [e, f]; simp [Mem.read, ih (a + 1)]
/-- CRC state after `n` bytes of the image from offset `o`. -/
def crcOn (s o n : Nat) : Nat := (planImg.read (planA + o) n).foldl crc64Byte s
/-- The states of the CRC at the ends of its parts. -/
theorem crc_parts : ([0, 0, 0, 0, 0, 0, 0, 0] : List Byte).foldl crc64Byte (crcOn 0 0 120) = 15174732383961067197
    ∧ crcOn 15174732383961067197 128 124 = 8113852792550203406
    ∧ crcOn 8113852792550203406 252 124 = 12435935703121987287
    ∧ crcOn 12435935703121987287 376 124 = 16802537607183667414
    ∧ crcOn 16802537607183667414 500 124 = 1231791760409012269
    ∧ crcOn 1231791760409012269 624 124 = 10900724340870171618
    ∧ crcOn 10900724340870171618 748 124 = 11050533318528620865
    ∧ crcOn 11050533318528620865 872 124 = 13096987142757186796
    ∧ crcOn 13096987142757186796 996 124 = 2216420035595365621
    ∧ crcOn 2216420035595365621 1120 124 = 9703573643937431661
    ∧ crcOn 9703573643937431661 1244 124 = 5857187662279188939
    ∧ crcOn 5857187662279188939 1368 124 = 16997115824675678087
    ∧ crcOn 16997115824675678087 1492 124 = 1579942140676464623
    ∧ crcOn 1579942140676464623 1616 124 = 7289659867226928735
    ∧ crcOn 7289659867226928735 1740 124 = 17255069243824158850
    ∧ crcOn 17255069243824158850 1864 8 = 10442790562789374629 := by decide +kernel
theorem plan_len : imageLen planImg planA = 1872 := by decide +kernel
theorem plan_crc : crc64 (imageBytes planImg planA) = 10442790562789374629 := by
  have e : planImg.read (planA + 128) 1744 = planImg.read (planA + 128) 124 ++ (planImg.read (planA + 252) 124 ++ (planImg.read (planA + 376) 124
       ++ (planImg.read (planA + 500) 124 ++ (planImg.read (planA + 624) 124 ++ (planImg.read (planA + 748) 124
       ++ (planImg.read (planA + 872) 124 ++ (planImg.read (planA + 996) 124 ++ (planImg.read (planA + 1120) 124
       ++ (planImg.read (planA + 1244) 124 ++ (planImg.read (planA + 1368) 124 ++ (planImg.read (planA + 1492) 124
       ++ (planImg.read (planA + 1616) 124 ++ (planImg.read (planA + 1740) 124 ++ (planImg.read (planA + 1864) 8)))))))))))))) := by
    rw [show 1744 = 124 + (124 + (124 + (124 + (124 + (124 + (124 + (124 + (124 + (124 + (124 + (124 + (124 + (124 + (8)))))))))))))) from rfl, mem_read_append, mem_read_append, mem_read_append, mem_read_append, mem_read_append, mem_read_append, mem_read_append, mem_read_append, mem_read_append, mem_read_append, mem_read_append, mem_read_append, mem_read_append, mem_read_append]
  have p := crc_parts
  unfold crcOn at p
  obtain ⟨p0, p1, p2, p3, p4, p5, p6, p7, p8, p9, p10, p11, p12, p13, p14, p15⟩ := p
  unfold crc64 imageBytes
  rw [plan_len, e]
  simp only [List.foldl_append, Nat.add_zero, show List.replicate 8 (0 : Byte) = [0, 0, 0, 0, 0, 0, 0, 0] from rfl] at p0 ⊢
  rw [p0, p1, p2, p3, p4, p5, p6, p7, p8, p9, p10, p11, p12, p13, p14, p15]
theorem img_m (m : Mem) (d : Dev) (a : Nat) (old : Option PlanBody) : (imgAt m d a 0 old).m = m := rfl
theorem img_addr (m : Mem) (d : Dev) (a : Nat) (old : Option PlanBody) : (imgAt m d a 0 old).addr = a := rfl
theorem img_hdr (m : Mem) (d : Dev) (a : Nat) (old : Option PlanBody) : (imgAt m d a 0 old).hdr = hdrAt m a := rfl
theorem plan_hdr : (hdrAt planImg planA).crc = 10442790562789374629 ∧ (hdrAt planImg planA).format = 1 ∧ (hdrAt planImg planA).resvZero = true
    ∧ (hdrAt planImg planA).nVar = 0 ∧ ((tableAt planImg (planA + 128) 16 16).any fun e => decide (bits e 31 0 ≠ 0)) = false
    ∧ varDirAt planImg planA = [] := by decide +kernel
theorem img_simFails (m : Mem) (d : Dev) (a c q : Nat) (old : Option PlanBody)
    (h : ∀ c, Config.simFault c 0 (imageBytes m a) = none) : simFails (imgAt m d a 0 old) c q = [] := by
  have e : Config.simFault c (imgAt m d a 0 old).b.variant (imageBytes (imgAt m d a 0 old).m (imgAt m d a 0 old).addr) = none := h c
  simp only [simFails, e]
/-- The checks of a plan but the CRC's and those that firmware's simulation alone can fail. -/
def checksB (x : Img) : Bool :=
  [formatSects x, formatStreams x, formatSlots x, formatPayload x, formatResv x, checkContract x, checkShortfall x, checkCapacity x, checkAddress x, checkState x,
   checkContext x, checkNumeric x, failSlots 3 (x.kind 0) (fun s => arrBad (x.arr s) || preloadBad x s || sparClash x s), missingWait x, copiesLate x x.touches, checkQueue x,
   checkArb x, checkTether x, checkCont x, checkWaits x].all List.isEmpty
    && x.hdr.period = 0 && x.b.ledgers.isEmpty && x.blocks.isEmpty && (x.kind 0).isEmpty && (x.kind 1).isEmpty && (x.kind 8).isEmpty && (x.kind 9).isEmpty
theorem all_checks (x : Img) (hf : checkFormat x = []) (a5 : checkContract x = []) (a6 : checkShortfall x = []) (a7 : checkCapacity x = [])
    (a8 : checkAddress x = []) (a9 : checkState x = []) (a10 : checkContext x = []) (a11 : checkNumeric x = []) (b1 : checkArray x = [])
    (b2 : checkTiming x = []) (a14 : checkQueue x = []) (b3 : checkVector x = []) (b4 : checkCurvature x = []) (b5 : checkSolver x = [])
    (a15 : checkArb x = []) (a16 : checkTether x = []) (a17 : checkCont x = []) (a18 : checkWaits x = []) : ∀ c ∈ checks, c.2 x = [] := by
  intro c hc
  simp only [checks, List.mem_cons, List.not_mem_nil, or_false] at hc
  rcases hc with rfl | rfl | rfl | rfl | rfl | rfl | rfl | rfl | rfl | rfl | rfl | rfl | rfl | rfl | rfl | rfl | rfl | rfl
  · exact hf
  · exact a5
  · exact a6
  · exact a7
  · exact a8
  · exact a9
  · exact a10
  · exact a11
  · exact b1
  · exact b2
  · exact a14
  · exact b3
  · exact b4
  · exact b5
  · exact a15
  · exact a16
  · exact a17
  · exact a18
theorem lowest_none (l : List Fail) (h : lowest l = none) : l = [] := by
  cases l with
  | nil => rfl
  | cons f t =>
    exfalso; revert h; unfold lowest
    split
    · simp
    · split <;> (try split) <;> simp
/-- A memory whose header does not give FORMAT 1 holds no valid plan (07 R221, R235). -/
theorem no_plan (m : Mem) (d : Dev) (a : Nat) (old : Option PlanBody) (h : (hdrAt m a).format ≠ 1) : ∃ j, validate m d a old = some j := by
  cases h' : validate m d a old with
  | some j => exact ⟨j, rfl⟩
  | none =>
    exfalso
    unfold validate at h'
    simp only [List.findSome?_eq_none_iff, Option.map_eq_none_iff] at h'
    have h1 := lowest_none _ (h' (1, checkFormat) (by simp [checks]) (0, imgAt m d a 0 old) (by simp [List.range_succ_eq_map]))
    have e : (imgAt m d a 0 old).b.variant = 0 := rfl
    have g : (imgAt m d a 0 old).hdr.format ≠ 1 := h
    simp [checkFormat, e, formatSet, g, failIf] at h1
/-- The test plan is valid where its checks pass and firmware's simulation, a free value (log entry 35), fails no slot. -/
theorem plan_valid (d : Dev) (old : Option PlanBody) (hsim : ∀ c, Config.simFault c 0 (imageBytes planImg planA) = none)
    (h : checksB (imgAt planImg d planA 0 old) = true) : validate planImg d planA old = none := by
  simp only [checksB, List.all_cons, List.all_nil, Bool.and_true, Bool.and_eq_true, List.isEmpty_iff, decide_eq_true_eq] at h
  obtain ⟨⟨⟨⟨⟨⟨⟨⟨a1, a2, a3, ap, a4, a5, a6, a7, a8, a9, a10, a11, a12, a13, cl, a14, a15, a16, a17, a18⟩, hp⟩, hl⟩, hb⟩, h0⟩, h1⟩, h8⟩, h9⟩ := h
  have hf : checkFormat (imgAt planImg d planA 0 old) = [] := by
    have hs : formatSet (imgAt planImg d planA 0 old) = [] := by
      unfold formatSet
      rw [img_m, img_addr, img_hdr, plan_crc, plan_hdr.1, plan_hdr.2.1, plan_hdr.2.2.1, plan_hdr.2.2.2.2.1, plan_hdr.2.2.2.2.2]
      simp [failIf]
    simp [checkFormat, hs, a1, a2, a3, ap, a4]
  have sim := fun c q => img_simFails planImg d planA c q old hsim
  have b1 : checkArray (imgAt planImg d planA 0 old) = [] := by simp [checkArray, a12, sim]
  have b2 : checkTiming (imgAt planImg d planA 0 old) = [] := by simp [checkTiming, a13, sim, hp, hl, failIf]
  have b3 : checkVector (imgAt planImg d planA 0 old) = [] := by simp [checkVector, hb, h1, sim, failSlots]
  have b4 : checkCurvature (imgAt planImg d planA 0 old) = [] := by simp [checkCurvature, h0, h1, h8, cl, sim, failSlots]
  have b5 : checkSolver (imgAt planImg d planA 0 old) = [] := by simp [checkSolver, h9, sim, failSlots]
  unfold validate
  simp only [plan_hdr.2.2.2.1, List.range_one, Nat.zero_add, List.map_cons, List.map_nil, List.findSome?_eq_none_iff]
  intro c hc
  have hc' := all_checks _ hf a5 a6 a7 a8 a9 a10 a11 b1 b2 a14 b3 b4 b5 a15 a16 a17 a18 c hc
  simp [hc', lowest]
/-! ## Power, clocks and port H -/

/-- 15 R434; 16 R469: after RESET_N the counters are 0 and the fuses stay. -/
theorem test_power_on_reset : (dv (exec .powerOnReset (st { up with dbg := { up.dbg with now := 9 } }))).dbg.now = 0
    ∧ (dv (exec .vddaoLoss (st up))).pins.vddao = false := by decide +kernel
/-- 15 R440: VID 0x14 and PWR_EN after RESET_N with VDDAO; a failed self-check asserts FAULT_N. -/
theorem wit_reset_release : d0.pins.resetN = false ∧ d0.pins.vddao = true ∧ (dv (exec (.resetNRelease true) (st d0))).pwr.vid = 0x14
    ∧ (dv (exec (.resetNRelease false) (st d0))).pins.faultN = true := by decide +kernel

/-- The device between RESET_N and PWROK. -/
def rising : Dev := { d0 with pins := { d0.pins with resetN := true, pwrEn := true } }
/-- A firmware image that boots from slot A under a fused key. -/
def imgA : FwImage := ⟨0x46574931, 1, 0, 0, 0x1000, 1, 2, 3, true, 5, true, true, 9⟩
/-- A device whose flash holds that image. -/
def bootable : Dev := { rising with
  fuses := { rising.fuses with keys := [(5, false)] }
  flash := { rising.flash with imgA := some imgA, factoryOk := true, tether := { rising.flash.tether with dirs := [0, 6], rates := [1, 1] } } }

/-- 15 R440, R450: no PLL lock is cause 9, no image cause 2. -/
theorem wit_pwrok_rise_fails : rising.pins.pwrok = false ∧ rising.pins.pwrEn = true ∧ rising.pins.resetN = true ∧ rising.pins.vddao = true
    ∧ rising.pwr.cause = 0 ∧ (dv (exec (.pwrokRise ⟨false, true, []⟩) (st rising))).pwr.cause = 9
    ∧ bootImage rising.fuses rising.flash = none ∧ (dv (exec (.pwrokRise ⟨true, true, []⟩) (st rising))).pwr.cause = 2 := by decide +kernel
/-- 15 R440: before the rails are good nothing happens. -/
theorem wit_pwrok_rise_early : exec (.pwrokRise ⟨true, true, []⟩) (st d0) = .next (st d0) := by rfl

/-- 15 R444, R450; 13 R391: a bad factory record is cause 8, failed HBM cause 1, an array failure with no spare cause 1. -/
theorem wit_boot_fails : bootImage bootable.fuses bootable.flash = some (imgA, false, false)
    ∧ (dv (exec (.pwrokRise ⟨true, true, []⟩) (st { bootable with flash := { bootable.flash with factoryOk := false } }))).pwr.cause = 8
    ∧ (dv (exec (.pwrokRise ⟨true, false, []⟩) (st bootable))).pwr.cause = 1
    ∧ (dv (exec (.pwrokRise ⟨true, true, [⟨0, 21, false, none⟩]⟩) (st { bootable with
        integ := { bootable.integ with balArrays := List.replicate 8 false } }))).pwr.cause = 1 := by decide +kernel
/-- 15 R440; 09 R277; 13 R391: a full bring-up, plain and with an array failure that ballast covers. -/
theorem wit_boot_runs : (dv (exec (.pwrokRise ⟨true, true, []⟩) (st bootable))).fw.ready = true
    ∧ ((dv (exec (.pwrokRise ⟨true, true, []⟩) (st bootable))).tth.ports.head?.map Port.state) = some .training
    ∧ MemCanonical (st bootable)
    ∧ (bootable.integ.balArrays[21 / 20]?) = some true
    ∧ (dv (exec (.pwrokRise ⟨true, true, [⟨0, 21, false, none⟩]⟩) (st bootable))).integ.sites.head? = some (0, 21, 161) := by
  unfold MemCanonical; decide +kernel
/-- 04 R153; 13 R391: a buffer row that fails at start-up takes a spare row. -/
theorem wit_boot_row : bootable.groups[3]? = some Group.reset ∧ Group.reset.rowsVu < 16
    ∧ (dv (exec (.pwrokRise ⟨true, true, [⟨2, 3, false, some 5⟩]⟩) (st bootable))).groups[3]?.map Group.rowsVu = some 1 := by decide +kernel
/-- 15 R441, R455; 16 R469: the causes of the safe state. -/
theorem wit_safe_entry : up.pwr.cause = 0 ∧ rising.pins.pwrEn = true ∧ rising.pins.pwrok = false
    ∧ (dv (exec .pwrokTimeout (st rising))).pwr.cause = 3 ∧ up.pins.pwrok = true
    ∧ (dv (exec .pwrokFall (st up))).pwr.cause = 3 ∧ (dv (exec (.railMonitorTrip .vddc) (st up))).pwr.cause = 3
    ∧ (∃ v ∈ [(480 : Int)], 480 ≤ v) ∧ (dv (exec (.thermalTrip ⟨[480], []⟩) (st up))).pins.thermtrip = true
    ∧ (dv (exec (.thermalTrip ⟨[479], [420]⟩) (st up))).pwr.cause = 4 := by decide +kernel
/-- 15 R452, R454: the highest request; 400 quarter degrees is T1. -/
theorem test_reef : (dv (exec (.reefReqChange 2) (st up))).pwr.reef = 2
    ∧ (dv (exec (.thermalRequestChange ⟨[400], []⟩) (st up))).pwr.therm = 1
    ∧ (dv (exec (.thermalRequestChange ⟨[399], []⟩) (st up))).pwr.therm = 0 := by decide +kernel
/-- `up` with clock and reef set. -/
def clocked (f reef : Nat) : Dev := { up with pwr := { up.pwr with clk := f, reef := reef } }
/-- 15 R448, R452: at level 1 the ceiling is 1.0 GHz. -/
theorem wit_clock : clkCeil (clocked 120 1) < 120 ∧ 45 ≤ (clocked 120 1).pwr.clk
    ∧ (dv (exec .reefClockStep (st (clocked 120 1)))).pwr.clk = 115
    ∧ ({ clocked 90 0 with pwr := { (clocked 90 0).pwr with rising := 95 } } : Dev).pwr.rising ≠ 0
    ∧ 90 + 5 ≤ clkCeil { clocked 90 0 with pwr := { (clocked 90 0).pwr with rising := 95 } }
    ∧ (dv (exec .vidSettleClockRise (st { clocked 90 0 with pwr := { (clocked 90 0).pwr with rising := 95 } }))).pwr.clk = 95 := by decide +kernel
/-- 15 R451, R453: the caps and the governor. -/
theorem wit_governor : levelCap 0 < 1501 ∧ (dv (exec (.governorStepDown 1501) (st (clocked 120 0)))).pwr.clk = 115
    ∧ (dv (exec (.governorStepDown 1501) (st (clocked 40 0)))).pwr.hold = 1
    ∧ 1424 * 100 < levelCap 0 * 95 ∧ (dv (exec (.governorStepUp 1424) (st { clocked 40 0 with pwr := { (clocked 40 0).pwr with hold := 2 } }))).pwr.hold = 1
    ∧ 40 < clkCeil (clocked 40 0) ∧ (dv (exec (.governorStepUp 1424) (st (clocked 40 0)))).pwr.rising = 45
    ∧ levelCap 0 * 11 < 1651 * 10 ∧ (dv (exec (.fastClamp 1651) (st up))).pwr.clamps = 1
    ∧ (dv (exec .fastClampEnd (st { up with pwr := { up.pwr with clamped := true } }))).pwr.clamped = false := by decide +kernel
/-- `d0` with group 3 in power state `p` and a plan with a slot on that group. -/
def grouped (p : GroupPwr) : Dev := running { run0 with body := { body0 with slots := [⟨1, 12, 0, 0, false, 0, 0, 0, 0, 0⟩] } }
  { up with gpwr := modAt (fun _ => p) 3 up.gpwr }
/-- 15 R436 to R439. -/
theorem wit_groups : (grouped ⟨.run, false, false, false, false⟩).gpwr[3]? = some ⟨.run, false, false, false, false⟩
    ∧ (dv (exec (.sparGroupIdle 3) (st (grouped ⟨.run, false, false, false, false⟩)))).gpwr[3]? = some ⟨.idle, false, false, false, false⟩
    ∧ (dv (exec (.sleepMark 3) (st (grouped ⟨.run, false, false, false, false⟩)))).gpwr[3]? = some ⟨.idle, true, false, false, false⟩
    ∧ planUses (grouped ⟨.off, false, false, false, false⟩) 3 = true
    ∧ (dv (exec (.wakeMark 3) (st (grouped ⟨.off, false, false, false, false⟩)))).gpwr[3]? = some ⟨.off, false, false, true, false⟩
    ∧ (dv (exec (.wakeMark 3) (st (grouped ⟨.idle, true, false, false, false⟩)))).gpwr[3]? = some ⟨.idle, true, true, false, false⟩
    ∧ (dv (exec (.sparGroupPowerDownDone 3) (st (grouped ⟨.idle, true, true, false, false⟩)))).gpwr[3]? = some ⟨.off, false, true, true, false⟩
    ∧ (dv (exec (.sparGroupRun 3) (st (grouped ⟨.off, false, true, true, false⟩)))).gpwr[3]? = some ⟨.run, false, false, false, false⟩
    ∧ up.integ.cores[1]? = some .clockGated
    ∧ (dv (exec (.corePowerGate 1) (st up))).integ.cores[1]? = some .powerGated ∧ hLinkUp up = false := by decide +kernel
/-- 13 R393; 14 R411: test access. -/
theorem wit_scan : (dv (exec (.scanChainEnable .other) (st up))).dbg.tapAny = true
    ∧ d0.fw.ready = false ∧ (dv (exec (.scanChainEnable .keyStore) (st d0))).dbg.tapKey = true
    ∧ up.fw.ready = true ∧ up.pwr.cause = 0 ∧ (dv (exec (.scanChainEnable .shroud) (st up))).pwr.cause = 7 := by decide +kernel
/-! ## Port H, registers and the halyard's rings -/

/-- 14 R402, R405: the link comes up, goes down, and comes back after a halyard reset. -/
theorem wit_port_h : (modeOrder.find? fun x => [1].contains x) = some 1 ∧ up.cxl.hWasDown = false
    ∧ (dv (exec (.portHLinkUp ⟨[1], 16, false, true, true, false⟩) (st up))).cxl.hMode = 1
    ∧ linked.cxl.hMode ≠ 0 ∧ linked.plan.run = none ∧ (dv (exec .portHLinkDown (st linked))).cxl.hWasDown = true
    ∧ (dv (exec (.portHLinkUp ⟨[1], 16, false, true, true, false⟩) (st (dv (exec .portHLinkDown (st linked)))))).cxl.hWasDown = false
    ∧ (dv (exec .halyardReset (st linked))).irq.cls = 2 := by decide +kernel
/-- 13 R385; 14 R403, R404, R410. -/
theorem wit_port_h_counts : (dv (exec (.cxlLinkRetry true) (st linked))).cxl.gRetry = 1 ∧ linked.cxl.hIde ≠ []
    ∧ (dv (exec .ideIntegrityFailure (st linked))).cxl.hIdeFail = 1 ∧ up.cxl.hIde = []
    ∧ (dv (exec (.doeRequest (.ideKeyProg 4)) (st up))).cxl.hIde = [4] ∧ linked.cxl.hIde = [4]
    ∧ (dv (exec (.doeRequest (.ideKeyStop 4)) (st linked))).cxl.hIde = []
    ∧ (dv (exec (.doeRequest .cdat) (st linked))).cxl.doeOut.length = 1
    ∧ linked.cxl.hFlit256 = true ∧ linked.cxl.hL0p ≠ true ∧ (dv (exec (.l0pChange true) (st linked))).cxl.hL0p = true := by
  decide +kernel
/-- 13 R385: class 4 has THRESH 8; its eighth event overflows. -/
theorem wit_bucket : (up.integ.buckets[4]?.map fun b => (b.thresh, decide (0 < b.regions))) = some (8, true)
    ∧ (((bucketHit 4 0 up).integ.buckets[4]?).map fun b => (b.level.get 0).toNat) = some 1
    ∧ ((List.range 8).foldl (fun d _ => bucketHit 4 0 d) up).integ.bktOvf = 1
    ∧ ((List.range 7).foldl (fun d _ => bucketHit 4 0 d) up).integ.bktOvf = 0 := by decide +kernel
/-- 13 R385, R389. -/
theorem wit_scrub_control : up.integ.scrubEn = true ∧ (dv (exec .scrubDisable (st up))).integ.scrubStopping = true
    ∧ (dv (exec .scrubEnable (st (dv (exec .scrubDisable (st up)))))).integ.scrubPend = true
    ∧ (((dv (exec (.bktCfgWrite 2 0x00050000) (st up))).integ.buckets[2]?).map fun b => (b.thresh, b.leak, b.timer)) = some (5, 0, false) := by
  decide +kernel
/-- 14 R428, R429: a message when cause and mask meet; a masked vector keeps it pending. -/
theorem wit_msix : (dv (exec (.irqMaskWrite 0x200) (st (raise irqTherm up)))).irq.pba.getLsbD 9 = true
    ∧ (dv (exec (.irqCauseClear 0x3FF 0) (st (raise irqTherm up)))).irq.cause = 0
    ∧ up.irq.pba.getLsbD 3 = false ∧ ((dv (exec (.msixUnmask 3) (st up))).irq.table.get 15) = 0
    ∧ (let d := dv (exec (.irqMaskWrite 0x200) (st (raise irqTherm up)))
       d.irq.pba.getLsbD 9 = true ∧ (d.irq.cause &&& d.irq.mask).getLsbD 9 = true ∧ (dv (exec (.msixUnmask 9) (st d))).irq.sent = [9])
    ∧ (dv (exec .dbgWtimeLoRead (st { up with dbg := { up.dbg with now := 2 ^ 32 * 5 + 1 } }))).dbg.wtimeHi = 5 := by decide +kernel
/-- 02 R73, R74; 09 R304; 00 R14. -/
theorem wit_flag_clear : hostFlags counted.nflag 1 = 5 ∧ hostFlags (dv (exec (.nflagClear 1 4 []) (st counted))).nflag 1 = 1
    ∧ (dv (exec (.nflagClear 1 5 []) (st counted))).nflag.first[1]? = some 0xFF
    ∧ (dv (exec (.nflagClear 1 5 []) (st counted))).nflag.plan.get 17 = 5
    ∧ hostFlags (dv (exec (.nflagClear 1 5 [(2, 4)]) (st counted))).nflag 1 = 4
    ∧ (dv (exec (.accflagClear 0x80 0) (st counted))).tth.accFlag = 1 := by decide +kernel
/-- A 1 in CLR clears, a 0 does not. -/
theorem wit_counter_clear : (1 : W32).getLsbD 0 = true ∧ (2 : W32).getLsbD 0 = false
    ∧ (dv (exec (.crwGenCtrlClr 1) (st counted))).gen.rsvdWr = 0 ∧ (dv (exec (.crwGenCtrlClr 2) (st counted))).gen.rsvdWr = 3
    ∧ (dv (exec (.crwCurvCtrlClr 1) (st counted))).curv.pub = 0 ∧ (dv (exec (.crwSolvCtrlClr 1) (st counted))).solv.done = 0
    ∧ (dv (exec (.crwPlanCtrlClr 1) (st counted))).plan.late = 0 ∧ (dv (exec (.crwMemCtrlClr 1) (st counted))).gon.tmo = 0
    ∧ (dv (exec (.crwTthCtrlClr 1) (st counted))).tth.retry = 0 ∧ (dv (exec (.crwVrdCtrlClr 1) (st counted))).vrd.commits = 0
    ∧ (dv (exec (.crwSnapCtrlClr 1) (st counted))).snap.done = 0 ∧ (dv (exec (.crwWgtCtrlClr 1) (st counted))).wgt.chunks = 0
    ∧ (dv (exec (.crwIntCtrlClr 1) (st counted))).integ.ue = 0 ∧ (dv (exec (.crwPwrCtrlClr 1) (st counted))).pwr.peak = 0 := by
  decide +kernel
/-- 14 R407, R411, R413: widths, DBG_SCRATCH, IRQ_CLASS, a base of a ring that is off and of one that runs. -/
theorem wit_register_write : (dv (exec (.registerWrite 0x4004 7 2) (st up))).gen.rsvdWr = 1
    ∧ (dv (exec (.registerWrite 0x4004 7 4) (st up))).dbg.scratch = 7 ∧ (dv (exec (.registerWrite 0x2008 0xF 4) (st up))).irq.cls = 7
    ∧ (up.hly.rings[1]?.map fun r => (r.en, r.quiesced)) = some (false, true)
    ∧ (((dv (exec (.registerWrite 0x1140 0x1000 4) (st up))).hly.rings[1]?).map Ring.sqb) = some 0x1000
    ∧ (dv (exec (.registerWrite 0x1140 0x1000 4) (st { up with hly := { up.hly with
        rings := modAt (fun r => { r with en := true }) 1 up.hly.rings } }))).gen.rsvdWr = 1 := by decide +kernel
/-- A device whose ring 1 is `r`, with the halyard on when `b`. -/
def ringed (b : Bool) (r : Ring) : Dev := { up with hly := { up.hly with en := b, running := b, quiesced := !b, rings := modAt (fun _ => r) 1 up.hly.rings } }
/-- 14 R412, R414, R415: the halyard starts its enabled rings, latches an enable, cancels it, and stops. -/
theorem wit_halyard : up.fw.ready = true ∧ up.hly.en = false ∧ up.hly.quiesced = true
    ∧ (((dv (exec .halyardEnable (st (ringed false { Ring.reset with en := true })))).hly.rings[1]?).map Ring.running) = some true
    ∧ (dv (exec .halyardEnable (st { up with hly := { up.hly with quiesced := false } }))).hly.restPend = true
    ∧ (dv (exec .halyardShutDown (st { up with hly := { up.hly with restPend := true } }))).hly.restPend = false
    ∧ (dv (exec .halyardShutDown (st (ringed true Ring.reset)))).hly.en = false := by decide +kernel
/-- 14 R414, R415, R417: every case of a ring's enable and shut-down. -/
theorem wit_rings : (ringed true Ring.reset).hly.rings[1]? = some Ring.reset ∧ Ring.reset.running = false ∧ Ring.reset.quiesced = true
    ∧ (((dv (exec (.ringEnable 1) (st (ringed false Ring.reset)))).hly.rings[1]?).map Ring.running) = some false
    ∧ (((dv (exec (.ringEnable 1) (st (ringed true Ring.reset)))).hly.rings[1]?).map Ring.running) = some true
    ∧ (((dv (exec (.ringEnable 1) (st (ringed true { Ring.reset with sqb := 5 })))).hly.rings[1]?).map Ring.err) = some 3
    ∧ (((dv (exec (.ringEnable 1) (st (ringed true { Ring.reset with quiesced := false })))).hly.rings[1]?).map Ring.restPend) = some true
    ∧ (((dv (exec (.ringShutDown 1) (st (ringed true { Ring.reset with restPend := true })))).hly.rings[1]?).map Ring.restPend) = some false
    ∧ (((dv (exec (.ringShutDown 1) (st (ringed true { Ring.reset with en := true, running := true })))).hly.rings[1]?).map Ring.en) = some false
    ∧ (((dv (exec (.shutDownComplete 1) (st (ringed true { Ring.reset with quiesced := false })))).hly.rings[1]?).map Ring.quiesced) = some true
    ∧ (((dv (exec (.shutDownComplete 1) (st (ringed true { Ring.reset with quiesced := false, restPend := true })))).hly.rings[1]?).map
        Ring.running) = some true := by decide +kernel
/-- A running ring 1. -/
def ring1 : Ring := { Ring.reset with en := true, running := true, quiesced := false, tail := 1 }
/-- A device with port H's link and that ring. -/
def fetching : Dev := { ringed true ring1 with cxl := linked.cxl }
/-- 14 R416, R417, R420: ring of 16 entries. -/
theorem wit_doorbell : ring1.running = true ∧ 15 < 2 ^ ring1.sqLog2 ∧ 2 ^ ring1.sqLog2 ≤ 16
    ∧ (((dv (exec (.doorbell 1 15) (st (fetching)))).hly.rings[1]?).map Ring.tail) = some 15
    ∧ (((dv (exec (.doorbell 1 16) (st (fetching)))).hly.rings[1]?).map Ring.err) = some 1
    ∧ mayFetch (fetching) ring1 = true ∧ atOnce (fetching) (desc 0x000 0 0 0 0 0) = none
    ∧ (((dv (exec (.commandFetch 1 (some (desc 0x000 0 0 0 0 0))) (st (fetching)))).hly.rings[1]?).map fun r => r.inProg.length) = some 1
    ∧ atOnce (fetching) (desc 0x0FF 0 0 0 0 0) = some { status := 4 }
    ∧ (((dv (exec (.commandFetch 1 (some (desc 0x0FF 0 0 0 0 0))) (st (fetching)))).hly.rings[1]?).map fun r => r.inProg.length) = some 0
    ∧ (((dv (exec (.commandFetch 1 none) (st (fetching)))).hly.rings[1]?).map Ring.err) = some 2 := by decide +kernel
/-- 14 R417, R427, R430. -/
theorem wit_heads : 2 ^ Ring.reset.cqLog2 ≤ 16 ∧ (dv (exec (.cqHeadWrite 1 16) (st up))).gen.rsvdWr = 1
    ∧ 15 < 2 ^ Ring.reset.cqLog2
    ∧ (((dv (exec (.cqHeadWrite 1 2) (st (ringed true { ring1 with used := 3 })))).hly.rings[1]?).map fun r => (r.cqHead, r.used)) = some (2, 1)
    ∧ 2 ^ up.evt.log2 ≤ 16 ∧ (dv (exec (.eventRingHeadWrite 16) (st up))).gen.rsvdWr = 1
    ∧ (dv (exec (.eventRingHeadWrite 2) (st { up with evt := { up.evt with used := 3 } }))).evt.used = 1
    ∧ (dv (exec (.coalescingTimer 1) (st (ringed true { ring1 with sinceClear := 1, coalTime := 5 })))).irq.cause = 2 := by decide +kernel
/-- 14 R416, R419: a NOP's completion holds TAG 7 and the phase bit; with no entry free it is held. -/
theorem wit_completion : runsB (inP (desc 0 0 0 0 0 0) linked) 0x000 (desc 0 0 0 0 0 0) = true
    ∧ (dv (exec (.nop c0) (st (inP (desc 0 0 0 0 0 0) linked)))).host = [(0, 1), (14, 7)]
    ∧ ((dv (exec (.nop c0) (st { inP (desc 0 0 0 0 0 0) linked with hly := { (inP (desc 0 0 0 0 0 0) linked).hly with
        rings := modAt (fun r => { r with used := 16 }) 0 (inP (desc 0 0 0 0 0 0) linked).hly.rings } }))).hly.rings.head?.map
        fun r => r.held.length) = some 1 := by decide +kernel
/-- 14 R402 to R404, R412, R414, R416, R419, R420: links that stay as they are, messages, enables that change nothing, a shut-down with a command in
progress, an earlier doorbell, and a buffer that the host fails. -/
theorem wit_port_h_other : (modeOrder.find? fun x => [9].contains x) = none
    ∧ (dv (exec (.portHLinkUp ⟨[9], 16, false, true, true, false⟩) (st up))).cxl.hMode = 0
    ∧ (dv (exec (.portHLinkUp ⟨[1], 2, false, true, true, false⟩) (st up))).cxl.hMode = 0 ∧ (dv (exec .portHLinkDown (st up))).cxl.hWasDown = false
    ∧ (dv (exec (.cxlLinkRetry false) (st linked))).cxl.hRetry = 1 ∧ (dv (exec .ideIntegrityFailure (st up))).cxl.hIdeFail = 0
    ∧ (dv (exec (.doeRequest (.ideKeyProg 6)) (st linked))).cxl.hIde = [4, 6] ∧ (dv (exec (.doeRequest (.ideKeyStop 6)) (st linked))).cxl.hIde = [4]
    ∧ (dv (exec (.l0pChange true) (st up))).cxl.hL0p = false ∧ up.cxl.hFlit256 = false := by decide +kernel
/-- A running ring whose doorbell came at place `o` in the order of arrival. -/
def belled (o : Nat) : Ring := { ring1 with bells := [(1, o)] }
/-- Rings 0 and 1, with doorbells at `x` and `y`. -/
def twoRings (x y : Nat) : Dev := { fetching with hly := { fetching.hly with
  rings := modAt (fun _ => belled x) 0 (modAt (fun _ => belled y) 1 fetching.hly.rings) } }
theorem wit_halyard_other : (dv (exec .halyardEnable (st d0))).hly.en = false ∧ d0.fw.ready = false
    ∧ (dv (exec .halyardEnable (st (ringed true Ring.reset)))).hly.restPend = false ∧ (dv (exec .halyardShutDown (st up))).hly.en = false
    ∧ (dv (exec (.ringShutDown 1) (st (ringed true { ring1 with inProg := [(1, desc 0 0 0 0 0 0)] })))).hly.rings[1]?.map Ring.quiesced = some false
    ∧ bellBefore 1 (belled 5) (twoRings 4 5) = true ∧ bellBefore 0 (belled 4) (twoRings 4 5) = false
    ∧ (dv (exec (.commandFetch 1 (some 0)) (st (twoRings 4 5)))).hly.rings[1]?.map (fun r => r.inProg.length) = some 0
    ∧ cmdIf (fun _ => true) (inP (desc 0x100 4 0x1000 0 0 0) linked) { c0 with hostFail := true } 0x100 = some (1, desc 0x100 4 0x1000 0 0 0)
    ∧ ((dv (exec (.memRead { c0 with hostFail := true }) (st (inP (desc 0x100 4 0x1000 0 0 0) linked)))).host.get 11) = 5 := by
  and_intros <;> decide +kernel

/-! ## Commands that read, and device memory -/

/-- STATUS of the completion at the foot of ring 0's completion ring, which starts at host address 0 (14 R419). -/
def stat (d : Dev) : Byte := d.host.get 11
/-- DATA of that completion. -/
def datum (d : Dev) : Nat := d.host.readLE 24 8
/-- AUX of that completion. -/
def auxOf (d : Dev) : Nat := d.host.readLE 20 4
/-- What command `i` leaves on device `d`, to which descriptor `x` was fetched. -/
def ran (i : Instr) (x : BitVec 512) (d : Dev) : Dev := dv (exec i (st (inP x d)))
/-- The same over memory `m`. -/
def ranOn (m : Mem) (i : Instr) (x : BitVec 512) (d : Dev) : Dev := dv (exec i ⟨m, inP x d, []⟩)

/-- 02 R73; 13 R385, R394; 14 R421, R422, R424; 15 R456 to R458. -/
theorem wit_read_commands :
    (runsB (inP (desc 0x001 256 0x1000 0 0 0) linked) 0x001 (desc 0x001 256 0x1000 0 0 0) = true
      ∧ (ran (.discover c0) (desc 0x001 256 0x1000 0 0 0) linked).host.readLE 0x1000 1 = (leBytes 256 (discoveryWord linked)).head!.toNat)
    ∧ (runsB (inP (desc 0x002 480 0x1000 1 0 0) { linked with nflag := counted.nflag }) 0x002 (desc 0x002 480 0x1000 1 0 0) = true
      ∧ (ran (.nflagRead c0) (desc 0x002 480 0x1000 1 0 0) { linked with nflag := counted.nflag }).host.readLE 0x1004 2 = 5)
    ∧ (runsB (inP (desc 0x003 256 0x1000 4 0 0) linked) 0x003 (desc 0x003 256 0x1000 4 0 0) = true ∧ linked.integ.buckets[4]?.isSome
      ∧ datum (ran (.counterRead c0) (desc 0x003 256 0x1000 4 0 0) linked) = 40)
    ∧ (runsB (inP (desc 0x004 64 0x1000 0 0 0) linked) 0x004 (desc 0x004 64 0x1000 0 0 0) = true
      ∧ stat (ran (.repairRead c0) (desc 0x004 64 0x1000 0 0 0) linked) = 0) := by decide +kernel
/-- 15 R449, R456 to R458. -/
theorem wit_power_reads :
    (runsB (inP (desc 0x801 0 0 0 0 0) { linked with pwr := { linked.pwr with watts := 5, peak := 6 } }) 0x801 (desc 0x801 0 0 0 0 0) = true
      ∧ datum (ran (.powerRead c0) (desc 0x801 0 0 0 0 0) { linked with pwr := { linked.pwr with watts := 5, peak := 6 } }) / 2 ^ 32 = 5 * 65536 + 6)
    ∧ (runsB (inP (desc 0x802 64 0x1000 0 0 0) linked) 0x802 (desc 0x802 64 0x1000 0 0 0) = true ∧ goes (exec (.calRead c0) (st (inP (desc 0x802 64 0x1000 0 0 0) linked))) = true)
    ∧ (runsB (inP (desc 0x804 256 0x1000 0 0 0) linked) 0x804 (desc 0x804 256 0x1000 0 0 0) = true ∧ goes (exec (.attest c0) (st (inP (desc 0x804 256 0x1000 0 0 0) linked))) = true)
    ∧ (runsB (inP (desc 0x805 256 0x1000 0 0 0) linked) 0x805 (desc 0x805 256 0x1000 0 0 0) = true ∧ goes (exec (.identCert c0) (st (inP (desc 0x805 256 0x1000 0 0 0) linked))) = true)
    ∧ (runsB (inP (desc 0x808 0 0 0 0 0) { linked with pwr := { linked.pwr with cause := 3 } }) 0x808 (desc 0x808 0 0 0 0 0) = true
      ∧ datum (ran (.safeInfo c0) (desc 0x808 0 0 0 0 0) { linked with pwr := { linked.pwr with cause := 3 } }) = 3) := by decide +kernel
/-- A device in the safe state. -/
def safeDev : Dev := { linked with pwr := { linked.pwr with cause := 3 } }
/-- 14 R425: MEM_READ answers SAFE, a NOP is accepted, and a reference to nothing changes nothing. -/
theorem wit_safe_state :
    hlyCommand (.memRead c0) = some (c0, 0x100, fun _ => true) ∧ safeDev.pwr.cause ≠ 0
    ∧ (cmdFor (inP (desc 0x100 64 0x1000 0 0 0) safeDev) c0 0x100).map (·.1) = some 1
    ∧ stat (ran (.memRead c0) (desc 0x100 64 0x1000 0 0 0) safeDev) = 7
    ∧ (cmdFor (inP (desc 0 0 0 0 0 0) safeDev) c0 0).map (·.1) = some 1 ∧ turnedAway safeDev (desc 0 0 0 0 0 0) = false
    ∧ stat (ran (.nop c0) (desc 0 0 0 0 0 0) safeDev) = 0 ∧ cmdFor safeDev c0 0x100 = none := by
  refine ⟨rfl, ?_⟩; decide +kernel
/-- MEM_READ of four bytes of SRAM address 0. -/
def rd0 : BitVec 512 := desc 0x100 4 0x1000 0 0 0
/-- 14 R423: bytes come back, a bad word answers MEMORY with its line, a hole ADDRESS. -/
theorem wit_mem_read : runsB (inP rd0 linked) 0x100 rd0 = true ∧ linked.host.wf = true
    ∧ rangeBacked linked 0 4 = true ∧ touchesSealed linked 0 4 = false ∧ badLines linked.ecc 0 4 = []
    ∧ (ranOn [(2, 0xAB)] (.memRead c0) rd0 linked).host.readLE 0x1000 4 = 0xAB0000
    ∧ (let d := { linked with ecc := { linked.ecc with ue := [0] } }
       runsB (inP rd0 d) 0x100 rd0 = true ∧ badLines d.ecc 0 4 = [0] ∧ stat (ran (.memRead c0) rd0 d) = 8)
    ∧ rangeBacked linked 0x60000000 4 = false ∧ runsB (inP (desc 0x100 4 0x1000 0x60000000 0 0) linked) 0x100 (desc 0x100 4 0x1000 0x60000000 0 0) = true
    ∧ stat (ran (.memRead c0) (desc 0x100 4 0x1000 0x60000000 0 0) linked) = 5 := by decide +kernel
/-- MEM_WRITE of two bytes at SRAM address 0x10. -/
def wr0 : BitVec 512 := desc 0x101 2 0x1000 0x10 0 0
/-- PLAN_LOAD of 128 bytes at the first byte of HBM. -/
def pl0 : BitVec 512 := desc 0x200 128 0x1000 planA 0 0
/-- 14 R421, R423. -/
theorem wit_host_writes :
    runsB (inP wr0 linked) 0x101 wr0 = true ∧ Mem.wf [] = true ∧ rangeBacked linked 0x10 2 = true ∧ hostBarred linked 0x10 2 = []
    ∧ (writeMem [] linked.ecc 0x10 [1, 2]).2.2 = []
    ∧ mm (exec (.memWrite c0 [1, 2]) (st (inP wr0 linked))) = [(0x10, 1), (0x11, 2)]
    ∧ (let d := { linked with ecc := { linked.ecc with ue := [0x20] } }
       (writeMem [] d.ecc 0x10 [1, 2]).2.2 = [0] ∧ stat (ran (.memWrite c0 [1, 2]) wr0 d) = 8)
    ∧ (let x := desc 0x101 2 0x1000 0x60000000 0 0
       runsB (inP x linked) 0x101 x = true ∧ rangeBacked linked 0x60000000 2 = false ∧ stat (ran (.memWrite c0 [1, 2]) x linked) = 5)
    ∧ (runsB (inP pl0 linked) 0x200 pl0 = true ∧ rangeBacked linked planA 128 = true ∧ inHbm linked planA = true ∧ inHbm linked (planA + 127) = true
      ∧ hostBarred linked planA 128 = [] ∧ datum (ran (.planLoad c0 (planImg.read planA 128)) pl0 linked) = 5)
    ∧ (let x := desc 0x200 128 0x1000 0 0 0
       runsB (inP x linked) 0x200 x = true ∧ rangeBacked linked 0 128 = true ∧ inHbm linked 0 = false
       ∧ stat (ran (.planLoad c0 (planImg.read planA 128)) x linked) = 5) := by decide +kernel
/-- HDM_MAP of `len` bytes at `off`. -/
def hdm (off len : Nat) : BitVec 512 := desc 0x700 0 0 off len 0
/-- A device with a range of 256 MiB at the foot of HBM mapped. -/
def mapped : Dev := { linked with cxl := { linked.cxl with hdmBase := planA, hdmLen := 1 } }
/-- The first 256 MiB of HBM are backed. -/
theorem hbm_unit_backed (d : Dev) (h : d.integ.stackAbsent = []) : rangeBacked d planA unit256 = true := by
  have hb : ∀ a, 0x1000000000 ≤ a → a < 0x1010000000 → backed d a = true := by
    intro a h1 h2
    have hs : stackOf a = some 0 := by
      unfold stackOf hbmBase
      have e1 : (a - 0x1000000000) / 0x1800000000 = 0 := by omega
      have e2 : (a - 0x1000000000) % 0x1800000000 < hbmBytes := by unfold hbmBytes; omega
      simp [e1, e2, h1]
    simp [backed, inHbm, hs, h]
  unfold rangeBacked planA hbmBase unit256
  simp only [Bool.and_eq_true, List.all_eq_true, Bool.or_eq_true, List.mem_range, decide_eq_true_eq]
  refine ⟨⟨⟨by omega, hb _ (by omega) (by omega)⟩, hb _ (by omega) (by omega)⟩, fun k hk => ?_⟩
  by_cases hk' : k < 0xFFFF
  · exact .inl (hb _ (by omega) (by omega))
  · exact .inr (by omega)
/-- 14 R431. -/
theorem wit_host_range : rangeBacked linked planA unit256 = true
    ∧ runsB (inP (hdm planA unit256) linked) 0x700 (hdm planA unit256) = true ∧ linked.cxl.hMode = 1
    ∧ hostBarred linked planA unit256 = [] ∧ planA % unit256 = 0
    ∧ (ran (.hdmMap c0) (hdm 0 0) mapped).cxl.hdmLen = 0
    ∧ stat (ran (.hdmMap c0) (hdm planA unit256) { linked with cxl := { linked.cxl with hMode := 3 } }) = 2
    ∧ stat (ran (.hdmMap c0) (hdm planA 1) linked) = 2
    ∧ hdmAddr mapped unit256 1 = none ∧ (dv (exec (.hdmHostRead unit256 1) (st mapped))).cxl.hdmOut = [([0xFF], true)]
    ∧ hdmAddr mapped 8 2 = some (planA + 8)
    ∧ (dv (exec (.hdmHostRead 8 2) ⟨[(planA + 9, 3)], mapped, []⟩)).cxl.hdmOut = [([0, 3], false)]
    ∧ mm (exec (.hdmHostWrite 8 [0, 3]) (st mapped)) = [(planA + 9, 3)]
    ∧ (writeMem [] mapped.ecc (planA + 8) [0, 3]).2.2 = [] ∧ mm (exec (.hdmHostWrite unit256 [3]) (st mapped)) = [] :=
  ⟨hbm_unit_backed linked rfl, by decide +kernel⟩

/-! ## Plan commands, snapshot commands and patches -/

/-- PLAN_ADMIT of the test plan. -/
def pa0 : BitVec 512 := desc 0x201 0 0 planA 0 0
/-- PLAN_REPLACE by the test plan at step `s`. -/
def pr0 (s : Nat) : BitVec 512 := desc 0x202 0 0 planA s 0
/-- PLAN_STOP at step `s`. -/
def ps0 (s : Nat) : BitVec 512 := desc 0x203 0 0 0 s 0
/-- A run between its steps: step index 3. -/
def run3 : Run := { run0 with phase := .between }
/-- The test plan itself, between its steps. -/
def runP : Run := { run3 with addr := planA, hdr := hdrAt planImg planA, body := bodyAt planImg planA 0 }
theorem plan_fits : checksB (imgAt planImg (atTime 5 linked) planA 0 none) = true := by decide +kernel
/-- 07 R236: a good set is admitted at step 0; a memory without a plan is REJECTED. -/
theorem wit_plan_admit (hsim : ∀ c, Config.simFault c 0 (imageBytes planImg planA) = none) :
    validate planImg (atTime 5 linked) planA none = none
    ∧ runsB (inP pa0 linked) 0x201 pa0 = true ∧ (atTime 5 linked).plan.latched = none ∧ stopComing (atTime 5 linked) = false
    ∧ (atTime 5 linked).plan.run = none ∧ spaceBusy planImg (atTime 5 linked) planA = false
    ∧ (∃ j, validate [] (atTime 5 linked) planA none = some j) ∧ spaceBusy [] (atTime 5 linked) planA = false :=
  ⟨plan_valid _ _ hsim plan_fits, by decide +kernel, by decide +kernel, by decide +kernel, by decide +kernel, by decide +kernel,
    no_plan _ _ _ _ (by decide +kernel), by decide +kernel⟩
/-- 07 R236, R237: while a plan runs or another admission is latched it is REFUSED, behind a stop it is latched. -/
theorem wit_plan_admit_busy :
    (let d := running run3 linked
     runsB (inP pa0 d) 0x201 pa0 = true ∧ (atTime 5 d).plan.run ≠ none ∧ stopComing (atTime 5 d) = false ∧ stat (ran (.planAdmit c0 5) pa0 d) = 2)
    ∧ (let d := { linked with plan := { linked.plan with latched := some (1, 2, 3) } }
       runsB (inP pa0 d) 0x201 pa0 = true ∧ (atTime 5 d).plan.latched ≠ none ∧ stat (ran (.planAdmit c0 5) pa0 d) = 2)
    ∧ (let d := running run3 { linked with plan := { linked.plan with req := some (.stop 3) } }
       runsB (inP pa0 d) 0x201 pa0 = true ∧ (atTime 5 d).plan.latched = none ∧ stopComing (atTime 5 d) = true
       ∧ (ran (.planAdmit c0 5) pa0 d).plan.latched = some (0, 7, planA)) := by decide +kernel
/-- 07 R237. -/
theorem wit_plan_replace (hsim : ∀ c, Config.simFault c 0 (imageBytes planImg planA) = none) :
    validate planImg (running runP linked) planA (some runP.body) = none
    ∧ runsB (inP (pr0 3) (running runP linked)) 0x202 (pr0 3) = true ∧ (running runP linked).plan.req = none ∧ runP.step = 3
    ∧ runsB (inP (pr0 2) (running runP linked)) 0x202 (pr0 2) = true ∧ stat (ran (.planReplace c0) (pr0 2) (running runP linked)) = 2
    ∧ runsB (inP (pr0 3) linked) 0x202 (pr0 3) = true ∧ linked.plan.run = none ∧ stat (ran (.planReplace c0) (pr0 3) linked) = 2
    ∧ ∃ j, validate [] (running runP linked) planA (some runP.body) = some j :=
  ⟨plan_valid _ _ hsim (by decide +kernel), by decide +kernel, by decide +kernel, by decide +kernel, by decide +kernel, by decide +kernel,
    by decide +kernel, by decide +kernel, by decide +kernel, no_plan _ _ _ _ (by decide +kernel)⟩
/-- 07 R237: at the step index of a step that has not begun the plan stops at once, else at step index S. -/
theorem wit_plan_stop :
    (let d := running { run3 with begun := true } linked
     runsB (inP (ps0 3) d) 0x203 (ps0 3) = true ∧ (ran (.planStop c0) (ps0 3) d).plan.req = some (.stop 3)
     ∧ runsB (inP (ps0 2) d) 0x203 (ps0 2) = true ∧ stat (ran (.planStop c0) (ps0 2) d) = 2)
    ∧ (let d := running { run3 with begun := false } linked
       runsB (inP (ps0 3) d) 0x203 (ps0 3) = true ∧ (ran (.planStop c0) (ps0 3) d).plan.run = none)
    ∧ runsB (inP (ps0 3) linked) 0x203 (ps0 3) = true ∧ stat (ran (.planStop c0) (ps0 3) linked) = 2 := by decide +kernel

/-- A solver of id 1 with one patch buffer of 64 KiB at WORK + 256. -/
def solver1 : Solver :=
  { record := ⟨0x10000, 0, 1, 0, 0, 0, 0, 0, 0, 100, 0, 0, 0, 0, 1, 4, 0, 1⟩, hdr := ⟨0, 0, 0, 0, 0, 0, 1, 0, 0, 0, false, 4⟩
    k := 0, s := 1, d := 0, changed := true, valGen := 0, posted := [false, false], touched := [], slot := none, preGen := 0, run := none
    waiting := none, t0 := none, offTack := false, tackB := false, solved := false, patched := none, x0 := [], diagOk := false, sent := []
    valLost := false, strLost := false }
/-- A device with that solver. -/
def solving : Dev := { linked with solv := { linked.solv with solvers := [solver1] } }
/-- PATCH_POST of 32 bytes for solver `n`. -/
def pp0 (n : Nat) : BitVec 512 := desc 0x204 32 0x1000 n 0 0
/-- PERM_HOST_DONE of 3 entries for variant 0. -/
def ph0 : BitVec 512 := desc 0x205 0 0 0 3 0
/-- A patch of SEQ 1 whose last byte is 9. -/
def patch1 : List Byte := List.replicate 20 0 ++ [1] ++ List.replicate 10 0 ++ [9]
/-- 06 R197; 09 R294: SEQ 1 goes into the second buffer. -/
theorem wit_patch : runsB (inP (pp0 2) solving) 0x204 (pp0 2) = true ∧ solverAt solving 2 = none ∧ stat (ran (.patchPost c0 patch1) (pp0 2) solving) = 2
    ∧ runsB (inP (pp0 1) solving) 0x204 (pp0 1) = true ∧ solverAt solving 1 = some solver1 ∧ patch1.length = dLen (pp0 1) ∧ 32 ≤ patchBytes solver1
    ∧ (writeMem [] solving.ecc (patchBuf solver1 1) patch1).2.2 = []
    ∧ mm (exec (.patchPost c0 patch1) (st (inP (pp0 1) solving))) = [(0x20114, 1), (0x2011F, 9)]
    ∧ (let d := running { run3 with phase := .permuting } linked
       runsB (inP ph0 d) 0x205 ph0 = true ∧ (ran (.permHostDone c0) ph0 d).plan.permHost = 3)
    ∧ runsB (inP ph0 linked) 0x205 ph0 = true ∧ stat (ran (.permHostDone c0) ph0 linked) = 2 := by decide +kernel
/-- SNAP_CTRL with operation `op`. -/
def sc0 (op a1 a2 : Nat) : BitVec 512 := desc 0x300 0 0 op a1 a2
/-- 11 R349: bounds, a forced point of a step that is too near, disable, enable behind a drain, and the host window. -/
theorem wit_snap_ctrl :
    runsIfB (snapOp 0) (inP (sc0 0 0x20001 7) linked) 0x300 (sc0 0 0x20001 7) = true
    ∧ (ran (.snapSetBounds c0) (sc0 0 0x20001 7) linked).snap.iMax = 2
    ∧ runsIfB (snapOp 0) (inP (sc0 0 0x10002 7) linked) 0x300 (sc0 0 0x10002 7) = true ∧ stat (ran (.snapSetBounds c0) (sc0 0 0x10002 7) linked) = 2
    ∧ runsIfB (snapOp 1) (inP (sc0 1 5 0) (running run3 linked)) 0x300 (sc0 1 5 0) = true
    ∧ (ran (.snapForcePoint c0) (sc0 1 5 0) (running run3 linked)).snap.forced = [5]
    ∧ runsIfB (snapOp 1) (inP (sc0 1 4 0) (running run3 linked)) 0x300 (sc0 1 4 0) = true
    ∧ stat (ran (.snapForcePoint c0) (sc0 1 4 0) (running run3 linked)) = 2
    ∧ runsIfB (snapOp 2) (inP (sc0 2 0 0) linked) 0x300 (sc0 2 0 0) = true ∧ (ran (.snapDisable c0) (sc0 2 0 0) linked).snap.disabled = true
    ∧ runsIfB (snapOp 3) (inP (sc0 3 0 0) linked) 0x300 (sc0 3 0 0) = true ∧ linked.snap.drain = none
    ∧ (ran (.snapEnable c0) (sc0 3 0 0) linked).snap.disabled = false
    ∧ runsIfB (snapOp 4) (inP (sc0 4 5 6) linked) 0x300 (sc0 4 5 6) = true ∧ (ran (.snapHostWindow c0) (sc0 4 5 6) linked).snap.host = some (5, 6, 0) := by
  decide +kernel
/-- A snapshot of step 9 under way while snapshots are disabled. -/
def draining : Dev := { linked with snap := { linked.snap with disabled := true, drain := some ⟨9, 0, 0, 0, [], 0, [], 0, 0, 0, 0⟩ } }
/-- SNAP_RESTORE of the test plan at step `s`. -/
def sr0 (s : Nat) : BitVec 512 := desc 0x301 0 0 planA s 0
/-- Header of a snapshot slot of step 9 without items (11 R343). -/
def slotHdr : List Byte := leBytes 256 (0x534E5031 * 2 ^ 2016 + 1 * 2 ^ 2008 + 5 * 2 ^ 1896 + 9 * 2 ^ 1832)
/-- The cells of the bytes of `l` from `o`, zeros left out. -/
def cells (o : Nat) (l : List Byte) : List (Nat × Byte) := (l.zipIdx.filter fun x => x.1 ≠ 0).map fun x => (o + x.2, x.1)
/-- That slot's image: header and commit record (11 R343). -/
def slotImg : List (Nat × Byte) :=
  cells 0 slotHdr ++ cells 0xFC0 (leBytes 64 (9 * 2 ^ 448 + 14634274900165041317 * 2 ^ 384 + 0x434D5431 * 2 ^ 352))
theorem crc_zeros (n : Nat) (l : List Byte) : crc64 (List.replicate n 0 ++ l) = crc64 l := by
  have h0 : crc64Byte 0 0 = 0 := by decide +kernel
  induction n with
  | zero => rfl
  | succ n ih => rw [List.replicate_succ, List.cons_append]; unfold crc64; rw [List.foldl_cons, h0]; exact ih
theorem slot_crc : crc64 (imageRd slotImg 0 256) = 14634274900165041317 := by
  have e : imageRd slotImg 0 256 = List.replicate 224 0 ++ slotHdr.drop 224 := by decide +kernel
  rw [e, crc_zeros]; decide +kernel
theorem slot_step : slotStepOf (imageRd slotImg) 0x1000 = some 9 := by
  have n : bits (leNat (imageRd slotImg 0 256)) 1831 1800 = 0 := by decide +kernel
  have a : bits (leNat (imageRd slotImg (0x1000 - 64) 64)) 383 352 = 0x434D5431 ∧ bits (leNat (imageRd slotImg (0x1000 - 64) 64)) 511 448 = 9
      ∧ bits (leNat (imageRd slotImg 0 256)) 1895 1832 = 9 ∧ bits (leNat (imageRd slotImg (0x1000 - 64) 64)) 447 384 = 14634274900165041317 := by
    decide +kernel
  unfold slotStepOf
  simp only [n, a, slot_crc, Nat.mul_zero, Nat.add_zero, List.range_zero, List.all_nil]
  simp
theorem plan_tack : (bodyAt planImg planA 0).tack.slotBytes = 0x1000 ∧ (bodyAt planImg planA 0).tack.rvar = 0
    ∧ (bodyAt planImg planA 0).tacks = [⟨0, 0, 7, 0, 0x4000, 0x5000, 0x100⟩] ∧ (bodyAt planImg planA 0).ledgers = [] ∧ rootRecs planImg planA (bodyAt planImg planA 0) = [] := by
  decide +kernel
/-- 11 R349 to R351: an enable waits for the snapshot that a disable lets finish; a restore is refused while a plan is admitted, and goes on from
the host's copy of a snapshot of step 9. -/
theorem wit_snap_restore (hsim : ∀ c, Config.simFault c 0 (imageBytes planImg planA) = none) :
    (runsIfB (snapOp 3) (inP (sc0 3 0 0) draining) 0x300 (sc0 3 0 0) = true
      ∧ (ran (.snapEnable c0) (sc0 3 0 0) draining).snap.restPend = true
      ∧ runsB (inP (sr0 9) (running run3 linked)) 0x301 (sr0 9) = true
      ∧ stat (ran (.snapRestore c0 ⟨[], []⟩ 5) (sr0 9) (running run3 linked)) = 2
      ∧ runsB (inP (sr0 9) linked) 0x301 (sr0 9) = true ∧ (atTime 5 linked).plan.run = none ∧ (atTime 5 linked).plan.stopping = false
      ∧ (atTime 5 linked).plan.latched = none ∧ spaceBusy planImg (atTime 5 linked) planA = false)
    ∧ validate planImg (atTime 5 linked) planA none = none
    ∧ restoreSources planImg (atTime 5 linked) (bodyAt planImg planA 0).tack ⟨[], slotImg⟩ 9 ≠ []
    ∧ ∀ srcs, restoreWrites srcs planImg (bodyAt planImg planA 0) (rootRecs planImg planA (bodyAt planImg planA 0)) ≠ none := by
  refine ⟨by decide +kernel, plan_valid _ _ hsim plan_fits, ?_, fun srcs => ?_⟩
  · apply List.ne_nil_of_mem (a := imageRd slotImg)
    unfold restoreSources
    rw [List.mem_filter, plan_tack.1, slot_step]
    exact ⟨by simp, by simp⟩
  · simp [restoreWrites, plan_tack.2.2, tackWrites, rootWrites, allThere]

/-! ## Weights, gondola, ballast, firmware -/

/-- A device with two base slots of 256 MiB at the foot of HBM, no adapter slots, and `f` done to session 1. -/
def slots2 (f : Session → Session) : Dev := { linked with wgt := { linked.wgt with
  geom := some (planA, unit256, 2, 0, 0, 0), sessions := modAt f 1 linked.wgt.sessions } }
/-- An open session on base slot 1, on the host route. -/
def openOn : Session := { Session.reset with isOpen := true, slot := 1, hostRoute := true, pub := some 5 }
/-- A manifest of one shard of 100 bytes, unsigned. -/
def man1 : ManifestIn := ⟨0x574D4631, 1, 0, false, false, true, 9, 0, 1, 0, 100, [⟨0, 65536, 100, 1, true⟩], none⟩
/-- Its key record. -/
def key1 : KeyIn := ⟨9, 2, 3, true, true⟩
/-- The manifest's bytes (12 R362). -/
def man1Bytes : List Byte :=
  leBytes 128 (0x574D4631 * 2 ^ 992 + 1 * 2 ^ 984 + 9 * 2 ^ 912 + 1 * 2 ^ 816 + 1 * 2 ^ 800 + 100 * 2 ^ 704)
    ++ leBytes 128 (65536 * 2 ^ 952 + 100 * 2 ^ 904 + 1 * 2 ^ 840)
/-- A device whose session 1 is `q` and whose host buffer at 0x2000 holds the key record (12 R364). -/
def keyDev (q : Session) : Dev :=
  { slots2 fun _ => q with host := Mem.write [] 0x2000 (leBytes 128 (9 * 2 ^ 704 + 2 * 2 ^ 160 + 3 * 2 ^ 96)) }
/-- WGT_KEY of session 1. -/
def wk0 : BitVec 512 := desc 0x401 128 0x2000 1 0 0
/-- `openOn` with the manifest in its window. -/
def openWin : Session := { openOn with win := Mem.write [] 0 man1Bytes }
/-- A chunk of that shard; its tag verifies when `ok`. -/
def chunk1 (ok : Bool) : ChunkIn := ⟨0, 0, [7], ok, true, false⟩
/-- WGT_OPEN of base slot `k`, host route. -/
def wo0 (k : Nat) : BitVec 512 := desc 0x400 96 0x1000 (2 * k + 16) 0 0
/-- A weight command of opcode `opc` on session 1. -/
def ws0 (opc a1 a2 : Nat) : BitVec 512 := desc opc 0 0 1 a1 a2
/-- 12 R364: session 0 is free; base slot 3 does not exist; with four sessions open none is free; a close. -/
theorem wit_weight_sessions :
    runsB (inP (wo0 1) (slots2 id)) 0x400 (wo0 1) = true ∧ (slots2 id).wgt.sessions.findIdx? (fun q => !q.isOpen) = some 0
    ∧ mayOpen (slots2 id) false 1 false = true
    ∧ runsB (inP (wo0 3) (slots2 id)) 0x400 (wo0 3) = true ∧ mayOpen (slots2 id) false 3 false = false
    ∧ stat (ran (.wgtOpen c0 5) (wo0 3) (slots2 id)) = 2 ∧ auxOf (ran (.wgtOpen c0 5) (wo0 3) (slots2 id)) = 7
    ∧ (let d := { linked with wgt := { linked.wgt with sessions := List.replicate 4 openOn } }
       runsB (inP (wo0 1) d) 0x400 (wo0 1) = true ∧ d.wgt.sessions.findIdx? (fun q => !q.isOpen) = none
       ∧ stat (ran (.wgtOpen c0 5) (wo0 1) d) = 2)
    ∧ runsB (inP (ws0 0x403 0 0) (slots2 fun _ => openOn)) 0x403 (ws0 0x403 0 0) = true ∧ (sessionAt (slots2 fun _ => openOn) 1).isOpen = true
    ∧ (sessionAt (ran (.wgtClose c0) (ws0 0x403 0 0) (slots2 fun _ => openOn)) 1).isOpen = false
    ∧ runsB (inP (ws0 0x403 0 0) (slots2 id)) 0x403 (ws0 0x403 0 0) = true ∧ stat (ran (.wgtClose c0) (ws0 0x403 0 0) (slots2 id)) = 2 := by
  decide +kernel
/-- A device whose base slot 1 is READY, while a plan of no binding runs. -/
def ready1 : Dev := running { run3 with begun := true } { slots2 id with wgt := { (slots2 id).wgt with
  base := modAt (fun w => { w with state := .ready, planBind := 5 }) 1 (slots2 id).wgt.base } }
/-- WGT_SWITCH to base slot `b` from step `s`. -/
def wsw (b s : Nat) : BitVec 512 := desc 0x404 0 0 b s 0
/-- PUB_KEY for key 2 that enrols or clears. -/
def pk0 (enrol : Bool) : BitVec 512 := desc 0x405 (if enrol then 32 else 0) (if enrol then 0x1000 else 0) (2 + if enrol then 8 else 0) 0 0
/-- DIGEST_PERIOD. -/
def dp0 (s : Nat) : BitVec 512 := desc 0x406 0 0 s 0 0
/-- 12 R361, R371, R374: a switch to a READY slot, and one to an EMPTY slot; keys; 60 s and 86,400 s are in range. -/
theorem wit_weight_settings :
    runsB (inP (wsw 1 4) ready1) 0x404 (wsw 1 4) = true ∧ switchRefused ready1 1 0 4 = false ∧ ready1.wgt.pend = none
    ∧ (ran (.wgtSwitch c0) (wsw 1 4) ready1).wgt.pend = some (1, 0, 4)
    ∧ runsB (inP (wsw 0 4) ready1) 0x404 (wsw 0 4) = true ∧ switchRefused ready1 0 0 4 = true ∧ stat (ran (.wgtSwitch c0) (wsw 0 4) ready1) = 2
    ∧ runsIfB (fun y => bit (dArg0 y) 3) (inP (pk0 true) linked) 0x405 (pk0 true) = true
    ∧ (ran (.pubKeyEnrol c0 77) (pk0 true) linked).wgt.pubKeys[2]? = some (some 77)
    ∧ runsIfB (fun y => !bit (dArg0 y) 3) (inP (pk0 false) linked) 0x405 (pk0 false) = true
    ∧ (ran (.pubKeyClear c0) (pk0 false) { linked with wgt := { linked.wgt with pubKeys := List.replicate 8 (some 1) } }).wgt.pubKeys[2]? = some none
    ∧ runsB (inP (dp0 60) linked) 0x406 (dp0 60) = true ∧ (ran (.digestPeriod c0) (dp0 60) linked).wgt.period = 60
    ∧ (ran (.digestPeriod c0) (dp0 86400) linked).wgt.period = 86400 ∧ stat (ran (.digestPeriod c0) (dp0 59) linked) = 3
    ∧ runsB (inP (dp0 59) linked) 0x406 (dp0 59) = true ∧ stat (ran (.digestPeriod c0) (dp0 86401) linked) = 3 := by decide +kernel
/-- A session with its manifest in force. -/
def keyed : Session := { openOn with cek := true, man := some man1, key := some key1, want := [(0, 0)] }
/-- 12 R363 to R369; 14 R424: the key record on both routes, one that fails, a chunk, a bad tag, and the window. -/
theorem wit_weight_streaming :
    manifestOf man1Bytes none = man1 ∧ keyOf ((keyDev openOn).host.read 0x2000 128) true = key1
    ∧ runsB (inP wk0 (keyDev openWin)) 0x401 wk0 = true ∧ (keyDev openWin).wgt.sessions[1]? = some openWin
    ∧ openWin.man = none ∧ keyResult (keyDev openWin) openWin key1 man1 = 0 ∧ openWin.repair = false
    ∧ openWin.win.read 0 (manifestSize (openWin.win.read 0 128)) = man1Bytes
    ∧ (sessionAt (ran (.wgtKey c0 ⟨true, none⟩ []) wk0 (keyDev openWin)) 1).want = [(0, 0)]
    ∧ (let q := { openOn with hostRoute := false }
       runsB (inP wk0 (keyDev q)) 0x401 wk0 = true ∧ keyResult (keyDev q) q key1 man1 = 0
       ∧ (sessionAt (ran (.wgtKey c0 ⟨true, none⟩ man1Bytes) wk0 (keyDev q)) 1).cmd = some (0, 7))
    ∧ keyResult (keyDev openWin) openWin { key1 with tagOk := false } man1 = 3
    ∧ auxOf (ran (.wgtKey c0 ⟨false, none⟩ []) wk0 (keyDev openWin)) = 3
    ∧ (let d := slots2 fun _ => keyed
       runsB (inP (ws0 0x402 0 1) d) 0x402 (ws0 0x402 0 1) = true ∧ d.wgt.sessions[1]? = some keyed
       ∧ man1.shards[0]? = some ⟨0, 65536, 100, 1, true⟩ ∧ (0, 0) ∈ keyed.want ∧ keyed.hostFails = []
       ∧ (ran (.wgtChunks c0 [chunk1 true]) (ws0 0x402 0 1) d).wgt.chunks = 1
       ∧ mm (exec (.wgtChunks c0 [chunk1 true]) (st (inP (ws0 0x402 0 1) d))) = [(planA + unit256 + 65536, 7)]
       ∧ (ran (.wgtChunks c0 [chunk1 false]) (ws0 0x402 0 1) d).wgt.tagFail = 1)
    ∧ (dv (exec (.shroudWindowWrite 0x8000004 [6]) (st (slots2 fun _ => openOn)))).wgt.sessions[1]?.map Session.win = some [(4, 6)]
    ∧ (dv (exec (.shroudWindowWrite 0x8000004 [6]) (st (slots2 id)))).evt.fseq = 1
    ∧ (slots2 fun q => { q with noted := true }).wgt.sessions[1]? = some { Session.reset with noted := true } := by decide +kernel
/-- A device whose bays 0 and 2 are ONLINE with 512 MiB each; bay 1 has state `b`. -/
def bays2 (b : BayState) : Dev := { linked with gon := { linked.gon with
  bays := modAt (fun y => { y with state := b }) 1 ((modAt (fun y => { y with state := .online, cap := 2 }) 2
    (modAt (fun y => { y with state := .online, cap := 2 }) 0 linked.gon.bays))) } }
/-- GON_CONFIGURE. -/
def gc0 (mask cap : Nat) : BitVec 512 := desc 0x500 0 0 mask cap 0
/-- GON_REMOVE of bay `b`. -/
def gr0 (b : Nat) : BitVec 512 := desc 0x501 0 0 b 0 0
/-- 08 R256, R259, R260: bays 0 and 2 interleave; a set of one bay is refused; removals of a GONE, an ONLINE and an EMPTY bay. -/
theorem wit_gondola : runsB (inP (gc0 5 unit256) (bays2 .empty)) 0x500 (gc0 5 unit256) = true ∧ maskBays 5 = [0, 2]
    ∧ (bays2 .empty).gon.il = none ∧ (∀ k ∈ maskBays 5, bayOnline (bays2 .empty) k = true ∧ unit256 ≤ (bayAt (bays2 .empty) k).cap * unit256
        ∧ placedOn (bays2 .empty) k = false)
    ∧ (ran (.gonConfigure c0) (gc0 5 unit256) (bays2 .empty)).gon.il = some ([0, 2], unit256)
    ∧ runsB (inP (gc0 1 unit256) (bays2 .empty)) 0x500 (gc0 1 unit256) = true
    ∧ stat (ran (.gonConfigure c0) (gc0 1 unit256) (bays2 .empty)) = 2
    ∧ runsB (inP (gr0 1) (bays2 .gone)) 0x501 (gr0 1) = true
    ∧ ((ran (.gonRemove c0) (gr0 1) (bays2 .gone)).gon.bays[1]?.map Bay.state) = some .empty
    ∧ runsB (inP (gr0 0) (bays2 .empty)) 0x501 (gr0 0) = true ∧ placedOn (bays2 .empty) 0 = false ∧ targetOn (bays2 .empty) 0 = false
    ∧ ((ran (.gonRemove c0) (gr0 0) (bays2 .empty)).gon.bays[0]?.map Bay.state) = some .draining
    ∧ stat (ran (.gonRemove c0) (gr0 1) (bays2 .empty)) = 2 := by decide +kernel
/-- BALLAST_ROTATE and BIST_RUN. -/
def br0 (kind n s : Nat) : BitVec 512 := desc 0x600 0 0 (kind + 256 * n) s 0
/-- A test of the unit at `site` of `slice`. -/
def bi0 (slice site : Nat) : BitVec 512 := desc 0x601 0 0 (site + 65536 * slice) 0 0
/-- No spare arrays and a test under way. -/
def noSpare : Dev := { linked with integ := { linked.integ with balArrays := List.replicate 8 false, bistRun := true } }
/-- 13 R392. -/
theorem wit_ballast : runsB (inP (br0 0 159 4) linked) 0x600 (br0 0 159 4) = true ∧ ballastScope linked 0 159 = some (arrayScope 159)
    ∧ spareFor linked 0 (arrayScope 159) = true ∧ (ran (.ballastRotate c0) (br0 0 159 4) linked).integ.rotReq = [(0, 159, 4)]
    ∧ runsB (inP (br0 0 159 4) noSpare) 0x600 (br0 0 159 4) = true ∧ spareFor noSpare 0 (arrayScope 159) = false
    ∧ stat (ran (.ballastRotate c0) (br0 0 159 4) noSpare) = 2
    ∧ runsB (inP (bi0 0 (ballastSite linked 0 3)) linked) 0x601 (bi0 0 (ballastSite linked 0 3)) = true
    ∧ ballastAt linked 0 (ballastSite linked 0 3) ≠ none ∧ linked.integ.bistRun = false
    ∧ (ran (.bistRun c0) (bi0 0 (ballastSite linked 0 3)) linked).integ.bistRun = true
    ∧ runsB (inP (bi0 0 3) noSpare) 0x601 (bi0 0 3) = true ∧ datum (ran (.bistRun c0) (bi0 0 3) noSpare) = 2 := by decide +kernel
/-- A firmware image of SVN `v` with body hash 0. -/
def image (v : Nat) (ok : Bool) : FwImage := ⟨0x46574931, 1, v, 0, 4096, 1, 0, 0, true, 0, true, ok, 0⟩
/-- A calibration record without its CRC: every field zero. -/
def calNoCrc : Nat := 0x55434C31 * 2 ^ 224 + 2 ^ 216
/-- The record with its CRC-32C (log entry 10). -/
def calRec : BitVec 256 := BitVec.ofNat 256 (calNoCrc + 2672487516)
/-- A device with images `a` and `b` in flash that runs firmware of SVN 2. -/
def flashed (a b : Option FwImage) : Dev := { linked with flash := { linked.flash with imgA := a, imgB := b }, fw := { linked.fw with svn := 2 } }
/-- A command of class 0x8 with argument `a`. -/
def fw0 (opc len a : Nat) : BitVec 512 := desc opc len (if len = 0 then 0 else 0x1000) a 0 0
/-- 15 R445, R452, R458. -/
theorem wit_reef_cal : runsB (inP (fw0 0x800 0 2) linked) 0x800 (fw0 0x800 0 2) = true ∧ (ran (.reefSet c0) (fw0 0x800 0 2) linked).pwr.host = 2
    ∧ (ran (.reefSet c0) (fw0 0x800 0 2) linked).pwr.reef = 2
    ∧ runsB (inP (fw0 0x803 32 0) linked) 0x803 (fw0 0x803 32 0) = true ∧ calOk 0 = false ∧ stat (ran (.calWrite c0 0) (fw0 0x803 32 0) linked) = 2
    ∧ calOk calRec = true ∧ (ran (.calWrite c0 calRec) (fw0 0x803 32 0) linked).pwr.cal = calRec
    ∧ (ran (.calWrite c0 calRec) (fw0 0x803 32 0) linked).flash = linked.flash
    ∧ runsB (inP (fw0 0x803 32 1) linked) 0x803 (fw0 0x803 32 1) = true
    ∧ (ran (.calWrite c0 calRec) (fw0 0x803 32 1) linked).flash ≠ linked.flash := by decide +kernel
/-- 15 R442 to R444, R447: images go to slot A or B; SVN 2 commits where both images hold it. -/
theorem wit_firmware : runsB (inP (fw0 0x806 4096 0) linked) 0x806 (fw0 0x806 4096 0) = true ∧ imageOk linked.fuses (image 2 false) = false
    ∧ stat (ran (.flashWrite c0 (image 2 false)) (fw0 0x806 4096 0) linked) = 2 ∧ imageOk linked.fuses (image 2 true) = true
    ∧ (ran (.flashWrite c0 (image 2 true)) (fw0 0x806 4096 0) linked).flash.imgA = some (image 2 true)
    ∧ runsB (inP (fw0 0x806 4096 1) linked) 0x806 (fw0 0x806 4096 1) = true
    ∧ (ran (.flashWrite c0 (image 2 true)) (fw0 0x806 4096 1) linked).flash.imgB = some (image 2 true)
    ∧ runsIfB (fun y => !bit (dArg0 y) 1) (inP (fw0 0x807 0 1) linked) 0x807 (fw0 0x807 0 1) = true
    ∧ (ran (.bootSelect c0) (fw0 0x807 0 1) linked).flash.prefB = true
    ∧ (let d := flashed (some (image 2 true)) (some (image 3 true))
       runsIfB (fun y => bit (dArg0 y) 1) (inP (fw0 0x807 0 3) d) 0x807 (fw0 0x807 0 3) = true
       ∧ (ran (.bootSelectCommitSvn c0) (fw0 0x807 0 3) d).fuses.svn = 2)
    ∧ runsIfB (fun y => bit (dArg0 y) 1) (inP (fw0 0x807 0 3) linked) 0x807 (fw0 0x807 0 3) = true ∧ linked.flash.imgA = none
    ∧ stat (ran (.bootSelectCommitSvn c0) (fw0 0x807 0 3) linked) = 2
    ∧ (cmdFor (inP (fw0 0x809 0 0) linked) c0 0x809).map (·.1) = some 1
    ∧ (ran (.deviceReset c0) (fw0 0x809 0 0) linked).fw.ready = false ∧ stat (ran (.deviceReset c0) (fw0 0x809 0 0) linked) = 0
    ∧ (ran (.deviceReset c0) (fw0 0x809 0 0) linked).pins.pwrEn = true := by decide +kernel

/-! ## Steps and slots -/

/-- A slot of context 0 without waits. -/
def sl (seq stream kind payload arg : Nat) : Slot := ⟨seq, stream, kind, 0, false, 0, 0, payload, arg, 0xFFFF⟩
/-- A run in its step whose slots are `ws`. -/
def runOf (ws : List Slot) : Run := { run0 with body := { body0 with slots := ws } }
/-- A device with every spar group in RUN on which those slots run. -/
def has (ws : List Slot) (d : Dev) : Dev := running (runOf ws) { d with gpwr := d.gpwr.map fun p => { p with state := .run } }
/-- The hypotheses `Issues` as a Bool. -/
def issuesB (d : Dev) (seq kind : Nat) (r : Run) (w : Slot) : Bool :=
  decide (d.plan.run = some r) && decide (carriedHead r seq = none) && decide (slotOf r seq = some w) && decide (w.kind = kind) && slotReady d r w
    && !otherFirst d r w && groupReady d w
theorem issues_of_issuesB {d : Dev} {seq kind : Nat} {r : Run} {w : Slot} (h : issuesB d seq kind r w = true) : Issues d seq kind r w := by
  simpa [issuesB, Issues, and_assoc] using h
/-- The slots that have issued, those that are complete, and the phase, after `i` on device `d`. -/
def after (i : Instr) (d : Dev) : Option (List Nat × List Nat × StepPhase) :=
  (dv (exec i (st d))).plan.run.map fun r => (r.issued, r.done, r.phase)
/-- The step takes the front command; an empty queue is one watch cycle, or idling without power; reset is canonical. -/
theorem wit_queue : (dv (step ⟨[], up, [.nflagClear 1 4 [], .pwrokFall]⟩)).pins.pwrok = true
    ∧ (dv (step (st { up with pins := { up.pins with vddao := true } }))).dbg.now = up.dbg.now + 1 ∧ up.pins.resetN = true
    ∧ (dv (step State.reset)).dbg.now = 0 ∧ (State.reset.dev.pins.vddao = false ∨ State.reset.dev.pins.resetN = false)
    ∧ Mem.wf State.reset.mem = true ∧ goes (step ⟨[], up, [.pwrokFall]⟩) = true := by decide +kernel
/-- 07 R231, R232, R234: a start, one before its anchor, one before the flip; a late barrier; the watchdog while the step runs and at the verdict. -/
theorem wit_step_start :
    (let r := { run3 with begun := true, hdr := { hdr0 with period := 0 } }
     stepFree (running r up) r = true ∧ isSafe (running r up) = false ∧ (running r up).plan.req = none ∧ r.hdr.period = 0
     ∧ (running r up).snap.owed = none ∧ r.lateEvent = none ∧ r.pendVar = none
     ∧ ((dv (exec (.stepStart 50) (st (running r up)))).plan.run.map fun q => (q.start, q.startTime, q.phase)) = some (3, 50, .running))
    ∧ (let r := { run3 with begun := false, hdr := { hdr0 with period := 0 } }
       stepFree (running r up) r = true ∧ ((dv (exec (.stepStart 50) (st (running r up)))).plan.run.map Run.start) = some 2)
    ∧ stepFree (running run0 up) run0 = false ∧ ((dv (exec (.stepStart 50) (st (running run0 up)))).plan.run.map Run.start) = some 2
    ∧ (let r := { run3 with begun := true, hdr := { hdr0 with period := 100 }, j := 3 }
       stepFree (running r up) r = true ∧ 50 < nextAnchor r ∧ ((dv (exec (.stepStart 50) (st (running r up)))).plan.run.map Run.start) = some 2) := by
  decide +kernel
theorem wit_barrier_watchdog :
    (let r := { run3 with begun := false, barrier := false, barrierNote := false, body := { body0 with nRank := 2 } }
     barrierDone (running r up) r = false ∧ (dv (exec .admissionBarrierTimeout (st (running r up)))).evt.fseq = 1)
    ∧ (dv (exec .admissionBarrierTimeout (st (running run0 up)))).evt.fseq = 0 ∧ run0.begun = true
    ∧ run0.cde.contains 5 = false ∧ run0.phase = .running ∧ run0.body.limits = []
    ∧ ((dv (exec .stepWatchdog (st (running run0 up)))).plan.run.map fun q => (q.cde, q.phase)) = some ([5], .atVerdict)
    ∧ (let r := { run0 with phase := .atVerdict }
       ((dv (exec .stepWatchdog (st (running r up)))).plan.run.map fun q => (q.cde, q.phase)) = some ([5], .atVerdict)) := by decide +kernel
/-- A device with ACK pending of a message of stream 240. -/
def fencing (ws : List Slot) : Dev := { has ws up with tth := { up.tth with
  pend := [⟨5, 240, some (2, 9), ⟨0, 0, 0, false, 0, 0, 0, 1, 2, 0, 0, 0, 5, 0, 0, 0, 0, 0, 2, 0⟩, 0, none, false⟩] } }
/-- 07 R224 to R226; 09 R291: waits, fences and marks. -/
theorem wit_simple_slots :
    issuesB (atTime 9 (has [sl 9 240 5 0 0] up)) 9 5 (runOf [sl 9 240 5 0 0]) (sl 9 240 5 0 0) = true
    ∧ after (.waitSlot 9 9) (has [sl 9 240 5 0 0] up) = some ([9], [9], .running)
    ∧ (let w := { sl 9 240 5 0 0 with waitA := 2 ^ 31 + 8 }
       slotReady (atTime 9 (has [w] up)) (runOf [w]) w = false ∧ after (.waitSlot 9 9) (has [w] up) = some ([], [], .running))
    ∧ issuesB (has [sl 9 240 6 0 0] up) 9 6 (runOf [sl 9 240 6 0 0]) (sl 9 240 6 0 0) = true
    ∧ after (.fenceSlot 9) (has [sl 9 240 6 0 0] up) = some ([9], [9], .running)
    ∧ (fencing [sl 9 240 6 0 0]).tth.pend.any (fun p => p.stream = 240) = true ∧ after (.fenceSlot 9) (fencing [sl 9 240 6 0 0]) = some ([], [], .running)
    ∧ issuesB (has [sl 9 265 7 0 4] up) 9 7 (runOf [sl 9 265 7 0 4]) (sl 9 265 7 0 4) = true
    ∧ after (.stepEnd 9) (has [sl 9 265 7 0 4] up) = some ([9], [9], .running) := by decide +kernel
/-- The record of a fold of engines 2 and 3 into 0x1000, at payload 0x1000 (log entry 31). -/
def foldMem : Mem := Mem.writeLE [] 0x60001000 40 (0x1000 + 2 ^ 66 + 2 ^ 67)
/-- 02 R72: the fold of context 0's flags of two engines lands at the record's address and clears their words. -/
theorem wit_flag_fold :
    (let d := { has [sl 9 265 7 0x1000 3] up with nflag := { up.nflag with plan := [(16, 1), (17, 8), (24, 4), (32, 2)] } }
     issuesB d 9 7 (runOf [sl 9 265 7 0x1000 3]) (sl 9 265 7 0x1000 3) = true ∧ foldAt foldMem 0x60001000 = ⟨0x1000, [2, 3]⟩
     ∧ heldWrite d 0x1000 2 = false ∧ resolveWrite d 0x1000 = 0x1000 ∧ rootBarred d 0x1000 = false ∧ rmwBad d.ecc 0x1000 2 = false
     ∧ readinessHeld d = false ∧ mm (exec (.flagFold 9) ⟨foldMem, d, []⟩) = (0x1000, 5) :: foldMem
     ∧ (dv (exec (.flagFold 9) ⟨foldMem, d, []⟩)).nflag.plan = [(17, 8), (32, 2)]) := by
  decide +kernel
/-- A transfer descriptor of one row of two bytes from 0x2000 to 0x3000 at the run's payload 0x100 (08 R245). -/
def xferMem : Mem := (Mem.writeLE [] 0x60000100 32 (0x2000 * 2 ^ 208 + 0x3000 * 2 ^ 160 + 2 * 2 ^ 128)).writeLE 0x2000 2 0x0605
/-- A device on which slots `ws` run beside a tack entry at 0x3000 whose other copy is HELD. -/
def heldTack (ws : List Slot) : Dev := running { run0 with body := { body0 with slots := ws, tacks := [⟨0, 0, 0, 0xFFFF, 0x3000, 0x4000, 256⟩] } }
  { has ws up with tack := { up.tack with copies := [(.current, .held)] } }
/-- 08 R245: a transfer issues, its bytes arrive later; behind an earlier transfer of its queue they wait, and so does a slot whose copy is HELD. -/
theorem wit_xfer :
    (let w := sl 9 256 3 0x100 0
     issuesB (has [w] up) 9 3 (runOf [w]) w = true ∧ isDrainArg w.arg = false ∧ xferWrites (runOf [w]) w xferMem (has [w] up) = [(0x3000, 2)]
     ∧ heldWrite (has [w] up) 0x3000 2 = false
     ∧ ((dv (exec (.xferSlot 9) ⟨xferMem, has [w] up, []⟩)).plan.run.map Run.issued) = some [9]
     ∧ heldWrite (heldTack [w]) 0x3000 2 = true ∧ (dv (exec (.xferSlot 9) ⟨xferMem, heldTack [w], []⟩)).tack.waits = [9]
     ∧ (let r := { runOf [w] with issued := [9] }
        let d := running r up
        inFlight r 9 = some (r.start, r.addr, w) ∧ r.carried = [] ∧ xferBehind r r.start w = false ∧ d.ecc.ue = [] ∧ d.ecc.lost = [] ∧ d.ecc.gonLost = []
        ∧ (mm (exec (.xferComplete 9) ⟨xferMem, d, []⟩)).readLE 0x3000 2 = 0x0605)
     ∧ (let v := sl 8 256 3 0x100 0
        let r := { runOf [v, w] with issued := [8, 9] }
        inFlight r 9 = some (r.start, r.addr, w) ∧ xferBehind r r.start w = true ∧ (mm (exec (.xferComplete 9) ⟨xferMem, running r up, []⟩)).get 0x3000 = 0)) := by
  decide +kernel

/-! ## Main arrays, tiles and Gram arrays -/

/-- A record of one M-block row, FP32 results to the tile queue, or to the carry store when `dest`. -/
def rec1 (dest : Bool) (rows : Nat) : ArrRec := { arrRecAt [] 0 with dest := dest, rows := rows, ncw := 0 }
/-- A weight set of slot 9. -/
def pass1 (dest loaded claimed : Bool) (rows : Nat) : Pass := ⟨9, 0, rec1 dest rows, false, false, loaded, [], 0, claimed⟩
/-- A device whose array 5 holds that set, on which slot 9 is in flight. -/
def inArr (p : Pass) : Dev := running { runOf [sl 9 5 0 0 0] with issued := [9] }
  { has [sl 9 5 0 0 0] up with arrays := modAt (fun x => { x with passes := [p] }) 5 up.arrays }
/-- The sets of array 5 after `i`: whether each is loaded and claimed. -/
def setsOf (i : Instr) (d : Dev) : Option (List (Bool × Bool)) := (dv (exec i (st d))).arrays[5]?.map fun x => x.passes.map fun p => (p.loaded, p.claimed)
/-- Entries of group 1's queue. -/
def queueOf (i : Instr) (d : Dev) : Option (List (Bool × Nat)) := (dv (exec i (st d))).groups[1]?.map fun g => g.queue.map fun e => (e.isSealed, e.seq)
/-- 03 R78 to R80, R84: a weight set issues unloaded on register 0, the array turns to register 1; loads complete; a carry set's slot is then complete. -/
theorem wit_weight_sets :
    issuesB (has [sl 9 5 0 0 0] up) 9 0 (runOf [sl 9 5 0 0 0]) (sl 9 5 0 0 0) = true ∧ (arrRecAt [] 0x60000000).tap.en = false
    ∧ (arrRecAt [] 0x60000000).preload ≠ 1 ∧ (arrRecAt [] 0x60000000).cfill = 0 ∧ up.arrays[5]? = some MArr.reset
    ∧ up.ecc.ue = [] ∧ up.ecc.lost = [] ∧ up.ecc.gonLost = []
    ∧ (inArr (pass1 false false false 1)).arrays[5]? = some { MArr.reset with passes := [pass1 false false false 1] }
    ∧ setsOf (.weightLoadComplete 5 0) (inArr (pass1 false false false 1)) = some [(true, false)]
    ∧ setsOf (.weightLoadComplete 5 0) (inArr (pass1 true false false 1)) = some [(true, false)]
    ∧ after (.weightLoadComplete 5 0) (inArr (pass1 true false false 1)) = some ([9], [9], .running)
    ∧ setsOf (.weightLoadComplete 5 0) (inArr (pass1 false true false 1)) = some [(true, false)] := by decide +kernel
/-- Array 5's other set, whose two sets still load. -/
def loading2 : Dev := let p := pass1 false false false 1
  { has [sl 9 5 0 0 0] up with arrays := modAt (fun x => { x with passes := [p, p] }) 5 up.arrays }
/-- Stalled units and the remainder of group 1 after `i`. -/
def stalled (i : Instr) (d : Dev) : Option Nat × Option Nat := let t := (dv (exec i (st d))).gen; (t.stall[1]?, t.stallRem[1]?)
/-- 03 R80, R84; 07 R226: a set issues on the array and the spar has streamed; an array whose two sets load waits; the cycles of a set behind another are
stall. -/
theorem wit_array_slot :
    arrayAccepts (arrRecAt [] 0x60000000) 5 (has [sl 9 5 0 0 0] up) = true ∧ groupTurn [] (has [sl 9 5 0 0 0] up) (runOf [sl 9 5 0 0 0]) (sl 9 5 0 0 0) = false
    ∧ setsOf (.arraySlot 9 ⟨[], []⟩) (has [sl 9 5 0 0 0] up) = some [(false, false)]
    ∧ ((dv (exec (.arraySlot 9 ⟨[], []⟩) (st (has [sl 9 5 0 0 0] up)))).groups[1]?.map Group.streamed) = some true
    ∧ arrayAccepts (arrRecAt [] 0x60000000) 5 loading2 = false ∧ (setsOf (.arraySlot 9 ⟨[], []⟩) loading2).map List.length = some 2
    ∧ stalled (.weightLoadComplete 5 70) (inArr { pass1 false false false 1 with after := true }) = (some 1, some 6)
    ∧ stalled (.weightLoadComplete 5 70) (inArr (pass1 false false false 1)) = (some 0, some 0) := by
  and_intros <;> decide +kernel
/-- `d` with `n` entries in group 1's queue. -/
def queued (n : Nat) (d : Dev) : Dev := { d with groups := modAt (fun g => { g with
  queue := List.replicate n ⟨1, 4, 0, 0, 0, false, false, 1, 0, 0, true, []⟩ }) 1 d.groups }
/-- 03 R101 to R105; 04 R112: seven entries leave room for one, eight do not; the last tile of a set ends it. -/
theorem wit_tiles :
    (inArr (pass1 false true false 1)).groups[1]? = some Group.reset ∧ (pass1 false true false 1).entries = 1
    ∧ queueOf (.tileClaim 5) (inArr (pass1 false true false 1)) = some [(false, 9)]
    ∧ ((queueOf (.tileClaim 5) (queued 7 (inArr (pass1 false true false 1)))).map List.length) = some 8
    ∧ ((dv (exec (.tileClaim 5) (st (queued 8 (inArr (pass1 false true false 1)))))).groups[1]?.map Group.waiting) = some [(9, 0, 5)]
    ∧ queueOf (.tileClaim 5) (inArr (pass1 false false false 1)) = some []
    ∧ (let d := dv (exec (.tileClaim 5) (st (inArr (pass1 false true false 1))))
       queueOf (.tileSeal 5) d = some [(true, 9)] ∧ setsOf (.tileSeal 5) d = some [] ∧ after (.tileSeal 5) d = some ([9], [9], .running))
    ∧ (let d := dv (exec (.tileClaim 5) (st (inArr (pass1 false true false 129))))
       setsOf (.tileSeal 5) d = some [(true, false)] ∧ after (.tileSeal 5) d = some ([9], [], .running))
    ∧ setsOf (.tileSeal 5) (inArr (pass1 false true false 1)) = some [(true, false)] := by decide +kernel
/-- 03 R108, R109, R111; 05 R166; 13 R395, R397. -/
theorem wit_replays :
    (dv (exec (.arrayReplay 5 ⟨false, false⟩ 3) (st (inArr (pass1 false true false 1))))).integ.parReplay = 1
    ∧ (dv (exec (.arrayReplay 5 ⟨false, false⟩ 3) (st up))).integ.parReplay = 0 ∧ sparesLeft up 5 ≠ 0
    ∧ (dv (exec (.arrayReplay 5 ⟨false, true⟩ 3) (st (inArr (pass1 false true false 1))))).integ.parReplay = 1
    ∧ ((inArr (pass1 false true false 1)).arrays[6]?.map MArr.passes) = some []
    ∧ (dv (exec (.mainArraySwap 5) (st up))).integ.balArrays[arrayScope 5]? = some false
    ∧ sparesLeft noSpare 5 = 0 ∧ ((dv (exec (.mainArraySwap 5) (st noSpare))).arrays[5]?.map MArr.absent) = some true
    ∧ up.groups[39]? = some Group.reset ∧ (dv (exec (.gramReplay 39 false) (st up))).curv.gramReplay = 1
    ∧ (up.integ.balGrams[1]?).getD false = true ∧ (dv (exec (.gramReplay 39 true) (st up))).integ.balGrams[1]? = some false
    ∧ (let d := { up with integ := { up.integ with balGrams := [false, false] } }
       ((dv (exec (.gramReplay 39 true) (st d))).groups[39]?.map Group.gramAbsent) = some true)
    ∧ (let d := { up with groups := modAt (fun g => { g with gramAbsent := true }) 39 up.groups }
       (dv (exec (.gramReplay 39 false) (st d))).curv.gramReplay = 0)
    ∧ (let d := { up with arrays := modAt (fun x => { x with absent := true }) 5 up.arrays }
       (dv (exec (.mainArraySwap 5) (st d))).evt.fseq = 0) := by decide +kernel
/-- 05 R161 to R165: a Gram record turns to the other plane and completes its slot; a spill into a HELD copy waits. -/
theorem wit_gram : (let w := sl 9 161 1 0 0
     issuesB (has [w] up) 9 1 (runOf [w]) w = true ∧ (gramRecAt [] 0x60000000).spill = false ∧ up.groups[1]? = some Group.reset
     ∧ Group.reset.planes.length = 2 ∧ (dv (exec (.gramSlot 9) (st (has [w] up)))).groups[1]?.map Group.plane1 = some true
     ∧ after (.gramSlot 9) (has [w] up) = some ([9], [9], .running))
    ∧ (let w := sl 9 161 1 0 0
       let m : Mem := (Mem.writeLE [] 0x60000000 8 (2 ^ 60 + 2 ^ 61 + 2 ^ 59)).writeLE 0x60000010 6 0x3000
       issuesB (heldTack [w]) 9 1 { run0 with body := { body0 with slots := [w], tacks := [⟨0, 0, 0, 0xFFFF, 0x3000, 0x4000, 256⟩] } } w = true
       ∧ (gramRecAt m 0x60000000).spill = true ∧ heldWrite (heldTack [w]) (gramRecAt m 0x60000000).tile 16384 = true
       ∧ (dv (exec (.gramSlot 9) ⟨m, heldTack [w], []⟩)).tack.waits = [9]) := by decide +kernel

/-! ## Vector units -/

/-- Fields of TYPE `ty`, DST, three sources and IMM, row 0 alone. -/
def vf (ty dst a b c imm : Nat) : VFields := ⟨ty, dst, a, b, c, false, false, false, 0, 0, 0, imm⟩
/-- Context 0 of group 0. -/
def u0 : VUse := ⟨0, 0⟩
/-- An instruction word (04 R122). -/
def vword (cls op : Nat) (f : VFields) : Nat :=
  cls * 2 ^ 60 + op * 2 ^ 56 + f.type * 2 ^ 54 + f.dst * 2 ^ 50 + f.a * 2 ^ 46 + f.b * 2 ^ 42 + f.c * 2 ^ 38 + ofBool f.axis * 2 ^ 37
    + ofBool f.subFlush * 2 ^ 36 + ofBool f.rtz * 2 ^ 35 + f.row0 * 2 ^ 28 + f.rowsM1 * 2 ^ 21 + f.scal * 2 ^ 16 + f.imm
/-- Memory `m` with that word and an extension word at 0x60000000, where the block of the tests stands. -/
def codeIn (m : Mem) (cls op : Nat) (f : VFields) (ext : Nat) : Mem :=
  (m.writeLE 0x60000000 8 (vword cls op f)).writeLE 0x60000008 8 ext
/-- `up` with tile buffers T0, T1 and T2, VL 1 lane or more, scalar words, and a block of four words at its first. -/
def vecD (t0 t1 t2 : Sparse 32) (vl : Nat) (sc : Sparse 64) : Dev := { up with groups := modAt (fun g => { g with
  bufs := [t0, t1, t2, [], [], []]
  ctxs := modAt (fun x => { x with vl := vl, scal := sc, start := (vl, sc), blocks := [(9, 0x60000000, 4)] }) 0 g.ctxs }) 0 up.groups }
/-- T0 = 6, T1 = 2, T2 = 1 in lane 0; scalar words 1 and 2 are 3 and 4. -/
def fp0 : Dev := vecD [(0, 0x40C00000)] [(0, 0x40000000)] [(0, 0x3F800000)] 1 [(1, 0x40400000), (2, 0x40800000)]
/-- The hypothesis `VecAt` holds of an instruction that stands in the block. -/
def vecAtB (m : Mem) (d : Dev) (cls op : Nat) (f : VFields) (ext : Option W64) : Bool :=
  ((vecIn m d u0 cls op f ext).bind fun i => (i.g.bufs[f.dst]?).map fun t =>
    decide (t.Pairwise (fun p q => p.1 < q.1)) && decide (i.x.vl ≤ 128)).getD false && decide (f.dst ≤ 5)
theorem vecAt_of_vecAtB {s : State} {cls op : Nat} {f : VFields} {ext : Option W64} (h : vecAtB s.mem s.dev cls op f ext = true) :
    ∃ i t, VecAt s u0 cls op f ext i t := by
  unfold vecAtB at h
  cases hv : vecIn s.mem s.dev u0 cls op f ext with
  | none => simp [hv] at h
  | some i =>
    cases ht : i.g.bufs[f.dst]? with
    | none => simp [hv, ht] at h
    | some t =>
      simp [hv, ht] at h
      exact ⟨i, t, hv, ht, h.2, by simpa using h.1.1, h.1.2⟩
/-- An instruction stands in the block of `d`, and it can issue there. -/
def standsB (d : Dev) (cls op : Nat) (f : VFields) : Bool := (vecIn (codeIn [] cls op f 0) d u0 cls op f none).isSome
/-- What `i`, of class `cls` and operation `op`, leaves on `d` where it stands in the block. -/
def vecRun (cls op : Nat) (i : VUse → VFields → Instr) (f : VFields) (d : Dev) : Dev := dv (exec (i u0 f) ⟨codeIn [] cls op f 0, d, []⟩)
/-- Slot (r, c) of tile buffer `b` of group 0 after it. -/
def slotAfter (cls op : Nat) (i : VUse → VFields → Instr) (f : VFields) (d : Dev) (b r c : Nat) : Option Nat :=
  (vecRun cls op i f d).groups[0]?.bind fun g => (g.bufs[b]?).map fun t => slotGet false t r c
/-- Word `k` of context 0 after it. -/
def scalAfter (cls op : Nat) (i : VUse → VFields → Instr) (f : VFields) (d : Dev) (k : Nat) : Option Nat :=
  (vecRun cls op i f d).groups[0]?.bind fun g => (g.ctxs[0]?).map fun x => (x.scal.get k).toNat
/-- Fields of ARITH operation `op` on T0, T1 and T2, as many as it reads. -/
def arF (op : Nat) : VFields := vf 0 3 0 (if (opUses 0 op 3).2.1 then 1 else 15) (if (opUses 0 op 3).2.2 then 2 else 15) 0
/-- An ARITH instruction in scalar mode: words 1, 2 and 0 into word 0. -/
def scF : VFields := vf 0 14 15 15 15 0x440
/-- RED of rows into row 9, and into scalar word 1. -/
def axF : VFields := { vf 0 3 0 15 15 9 with axis := true }
def sF : VFields := { vf 0 14 0 15 15 0 with scal := 1 }
/-- Fields of PERM operation `op`. -/
def peF (op : Nat) : VFields := if op = 6 then { vf 0 3 0 15 15 0 with rowsM1 := 127 } else vf 0 3 0 (if op < 4 then 1 else 15) 15 0
/-- No draw, and no amax record. -/
def noDraw : DrawIn := ⟨0, 0, 0, ⟨0, 0, 0, false⟩⟩
/-- 04 R126 to R129: 6 and 2, by hand, into T3. -/
theorem wit_arith : (List.range 15).all (fun op => vecAtB (codeIn [] 0 op (arF op) 0) fp0 0 op (arF op) none && arithForm op (arF op)) = true
    ∧ slotAfter 0 0 .add (arF 0) fp0 3 0 0 = some 0x41000000 ∧ slotAfter 0 1 .sub (arF 1) fp0 3 0 0 = some 0x40800000
    ∧ slotAfter 0 2 .mul (arF 2) fp0 3 0 0 = some 0x41400000 ∧ slotAfter 0 3 .fma (arF 3) fp0 3 0 0 = some 0x41500000
    ∧ slotAfter 0 4 .fnma (arF 4) fp0 3 0 0 = some 0xC1300000 ∧ slotAfter 0 5 .min (arF 5) fp0 3 0 0 = some 0x40000000
    ∧ slotAfter 0 6 .max (arF 6) fp0 3 0 0 = some 0x40C00000 ∧ slotAfter 0 7 .abs (arF 7) fp0 3 0 0 = some 0x40C00000
    ∧ slotAfter 0 8 .neg (arF 8) fp0 3 0 0 = some 0xC0C00000 ∧ slotAfter 0 9 .div (arF 9) fp0 3 0 0 = some 0x40400000
    ∧ slotAfter 0 10 .sqrt (vf 0 3 2 15 15 0) fp0 3 0 0 = some 0x3F800000 ∧ slotAfter 0 11 .rsqrt (vf 0 3 2 15 15 0) fp0 3 0 0 = some 0x3F800000
    ∧ slotAfter 0 12 .recip (vf 0 3 1 15 15 0) fp0 3 0 0 = some 0x3F000000 ∧ slotAfter 0 13 .exp2 (vf 0 3 1 15 15 0) fp0 3 0 0 = some 0x40800000
    ∧ slotAfter 0 14 .log2 (vf 0 3 1 15 15 0) fp0 3 0 0 = some 0x3F800000 := by decide +kernel
/-- 04 R114, R118, R122, R125: the scalar form, lanes beyond VL, a reserved TYPE, a queue position that is not claimed, and an instruction that
does not stand next. -/
theorem wit_arith_forms : (List.range 15).all (fun op => standsB fp0 0 op scF && arithForm op scF) = true ∧ scF.dst = 14
    ∧ scalAfter 0 0 .add scF fp0 0 = some 0x40E00000 ∧ slotAfter 0 0 .add (arF 0) fp0 3 0 1 = some 0
    ∧ (List.range 15).all (fun op => !arithForm op (vf 3 3 0 1 15 0)) = true ∧ slotAfter 0 0 .add (vf 3 3 0 1 15 0) fp0 3 0 0 = some 0
    ∧ (List.range 15).all (fun op => !standsB fp0 0 op (vf 0 3 6 1 2 0)) = true ∧ slotAfter 0 0 .add (vf 0 3 6 1 15 0) fp0 3 0 0 = some 0
    ∧ slotAfter 0 1 .add (arF 0) fp0 3 0 0 = some 0 := by decide +kernel
/-- 04 R128: INT32 saturates. -/
theorem wit_int32 : (int32 2147483648).flags = fOVF ∧ (int32 (-2147483649)).flags = fOVF ∧ s32 (int32 2147483647).code = 2147483647
    ∧ slotAfter 0 0 .add (vf 2 3 0 1 15 0) (vecD [(0, 0x7FFFFFFF)] [(0, 1)] [] 1 []) 3 0 0 = some 0x7FFFFFFF
    ∧ slotAfter 0 7 .abs (vf 2 3 0 15 15 0) (vecD [(0, 0x80000000)] [] [] 1 []) 3 0 0 = some 0x7FFFFFFF
    ∧ (vf 2 3 0 1 15 0).type = 2 := by decide +kernel
/-- Row 0 of T0 holds 1, 2 and 4. -/
def row3 : Dev := vecD [(0, 0x3F800000), (1, 0x40000000), (2, 0x40800000)] [(0, 2), (1, 0), (2, 9)] [] 3 []
/-- 04 R131 to R133: the five reductions of 1, 2 and 4 into column 5, one down the rows, one into word 1. -/
theorem wit_reductions : (List.range 5).all (fun op => vecAtB (codeIn [] 2 op (vf 0 3 0 15 15 5) 0) row3 2 op (vf 0 3 0 15 15 5) none
      && redForm op (vf 0 3 0 15 15 5) && vecAtB (codeIn [] 2 op axF 0) row3 2 op axF none && redForm op axF
      && standsB row3 2 op sF && redForm op sF && !standsB row3 2 op (vf 0 3 6 15 15 5) && !redForm op (vf 3 3 0 15 15 5)) = true
    ∧ (vf 0 3 0 15 15 5).axis = false ∧ axF.axis = true ∧ sF.dst = 14
    ∧ slotAfter 2 0 .sum (vf 0 3 0 15 15 5) row3 3 0 5 = some 0x40E00000 ∧ slotAfter 2 1 .sumsq (vf 0 3 0 15 15 5) row3 3 0 5 = some 0x41A80000
    ∧ slotAfter 2 2 .redMax (vf 0 3 0 15 15 5) row3 3 0 5 = some 0x40800000 ∧ slotAfter 2 3 .redMin (vf 0 3 0 15 15 5) row3 3 0 5 = some 0x3F800000
    ∧ slotAfter 2 4 .amax (vf 0 3 0 15 15 5) row3 3 0 5 = some 0x40800000
    ∧ slotAfter 2 0 .sum axF row3 3 9 1 = some 0x40000000 ∧ scalAfter 2 0 .sum sF row3 1 = some 0x40E00000 := by
  decide +kernel
/-- 04 R134, R135: lane 0 takes lane 2's value, lane 2's index 9 is beyond VL; broadcasts; the form of a transposition. -/
theorem wit_permutes : (List.range 7).all (fun op => vecAtB (codeIn [] 3 op (peF op) 0) row3 3 op (peF op) none && permForm op (peF op)) = true
    ∧ slotAfter 3 0 .perm (peF 0) row3 3 0 0 = some 0x40800000 ∧ slotAfter 3 0 .perm (peF 0) row3 3 0 2 = some 0
    ∧ slotAfter 3 1 .scat (peF 1) row3 3 0 2 = some 0x3F800000 ∧ slotAfter 3 2 .scatadd (peF 2) row3 3 0 0 = some 0x40000000
    ∧ slotAfter 3 3 .cgath (peF 3) row3 3 0 1 = some 0x40000000 ∧ slotAfter 3 5 .cbcast (vf 0 3 0 15 15 2) row3 3 0 0 = some 0x40800000
    ∧ slotAfter 3 4 .rbcast { vf 0 3 0 15 15 0 with row0 := 7 } row3 3 7 1 = some 0x40000000
    ∧ (List.range 7).all (fun op => !standsB row3 3 op (vf 0 3 6 1 15 0) && !permForm op (vf 3 3 0 1 15 0)) = true
    ∧ slotAfter 3 6 .xpose (vf 0 3 0 15 15 0) row3 3 1 0 = some 0 := by decide +kernel
/-- 04 R136, R137: the smallest and the largest of three. -/
theorem wit_selections : (List.range 2).all (fun op => vecAtB (codeIn [] 4 op (vf 0 3 0 15 15 128) 0) row3 4 op (vf 0 3 0 15 15 128) none
      && selForm op (vf 0 3 0 15 15 128) && !standsB row3 4 op (vf 0 3 6 15 15 128) && !selForm op (vf 0 3 0 15 15 0x60)) = true
    ∧ slotAfter 4 0 .selSmallest (vf 0 3 0 15 15 128) row3 3 0 0 = some 0x3F800000
    ∧ slotAfter 4 1 .selLargest (vf 0 3 0 15 15 128) row3 3 0 0 = some 0x40800000
    ∧ slotAfter 4 1 .selLargest (vf 0 3 0 15 15 0x60) row3 3 0 0 = some 0 := by decide +kernel
/-- `row3` with VL 32. -/
def row32 : Dev := vecD [(0, 0x3F800000), (1, 0x40000000), (2, 0x40800000)] [] [] 32 []
/-- CVT of T0 to FP4. -/
def cv4 : VFields := vf 0 3 0 15 15 0x6080
/-- 04 R130: FP32 to itself under a plain control word; FP4 in blocks of 32; a source format that does not exist, the probe's stream, and
a VL that is no multiple of 32 change nothing. -/
theorem wit_conversion : vecAtB (codeIn [] 1 0 (vf 0 3 0 15 15 0) 0) row3 1 0 (vf 0 3 0 15 15 0) none = true ∧ cvtForm (vf 0 3 0 15 15 0) 0 = true
    ∧ ncwDst 0 ≠ 6 ∧ probeStream 0 0 = false
    ∧ slotAfter 1 0 (fun u f => .cvt u f 0 noDraw) (vf 0 3 0 15 15 0) row3 3 0 1 = some 0x40000000
    ∧ vecAtB (codeIn [] 1 0 cv4 0) row32 1 0 cv4 none = true ∧ cvtForm cv4 0 = true ∧ ncwDst cv4.imm = 6
    ∧ ((row32.groups[0]?.bind fun g => g.ctxs[0]?).map fun x => x.vl % 32) = some 0
    ∧ slotAfter 1 0 (fun u f => .cvt u f 0 noDraw) cv4 row32 3 0 1 = some 0x7F000004
    ∧ slotAfter 1 0 (fun u f => .cvt u f 0 noDraw) cv4 row3 3 0 1 = some 0
    ∧ ((row3.groups[0]?.bind fun g => g.ctxs[0]?).map fun x => x.vl % 32) = some 3
    ∧ cvtForm (vf 0 3 0 15 15 0) 9 = false ∧ slotAfter 1 9 (fun u f => .cvt u f 9 noDraw) (vf 0 3 0 15 15 0) row3 3 0 1 = some 0
    ∧ probeStream 0x400 8191 = true ∧ standsB row3 1 0 (vf 0 3 6 15 15 0) = false := by decide +kernel
/-- Fields of a PIV instruction on 32 by 32 blocks of T0 with counts in T1. -/
def pv : VFields := { vf 0 0 15 1 15 2 with rowsM1 := 127 }
/-- The same with the counts in T0 itself. -/
def pv0 : VFields := { pv with b := 0 }
/-- 04 R138: the hypotheses of a pivot stage, one whose counts go to its own tile, and a form of 24 by 24 blocks, which does not exist. -/
theorem wit_pivots : (List.range 4).all (fun op => vecAtB (codeIn [] 5 op pv 0) row3 5 op pv none && pivForm op pv
      && vecAtB (codeIn [] 5 op pv0 0) row3 5 op pv0 none && pivForm op pv0 && !pivForm op { pv with imm := 3 }
      && !standsB up 5 op pv) = true ∧ pv.b ≠ pv.dst ∧ pv0.b = pv0.dst
    ∧ (row3.groups[0]?.bind fun g => g.bufs[1]?) = some [(0, 2), (1, 0), (2, 9)]
    ∧ slotAfter 5 0 .lu { pv with imm := 3 } row3 0 0 2 = some 0x40800000 := by decide +kernel
/-- 04 R139, R140: the first pivot column of L U of a 2 by 2 block, its Cholesky root, and both inverses, by hand: 4, 2, 2 and 3. -/
theorem wit_pivot_steps :
    (let a : Block2 := [[0x40800000, 0x40000000], [0x40000000, 0x40400000]]
     let at_ (k : PivOp) (r c : Nat) := entry (pivStep pv k 2 (.zero false) ⟨a, 0, 0⟩ 0).a r c
     at_ .lu 1 0 = 0x3F000000 ∧ at_ .lu 1 1 = 0x40000000 ∧ at_ .chol 0 0 = 0x40000000 ∧ at_ .chol 1 0 = 0x3F800000 ∧ at_ .chol 1 1 = 0x40000000
     ∧ at_ .gjinv 0 0 = 0x3E800000 ∧ at_ .trinv 0 0 = 0x3E800000 ∧ at_ .trinv 1 0 = 0xBF000000) := by decide +kernel
/-- Memory with 1, 2 and 4 as FP32 words from 0x2000, and the tenth word 5. -/
def mem3 : Mem := (Mem.writeLE [] 0x2000 12 (0x40800000 * 2 ^ 64 + 0x40000000 * 2 ^ 32 + 0x3F800000)).writeLE 0x2024 4 0x40A00000
/-- The code of a MOVE over that memory. -/
def moveM (op : Nat) (f : VFields) (ext : Nat) : Mem := codeIn mem3 6 op f ext
/-- A MOVE stands in the block of `d`, and it can issue there. -/
def moveB (d : Dev) (op : Nat) (f : VFields) (ext : Nat) : Bool := vecAtB (moveM op f ext) d 6 op f (some (BitVec.ofNat 64 ext))
/-- A MOVE that writes no tile likewise. -/
def moveS (d : Dev) (op : Nat) (f : VFields) (ext : Nat) : Bool := (vecIn (moveM op f ext) d u0 6 op f (some (BitVec.ofNat 64 ext))).isSome
/-- What a MOVE leaves on `d`. -/
def moveRun (op : Nat) (i : VUse → VFields → W64 → Instr) (f : VFields) (ext : Nat) (d : Dev) : Out :=
  exec (i u0 f (BitVec.ofNat 64 ext)) ⟨moveM op f ext, d, []⟩
/-- Slot (r, c) of tile buffer `b` of group 0 after it. -/
def slotMem (op : Nat) (i : VUse → VFields → W64 → Instr) (f : VFields) (ext : Nat) (d : Dev) (b r c : Nat) : Option Nat :=
  (dv (moveRun op i f ext d)).groups[0]?.bind fun g => (g.bufs[b]?).map fun t => slotGet false t r c
/-- A GATH extension word: EXTENT `n`, base 0x2000. -/
def gx (n : Nat) : Nat := n * 2 ^ 40 + 0x2000
/-- The fields of LDS of one word into word 4. -/
def ldsF : VFields := { vf 0 15 15 15 15 0 with scal := 4 }
/-- 04 R144 to R146: a load, one of FP4, a gather with an index beyond EXTENT, scalar words. -/
theorem wit_loads : moveB row3 0 (vf 0 3 15 15 15 0) 0x2000 = true ∧ ldForm (vf 0 3 15 15 15 0) 0x2000 = true
    ∧ slotMem 0 .ld (vf 0 3 15 15 15 0) 0x2000 row3 3 0 2 = some 0x40800000
    ∧ moveB row32 0 (vf 1 3 15 15 15 6) 0x2000 = true ∧ ldForm (vf 1 3 15 15 15 6) 0x2000 = true ∧ (vf 1 3 15 15 15 6).imm % 16 = 6
    ∧ slotMem 0 .ld (vf 1 3 15 15 15 6) 0x2000 row32 3 0 1 = some 0
    ∧ moveB row3 3 (vf 0 3 15 1 15 0) (gx 10) = true ∧ gathForm (vf 0 3 15 1 15 0) (BitVec.ofNat 64 (gx 10)) = true
    ∧ slotMem 3 .gath (vf 0 3 15 1 15 0) (gx 10) row3 3 0 2 = some 0x40A00000 ∧ slotMem 3 .gath (vf 0 3 15 1 15 0) (gx 9) row3 3 0 2 = some 0
    ∧ ldsForm ldsF 0x2000 = true ∧ moveS row3 2 ldsF 0x2000 = true
    ∧ ((dv (moveRun 2 .lds ldsF 0x2000 row3)).groups[0]?.bind fun g => (g.ctxs[0]?).map fun x => x.scal.get 4) = some 0x400000003F800000
    ∧ row3.ecc.ue = [] ∧ row3.ecc.lost = [] ∧ row3.ecc.gonLost = []
    ∧ ldForm (vf 0 3 15 15 15 0) 0x2008 = false ∧ ldsForm ldsF 0x2008 = false ∧ gathForm (vf 0 3 15 1 15 0) 0x2001 = false
    ∧ moveS up 0 (vf 0 3 15 15 15 0) 0x2000 = false ∧ moveS up 2 ldsF 0x2000 = false ∧ moveS row3 3 (vf 0 3 15 6 15 0) 0x2000 = false := by
  decide +kernel
/-- The fields of ST of FP32 as it is. -/
def stF : VFields := vf 0 15 0 15 15 0
/-- ST without a draw. -/
def stI (u : VUse) (f : VFields) (e : W64) : Instr := .st u f e noDraw
/-- 04 R144: a store of FP32 as it is, of an instruction that waits, that validation rejects, and of the probe's stream. -/
theorem wit_store : moveS row3 1 stF 0x3000 = true ∧ stForm stF 0x3000 = true ∧ ncwDst 0 = stF.code ∧ probeStream 0 0 = false
    ∧ heldWrite row3 0x3000 12 = false ∧ Mem.wf (moveM 1 stF 0x3000) = true
    ∧ (mm (moveRun 1 stI stF 0x3000 row3)).readLE 0x3008 4 = 0x40800000
    ∧ moveS up 1 stF 0x3000 = false ∧ stForm stF 0x3008 = false ∧ (mm (moveRun 1 stI stF 0x3008 row3)).readLE 0x3008 4 = 0 := by decide +kernel
/-- No address resolves elsewhere on that device: it has no tack entries and no weight views. -/
theorem wit_moves_plain : PlainWrites row3 := by
  have h : row3.plan.run = none := by decide +kernel
  have hr : row3.curv.sets = [] := by decide +kernel
  constructor
  · intro a; simp [resolveWrite, tackAt, ledgerAt, rootWrite, rootPlace, h, hr]
  · intro a; simp [rootBarred, rootPlace, hr]
/-- A device on whose group 0 context 0 runs a block of slot 9 that has three words, with two released entries; a step runs. -/
def blockD (pos : Nat) : Dev := let d := has [sl 9 200 2 0 3] up
  { d with plan := { d.plan with run := d.plan.run.map fun r => { r with issued := [9] } }, groups := modAt (fun g => { g with
    queue := [⟨1, 0, 0, 0, 0, false, false, 1, 0, 0, true, []⟩, ⟨2, 0, 0, 0, 0, false, false, 1, 0, 0, true, []⟩]
    ctxs := modAt (fun x => { x with blocks := [(9, 0x60000000, 3)], pos := pos, pops := 1, pivs := 4 }) 0 g.ctxs }) 0 d.groups }
/-- A CTRL instruction as the block's word of position `pos`. -/
def ctlM (op : Nat) (f : VFields) (pos : Nat) : Mem := Mem.writeLE [] (0x60000000 + 8 * pos) 8 (vword 7 op f)
/-- It stands next there. -/
def ctlB (op : Nat) (f : VFields) (pos : Nat) : Bool := (vecIn (ctlM op f pos) (blockD pos) u0 7 op f none).isSome && ctrlForm op f
/-- A field of context 0 of group 0 after CTRL instruction `i` at position `pos`. -/
def ctlAfter {α : Type} (op : Nat) (i : VUse → VFields → Instr) (f : VFields) (pos : Nat) (g : VCtx → α) : Option α :=
  (dv (exec (i u0 f) ⟨ctlM op f pos, blockD pos, []⟩)).groups[0]?.bind fun y => (y.ctxs[0]?).map g
/-- CTRL fields with IMM `k`. -/
def ctF (k : Nat) : VFields := vf 0 15 15 15 15 k
/-- A field of context 0 of group 0 after `i`. -/
def ctxAfter {α : Type} (i : Instr) (d : Dev) (f : VCtx → α) : Option α := (dv (exec i (st d))).groups[0]?.bind fun g => (g.ctxs[0]?).map f
/-- 04 R115, R141, R148, R150; 07 R224. -/
theorem wit_control : ctlB 0 (ctF 1) 0 = true ∧ ctlB 1 (ctF 8) 0 = true ∧ ctlB 2 (ctF 0) 2 = true ∧ ctlB 3 (ctF 0) 1 = true
    ∧ ctlAfter 0 .setvl (ctF 1) 0 VCtx.vl = some 1 ∧ ctlAfter 0 .setvl (ctF 129) 0 VCtx.vl = some 128 ∧ ctrlForm 0 (ctF 129) = false
    ∧ ctlAfter 1 .pop (ctF 8) 0 VCtx.pops = some 9 ∧ ctrlForm 1 (ctF 9) = false ∧ ctlAfter 3 .ctrlNop (ctF 0) 1 VCtx.pos = some 2
    ∧ (List.range 4).all (fun op => !(vecIn [] (blockD 0) u0 7 op { ctF 1 with row0 := 1 } none).isSome && !ctrlForm op { ctF 1 with dst := 0 }) = true
    ∧ issuesB (has [sl 9 200 2 0 3] up) 9 2 (runOf [sl 9 200 2 0 3]) (sl 9 200 2 0 3) = true
    ∧ ctxAfter (.vblockSlot ⟨9, ⟨[], []⟩⟩) (has [sl 9 200 2 0 3] up) VCtx.blocks = some [(9, 0x60000000, 3)] := by decide +kernel
/-- 04 R149; 13 R383, R387: a corrected scalar word counts; one that cannot be corrected reads as zero, a contained data error. -/
theorem wit_scalar : (dv (exec (.vblockSlot ⟨9, ⟨[1], []⟩⟩) (st (has [sl 9 200 2 0 3] up)))).integ.corr = 1
    ∧ ((dv (exec (.vblockSlot ⟨9, ⟨[], [4]⟩⟩) (st (has [sl 9 200 2 0 3] up)))).plan.run.map Run.cde) = some [3] := by decide +kernel
/-- 04 R115, R150: CKPT as the last word of the block. -/
theorem wit_ckpt : ((blockD 2).groups[0]?.map Group.waiting) = some []
    ∧ ((blockD 2).plan.run.map fun r => (inFlight r 9, r.phase)) = some (some (2, 0x60000000, sl 9 200 2 0 3), .running)
    ∧ ((blockD 2).plan.run.map fun r => r.carried.length) = some 0
    ∧ readinessHeld (blockD 2) = false
    ∧ ctlAfter 2 .ckpt (ctF 0) 2 (fun x => (x.blocks, x.pos, x.pivs)) = some ([], 0, 0)
    ∧ ((dv (exec (.ckpt u0 (ctF 0)) ⟨ctlM 2 (ctF 0) 2, blockD 2, []⟩)).plan.run.map fun r => (r.issued, r.done, r.phase)) = some ([9], [9], .running)
    ∧ ((dv (exec (.ckpt u0 (ctF 0)) ⟨ctlM 2 (ctF 0) 2, blockD 2, []⟩)).groups[0]?.map fun g => g.queue.map QEnt.seq) = some [2]
    ∧ (dv (exec (.ckpt u0 (ctF 0)) ⟨ctlM 2 (ctF 0) 2, blockD 2, []⟩)).gen.pivTot[0]? = some 4 := by
  decide +kernel
/-- `blockD` with `n` of the 16 spare rows of each kind used. -/
def spareD (n : Nat) : Dev := { blockD 2 with groups := modAt (fun g => { g with rowsVu := n, rowsTq := n }) 0 (blockD 2).groups }
/-- `spareD 16` on which row 127 of T5 and of queue position 1 passed their test and are being rebuilt. -/
def mendD : Dev := { spareD 16 with groups := modAt (fun g => { g with mending := [(0, 2, 767), (0, 3, 128)] }) 0 (spareD 16).groups }
/-- 04 R151 to R154; 13 R394, R395: a restart counts; the 16th spare row is taken; with none left, also where a row fails again in its
repair, the group leaves service. -/
theorem wit_parity : (spareD 15).gpwr[0]?.map GroupPwr.absent = some false
    ∧ ctxAfter (.vectorBlockRestart u0 5 127 false) (spareD 16) VCtx.pos = some 0
    ∧ (dv (exec (.vectorBlockRestart u0 5 127 false) (st (spareD 16)))).integ.parReplay = 1
    ∧ ((dv (exec (.vectorBlockRestart u0 5 127 true) (st (spareD 15)))).groups[0]?.map Group.rowsVu) = some 16
    ∧ ((dv (exec (.vectorBlockRestart u0 5 127 true) (st (spareD 16)))).gpwr[0]?.map GroupPwr.absent) = some true
    ∧ isMending mendD u0 2 767 = true ∧ ((dv (exec (.vectorBlockRestart u0 5 127 false) (st mendD))).gpwr[0]?.map GroupPwr.absent) = some true
    ∧ ctxAfter (.vectorBlockRestart u0 6 0 false) (spareD 0) VCtx.pos = some 2
    ∧ ((spareD 15).groups[0]?.bind fun g => g.position 0 1).isSome = true
    ∧ ((dv (exec (.queueEntryReplay u0 1 0 true) (st (spareD 15)))).groups[0]?.map Group.rowsTq) = some 16
    ∧ (dv (exec (.queueEntryReplay u0 1 0 false) (st (spareD 15)))).integ.parReplay = 1
    ∧ isMending mendD u0 3 128 = true ∧ ((dv (exec (.queueEntryReplay u0 1 0 false) (st mendD))).gpwr[0]?.map GroupPwr.absent) = some true
    ∧ ((spareD 15).groups[0]?.bind fun g => g.position 0 2) = none
    ∧ (dv (exec (.queueEntryReplay u0 2 0 false) (st (spareD 15)))).integ.parReplay = 0 := by decide +kernel

/-! ## Tethers -/

/-- The run's bridle: this chip is rank 0 of 2, rank 1 is at node 64, the next in x. -/
def body2 (ws : List Slot) : PlanBody := { body0 with
  slots := ws, nRank := 2, self := 0, job := 7, hops := [⟨0, 0, 0⟩, ⟨1, 64, 0⟩],
  places := [⟨0, 0, 0x2000, 0x1000⟩], verdict := ⟨0x8000, 0, 1, 2, 100, 1000, 0⟩ }
/-- A run of that body. -/
def run2 (ws : List Slot) : Run := { run0 with body := body2 ws }
/-- Ports: 0 toward x + 1, 1 toward y + 1, 8 a far port, all UP; 2 toward x + 1 is training. -/
def netPorts : List Port := modAt (fun q => { q with dir := 1, state := .training }) 2 (modAt (fun q => { q with dir := 4, state := .up, lanes := 15 }) 8
  (modAt (fun q => { q with dir := 2, state := .up, lanes := 15 }) 1 (modAt (fun q => { q with dir := 1, state := .up, lanes := 15 }) 0 up.tth.ports)))
/-- A device with those ports on which slots `ws` run. -/
def net (ws : List Slot) : Dev := running (run2 ws) { up with
  tth := { up.tth with ports := netPorts },
  flash := { up.flash with tether := ⟨0, 0, 0, 3, 3, List.replicate 16 0, up.flash.tether.dirs⟩ } }
/-- A message descriptor of operation `opc` to rank 1: 16 bytes at 0x2000 to 0x2100 (09 R283), and the bytes there. -/
def msgMem (opc : Nat) : Mem :=
  (Mem.writeLE [] 0x60000000 32 (opc * 2 ^ 252 + 1 * 2 ^ 229 + 15 * 2 ^ 191 + 0x2000 * 2 ^ 128 + 0x2100 * 2 ^ 80 + 3 * 2 ^ 64)).writeLE 0x2000 2 0x0605
/-- The message slot. -/
def mw : Slot := sl 9 240 4 0 0
/-- The command of operation `opc`. -/
def msgCmd (opc : Nat) : Instr := match opc with
  | 0 => .putIssue 9
  | 1 => .getIssue 9
  | 2 => .accumulateIssue 9
  | _ => .signalIssue 9
/-- What leaves: port, operation, TAG, first bytes; and the slots that have issued. -/
def sent (opc : Nat) (d : Dev) : List (Nat × Nat × Nat × List Byte) × Option (List Nat) :=
  let t := dv (exec (msgCmd opc) ⟨msgMem opc, d, []⟩)
  (t.tth.out.map fun y => (y.port, y.hdr.opc, y.hdr.tag, y.data.take 2), t.plan.run.map Run.issued)
/-- 64 requests of the slot's stream in flight. -/
def full64 : Dev := { net [mw] with tth := { (net [mw]).tth with
  pend := (List.range 64).map fun k => ⟨k, 240, none, ⟨0, 0, 0, false, 0, 0, 0, 0, 64, 0, 1, 0, k, 0, 0, 7, 0, 0, 2, 0⟩, 0, none, false⟩ } }
/-- 09 R281, R283, R286, R290: a message of each kind leaves by port 0 under TAG 0; the 65th of a stream waits. -/
theorem wit_messages : issuesB (net [mw]) 9 4 (run2 [mw]) mw = true ∧ (msgAt (msgMem 1) 0x60000000).opc = 1 ∧ (msgAt (msgMem 3) 0x60000000).opc = 3
    ∧ outPort (net [mw]) (hopOf (run2 [mw]) 1) 240 = some (0, false) ∧ heldWrite (net [mw]) 0x2000 16 = false
    ∧ sent 0 (net [mw]) = ([(0, 0, 0, [5, 6])], some [9]) ∧ sent 1 (net [mw]) = ([(0, 1, 0, [])], some [9])
    ∧ sent 2 (net [mw]) = ([(0, 2, 0, [5, 6])], some [9]) ∧ sent 3 (net [mw]) = ([(0, 3, 0, [])], some [9])
    ∧ (full64.tth.pend.filter fun q => q.stream = mw.stream).length = 64 ∧ sent 3 full64 = ([], some []) := by
  and_intros <;> decide +kernel
/-- A request of operation `opc` in flight under TAG 5, issued by slot 9. -/
def pend5 (opc : Nat) : Pend := ⟨5, 240, some (2, 9), ⟨opc, 0, 0, false, 0, 0, 15, 0, 64, 0, 1, 0, 5, 0, 0, 7, 0, 0, 2, 0⟩, 0x2000, none, false⟩
/-- The device that waits for its answer. -/
def waiting (opc : Nat) : Dev := running { run2 [mw] with issued := [9] } { net [mw] with tth := { (net [mw]).tth with pend := [pend5 opc] } }
/-- An answer to it of code `code` and STATUS `st`. -/
def reply (code st : Nat) : WireHdr := sealHdr ⟨code, 0, 0, false, 1, 0, 15, 64, 0, 1, 0, 0, 5, 0, 0, 7, 0, st, 2, 0⟩
/-- The hypotheses `RespFor` as a Bool. -/
def respB (d : Dev) (opc : Nat) (h : WireHdr) (p : Pend) : Bool :=
  decide (h.opc = opc ∧ h.dstNode = d.tth.self ∧ h.lepoch = d.vrd.epoch) && !isSafe d && hcrcOk h
    && decide (d.tth.pend.find? (fun q => q.tag = h.tag && q.hdr.dstNode = h.srcNode && q.hdr.start = h.start) = some p)
theorem respFor_of_respB {d : Dev} {opc : Nat} {h : WireHdr} {p : Pend} (k : respB d opc h p = true) : RespFor d opc h p := by
  simp only [respB, Bool.and_eq_true, Bool.not_eq_true', decide_eq_true_eq] at k
  exact ⟨k.1.1.1.1, k.1.1.1.2.1, k.1.1.2, k.1.2, .inl k.1.1.1.2.2, k.2⟩
/-- What a response leaves: requests in flight, slots complete, contained data errors. -/
def left (i : Instr) (d : Dev) : Nat × Option (List Nat × List Nat) :=
  let t := dv (exec i (st d))
  (t.tth.pend.length, t.plan.run.map fun r => (r.done, r.cde))
/-- 09 R286, R290; 10 R313. -/
theorem wit_responses : respB (waiting 0) 9 (reply 9 0) (pend5 0) = true ∧ left (.ackReceive (reply 9 0)) (waiting 0) = (0, some ([9], []))
    ∧ respB (waiting 1) 8 (reply 8 0) (pend5 1) = true ∧ left (.getRespReceive (reply 8 0) [5, 6]) (waiting 1) = (0, some ([9], []))
    ∧ (mm (exec (.getRespReceive (reply 8 0) [5, 6]) (st (waiting 1)))).readLE 0x2000 2 = 0x0605
    ∧ respB (waiting 0) 10 (reply 10 2) (pend5 0) = true ∧ left (.nackReceive (reply 10 2)) (waiting 0) = (0, some ([9], []))
    ∧ respB (waiting 0) 10 (reply 10 5) (pend5 0) = true ∧ left (.nackReceive (reply 10 5)) (waiting 0) = (0, some ([9], [4]))
    ∧ left (.messageTimeout 5) (waiting 0) = (0, some ([9], [4])) ∧ left (.messageTimeout 6) (waiting 0) = (1, some ([], []))
    ∧ left (.ackReceive (sealHdr { reply 9 0 with tag := 6 })) (waiting 0) = (1, some ([], [])) := by
  and_intros <;> decide +kernel
/-- A request of rank 1 to this chip: 16 bytes at 0x2000. -/
def req0 (opc : Nat) : WireHdr := ⟨opc, 0, if opc = 2 then 1 else 0, false, 0, 4, 15, 64, 0, 1, 0, 0, 5, 0x2000, 0, 7, 3, 0, 2, 0⟩
/-- With its HCRC. -/
def req (opc : Nat) : WireHdr := sealHdr (req0 opc)
/-- The hypotheses `Accepted` as a Bool, over empty memory. -/
def acceptedB (d : Dev) (port opc : Nat) (h : WireHdr) (r : Run) (next : Bool) : Bool :=
  decide (d.plan.run = some r) && decide (((d.tth.ports[port]?).map portUp) = some true) && !isSafe d && decide (h.dstNode = d.tth.self)
    && decide (h.opc = opc) && hcrcOk h && decide (reqCheck [] d h = 0) && decide (windowOf r h.start = some next)
theorem accepted_of_acceptedB {d : Dev} {port opc : Nat} {h : WireHdr} {r : Run} {next : Bool} (k : acceptedB d port opc h r next = true) :
    Accepted (st d) port opc h r next := by
  simp only [acceptedB, Bool.and_eq_true, Bool.not_eq_true', decide_eq_true_eq] at k
  exact ⟨k.1.1.1.1.1.1.1, k.1.1.1.1.1.1.2, k.1.1.1.1.1.2, k.1.1.1.1.2, k.1.1.1.2, k.1.1.2, k.1.2, k.2⟩
/-- The answer to a request: port, code, STATUS. -/
def answer (i : Instr) (d : Dev) : List (Nat × Nat × Nat) := (dv (exec i (st d))).tth.out.map fun y => (y.port, y.hdr.opc, y.hdr.status)
/-- 09 R284 to R292: each request is applied and acknowledged, one outside the plan's ranges gets NACK ADDRESS, a bad header is counted. -/
theorem wit_requests : acceptedB (net []) 0 3 (req 3) (run2 []) false = true ∧ isPending (net []) 0 = false
    ∧ answer (.signalReceive 0 (req 3)) (net []) = [(0, 9, 0)] ∧ (dv (exec (.signalReceive 0 (req 3)) (st (net [])))).tth.cur.get 4 = 3
    ∧ acceptedB (net []) 0 3 (sealHdr { req 3 with start := 3 }) (run2 []) true = true
    ∧ (dv (exec (.signalReceive 0 (sealHdr { req 3 with start := 3 })) (st (net [])))).tth.nxt.get 4 = 3
    ∧ acceptedB (net []) 0 1 (req 1) (run2 []) false = true ∧ gonClosed (net []) (req 1) = false ∧ answer (.getReceive 0 (req 1)) (net []) = [(0, 8, 0)]
    ∧ acceptedB (net []) 0 0 (req 0) (run2 []) false = true ∧ heldWrite (net []) 0x2000 16 = false
    ∧ (∀ k ∈ peers (run2 []), overlaps 0x2000 16 (recAddr (run2 []) k) 64 = false)
    ∧ answer (.putReceive 0 (req 0) [5, 6]) (net []) = [(0, 9, 0)] ∧ mm (exec (.putReceive 0 (req 0) [5, 6]) (st (net []))) = [(0x2000, 5), (0x2001, 6)]
    ∧ acceptedB (net []) 0 2 (req 2) (run2 []) false = true ∧ answer (.accumulateReceive 0 (req 2) (List.replicate 16 0)) (net []) = [(0, 9, 0)]
    ∧ reqCheck [] (net []) (sealHdr { req 0 with remote := 0x9000 }) = 5 ∧ answer (.putReceive 0 (sealHdr { req 0 with remote := 0x9000 }) []) (net []) = [(0, 10, 5)]
    ∧ answer (.signalReceive 0 (sealHdr { req 3 with lepoch := 9 })) (net []) = [(0, 10, 2)]
    ∧ (dv (exec (.getReceive 0 { req 1 with tag := 6 }) (st (net [])))).tth.rejOther = 1 := by decide +kernel
/-- Port `p` after `i`: its state, whether it uses the ballast lane, its lanes. -/
def portAfter (i : Instr) (p : Nat) : Option (PortState × Bool × BitVec 4) := (dv (exec i (st (net [])))).tth.ports[p]?.map fun q => (q.state, q.ballast, q.lanes)
/-- 09 R277, R281, R295 to R298. -/
theorem wit_ports : partnerOk (net []) 2 ⟨true, 1, 0, 1, 0, 3, 1⟩ = true ∧ portAfter (.portTrainingComplete 2 ⟨true, 1, 0, 1, 0, 3, 1⟩) 2 = some (.up, false, 15)
    ∧ partnerOk (net []) 2 ⟨true, 1, 0, 2, 0, 3, 1⟩ = false ∧ (portAfter (.portTrainingComplete 2 ⟨true, 1, 0, 2, 0, 3, 1⟩) 2).map (·.1) = some .down
    ∧ (portAfter (.portTrainingComplete 0 ⟨false, 1, 0, 2, 0, 3, 1⟩) 0).map (·.1) = some .up
    ∧ meshOut (net []) 65 false = some ([0], false) ∧ answer (.meshTransit (sealHdr { req 0 with dstNode := 65 }) []) (net []) = [(0, 0, 0)]
    ∧ meshOut (net []) 65 true = some ([1], true) ∧ meshOut (net []) 3 false = some ([1], false)
    ∧ (let far := { net [] with tth := { (net []).tth with self := 65 } }
       meshOut far 0 false = none ∧ (dv (exec (.meshTransit (reply 9 0) []) (st far))).tth.rejOther = 1)
    ∧ (dv (exec (.linkReplay 0) (st (net [])))).tth.retry = 1 ∧ (dv (exec (.linkReplay 3) (st (net [])))).tth.retry = 0
    ∧ spareFor (net []) 9 1 = true ∧ portAfter (.laneFailure 3 true true) 0 = some (.up, true, 7)
    ∧ (portAfter (.laneFailure 32 true true) 8).map (·.1) = some .down ∧ (portAfter (.laneFailure 12 true true) 3).map (·.1) = some .off
    ∧ (portAfter (.partnerGone 0) 0).map (·.1) = some .down
    ∧ (dv (exec (.linkControlBallastNotice 3) (st (net [])))).integ.balLanes[3]? = some false
    ∧ (let d := { net [] with integ := { up.integ with balLanes := List.replicate 4 false } }
       spareFor d 9 3 = false ∧ (dv (exec (.linkControlBallastNotice 3) (st d))).evt.fseq = 0) := by decide +kernel
/-- `net` with no port in use. -/
def cut (ws : List Slot) : Dev := { net ws with tth := { (net ws).tth with ports := up.tth.ports } }
/-- `net` beside a tack entry at 0x2000 whose other copy is HELD. -/
def netHeld (ws : List Slot) : Dev :=
  running { run2 ws with body := { body2 ws with tacks := [⟨0, 0, 0, 0xFFFF, 0x2000, 0x4000, 256⟩] } }
    { net ws with tack := { up.tack with copies := [(.current, .held)] } }
/-- `net` whose word at 0x2000 cannot be corrected. -/
def netBad (ws : List Slot) : Dev := { net ws with ecc := { (net ws).ecc with ue := [0x2000] } }
/-- A drain slot. -/
def dw : Slot := { mw with arg := 0xD0000001 }
/-- What a message slot leaves: requests in flight, messages sent, slots complete, contained data errors. -/
def msgLeft (opc : Nat) (d : Dev) : Nat × Nat × Option (List Nat × List Nat) :=
  let t := dv (exec (msgCmd opc) ⟨msgMem opc, d, []⟩)
  (t.tth.pend.length, t.tth.out.length, t.plan.run.map fun r => (r.done, r.cde))
/-- 09 R281, R283, R290; 11 R340, R344: no route; a source that cannot be read; a drain slot without a drain; a GET into a HELD copy. -/
theorem wit_messages_not_sent : issuesB (cut [mw]) 9 4 (run2 [mw]) mw = true ∧ outPort (cut [mw]) (hopOf (run2 [mw]) 1) 240 = none
    ∧ readinessHeld (cut [mw]) = false ∧ voteOpen (run2 [mw]) = true
    ∧ (List.range 4).all (fun k => decide (msgLeft k (cut [mw]) = (0, 0, some ([9], [4])))) = true
    ∧ issuesB (netBad [mw]) 9 4 (run2 [mw]) mw = true ∧ (badResolved (netBad [mw]) 0x2000 16).isSome = true
    ∧ msgLeft 0 (netBad [mw]) = (0, 0, some ([9], [3])) ∧ msgLeft 2 (netBad [mw]) = (0, 0, some ([9], [3]))
    ∧ issuesB (net [dw]) 9 4 (run2 [dw]) dw = true ∧ isDrainArg dw.arg = true ∧ (net [dw]).snap.drain = none
    ∧ msgLeft 0 (net [dw]) = (0, 0, some ([9], []))
    ∧ heldWrite (netHeld [mw]) 0x2000 16 = true ∧ (msgAt (msgMem 1) 0x60000000).loc = 0x2000 ∧ (msgAt (msgMem 1) 0x60000000).len = 16
    ∧ (let r := { run2 [mw] with body := { body2 [mw] with tacks := [⟨0, 0, 0, 0xFFFF, 0x2000, 0x4000, 256⟩] } }
       issuesB (netHeld [mw]) 9 4 r mw = true)
    ∧ (dv (exec (.getIssue 9) ⟨msgMem 1, netHeld [mw], []⟩)).tack.waits = [9] := by and_intros <;> decide +kernel
/-- `waiting` whose request counts in CTALLY 6 of start `n`. -/
def waitCt (n : Nat) : Dev := { waiting 0 with tth := { (waiting 0).tth with pend := [{ pend5 0 with ct := some (6, n) }] } }
/-- A carried slot of start 1, whose message is in flight. -/
def waitCarried : Dev := running { run2 [] with carried := [⟨1, 0x60000000, 0, true, mw⟩] }
  { net [] with tth := { (net []).tth with pend := [{ pend5 0 with slot := some (1, 9), hdr := { (pend5 0).hdr with start := 1 } }] } }
/-- Contained data errors and carried slots after `i`. -/
def carriedLeft (i : Instr) (d : Dev) : Option (List Nat × Nat) := (dv (exec i (st d))).plan.run.map fun r => (r.cde, r.carried.length)
/-- The last PUT of the permuting collective, with the signal that follows it. -/
def permLast : Dev := running { run2 [] with permSig := [(1, 3)] }
  { net [] with tth := { (net []).tth with pend := [{ pend5 0 with slot := none, stream := 265 }] } }
/-- 09 R287, R290, R291, R294; 10 R328: a completion counted in its CTALLY, and one of an earlier start; a carried message that fails or times out; the
signal after the last PUT of a collective; responses of a bad header, and of an epoch that is not accepted. -/
theorem wit_completions : (dv (exec (.ackReceive (reply 9 0)) (st (waitCt 2)))).tth.cur.get 6 = 1
    ∧ (dv (exec (.ackReceive (reply 9 0)) (st (waitCt 1)))).tth.cur.get 6 = 0 ∧ respB (waitCt 1) 9 (reply 9 0) { pend5 0 with ct := some (6, 1) } = true
    ∧ ((waiting 0).plan.run.map fun r => (decide (r.phase = .between), r.permSig)) = some (false, []) ∧ readinessHeld (waiting 0) = false
    ∧ (let h := sealHdr { reply 10 5 with start := 1 }
       respB waitCarried 10 h { pend5 0 with slot := some (1, 9), hdr := { (pend5 0).hdr with start := 1 } } = true
       ∧ carriedLeft (.nackReceive h) waitCarried = some ([4], 0)) ∧ carriedLeft (.messageTimeout 5) waitCarried = some ([4], 0)
    ∧ readinessHeld waitCarried = false
    ∧ respB permLast 9 (reply 9 0) { pend5 0 with slot := none, stream := 265 } = true
    ∧ ((dv (exec (.ackReceive (reply 9 0)) (st permLast))).plan.run.map Run.permSig) = some []
    ∧ (dv (exec (.ackReceive (reply 9 0)) (st permLast))).tth.out.length = 1
    ∧ (dv (exec (.ackReceive { reply 9 0 with tag := 6 }) (st (waiting 0)))).tth.rejOther = 1
    ∧ (dv (exec (.nackReceive (sealHdr { reply 10 5 with lepoch := 9 })) (st (waiting 0)))).tth.rejEpoch = 1
    ∧ (dv (exec (.getRespReceive { reply 8 0 with tag := 6 } []) (st (waiting 1)))).tth.rejOther = 1 ∧ isPending (waiting 0) 9 = false
    ∧ (waiting 0).tth.pend.find? (fun q => q.tag = 6 && q.hdr.dstNode = 64 && q.hdr.start = 2) = none := by and_intros <;> decide +kernel
/-- `net` on whose bays nothing is ONLINE and whose plan owns a range of bay 0. -/
def netGon : Dev := running { run2 [] with body := { body2 [] with places := [⟨2, 5, gonBase 0, 0x1000⟩] } } (net [])
/-- A request of operation `opc` for it. -/
def reqGon (opc : Nat) : WireHdr := sealHdr { req0 opc with remote := gonBase 0 }
/-- A PUT with SIG. -/
def reqSig : WireHdr := sealHdr { req0 0 with sig := true }
/-- Two runs of one body: with plain places, and with bay 0's. -/
def runGon : Run := { run2 [] with body := { body2 [] with places := [⟨2, 5, gonBase 0, 0x1000⟩] } }
/-- 09 R286 to R292: SIG after a PUT; NACKs of each code; a bay that is not ONLINE; a bad word; a HELD copy; a port that is not UP. -/
theorem wit_requests_other : acceptedB (net []) 0 0 reqSig (run2 []) false = true
    ∧ (dv (exec (.putReceive 0 reqSig [5, 6]) (st (net [])))).tth.cur.get 4 = 1
    ∧ answer (.getReceive 0 (sealHdr { req0 1 with lepoch := 9 })) (net []) = [(0, 10, 2)]
    ∧ answer (.accumulateReceive 0 (sealHdr { req0 2 with lepoch := 9 }) []) (net []) = [(0, 10, 2)]
    ∧ answer (.putReceive 0 (sealHdr { req0 0 with opc := 5 }) []) (net []) = [(0, 10, 4)]
    ∧ acceptedB netGon 0 1 (reqGon 1) runGon false = true ∧ gonClosed netGon (reqGon 1) = true ∧ answer (.getReceive 0 (reqGon 1)) netGon = [(0, 10, 5)]
    ∧ acceptedB netGon 0 0 (reqGon 0) runGon false = true ∧ heldWrite netGon (gonBase 0) 16 = false
    ∧ answer (.putReceive 0 (reqGon 0) [5]) netGon = [(0, 10, 5)]
    ∧ (dv (exec (.putReceive 0 (reqGon 0) [5]) (st netGon))).ecc.gonLost = [(gonBase 0, 16)]
    ∧ acceptedB (netBad []) 0 1 (req 1) (run2 []) false = true ∧ answer (.getReceive 0 (req 1)) (netBad []) = [(0, 10, 9)]
    ∧ reqCheck [] (netHeld []) (sealHdr { req0 0 with remote := 0x2000, opc := 0 }) = 8 ∧ heldWrite (netHeld []) 0x2000 16 = true
    ∧ answer (.putReceive 5 (req 0) []) (net []) = [] ∧ ((net []).tth.ports[5]?.map portUp) = some false
    ∧ answer (.signalReceive 0 { req 3 with tag := 6 }) (net []) = []
    ∧ (dv (exec (.putReceive 0 { req 0 with tag := 6 } []) (st (net [])))).tth.rejOther = 1
    ∧ (dv (exec (.accumulateReceive 0 { req 2 with tag := 6 } []) (st (net [])))).tth.rejOther = 1 := by and_intros <;> decide +kernel
/-- `net` whose port 0 uses the ballast lane of its direction. -/
def netBal : Dev := { net [] with tth := { (net []).tth with ports := modAt (fun q => { q with ballast := true }) 0 netPorts } }
/-- 09 R281, R296 to R298: a transit with a bad header, and a request with no way on; a ballast lane that fails, in use and idle; ports and
lanes that are not UP. -/
theorem wit_ports_other : (dv (exec (.meshTransit { req 0 with dstNode := 65 } []) (st (net [])))).tth.rejOther = 1
    ∧ (let far := { cut [] with tth := { (cut []).tth with self := 65 } }
       meshOut far 0 false = none ∧ (dv (exec (.meshTransit (req 0) []) (st far))).tth.out.length = 0)
    ∧ (netBal.tth.ports.findIdx? fun q => q.dir = 1 && q.ballast && q.state = .up) = some 0
    ∧ ((dv (exec (.laneFailure 65 true true) (st netBal))).tth.ports[0]?.map fun q => (q.state, q.ballast)) = some (.down, false)
    ∧ ((net []).tth.ports.findIdx? fun q => q.dir = 1 && q.ballast && q.state = .up) = none
    ∧ (dv (exec (.laneFailure 65 true true) (st (net [])))).tth.notices = [1]
    ∧ (portAfter (.laneFailure 3 false true) 0).map (·.1) = some .down ∧ (dv (exec (.laneFailure 3 false true) (st (net [])))).tth.notices = [1]
    ∧ (portAfter (.partnerGone 2) 2).map (·.1) = some .training := by and_intros <;> decide +kernel

/-! ## Solvers and the root service -/

/-- A solve of index 0 that has its patch, started where `t` says. -/
def solve1 (t : Option Nat) : Solve := ⟨0, none, t, 0, 0, 2⟩
/-- A device on which slots `ws` run and whose solver is `v`. -/
def solD (ws : List Slot) (v : Solver) : Dev := let d := has ws up
  { d with solv := { d.solv with solvers := [v] } }
/-- The solver's solve after `i`: start, STATUS. -/
def solveAfter (i : Instr) (m : Mem) (d : Dev) : Option (Option (Option Nat × Nat)) :=
  (solverAt (dv (exec i ⟨m, d, []⟩)) 1).map fun v => v.run.map fun y => (y.start, y.status)
/-- A patch of SEQ 0 without records, of 32 bytes, whose CRC is right when `ok` (06 R198). -/
def patchMem (ok : Bool) : Mem :=
  let body : List Byte := List.replicate 8 0 ++ leBytes 4 32 ++ List.replicate 12 0
  Mem.write [] (patchBuf solver1 0) (body ++ leBytes 8 (if ok then crc64 (body ++ List.replicate 8 0) else 1))
/-- The solve record of solver 1 at payload 0x40 (06 R202). -/
def solveMem : Mem := Mem.writeLE [] 0x60000040 64 (1 * 2 ^ 368)
/-- A slot that marks the patch point. -/
def ppMark : Slot := sl 9 265 7 0 0
/-- 06 R197 to R201, R217: without a patch STATUS bit 9, a good patch, and a bad one with bit 10 and its count. -/
theorem wit_patch_point :
    (patchMark (solD [ppMark] solver1) (runOf [ppMark])).1 = some 9 ∧ solver1.run = none ∧ solver1.patched = none ∧ solver1.record.precond = 0
    ∧ up.ecc.ue = [] ∧ up.ecc.lost = [] ∧ up.ecc.gonLost = []
    ∧ solveAfter (.patchPoint 1 5 ⟨[]⟩) [] (solD [ppMark] solver1) = some (some (some 5, 512))
    ∧ (patchFx solver1 (readResolved (patchMem true) (solD [ppMark] solver1) (patchBuf solver1 0) (patchBytes solver1))).isSome = true
    ∧ (let v := { solver1 with posted := [true, false], record := { solver1.record with patch := 0 } }
       patchFx v [] = none ∧ solveAfter (.patchPoint 1 5 ⟨[]⟩) [] (solD [ppMark] v) = some (some (some 5, 1024))
       ∧ (dv (exec (.patchPoint 1 5 ⟨[]⟩) (st (solD [ppMark] v)))).solv.prej = 1)
    ∧ solveAfter (.patchPoint 1 5 ⟨[]⟩) [] (solD [ppMark] { solver1 with run := some (solve1 none) }) = some (some (none, 0)) := by
  decide +kernel
/-- A slot that starts solver 1. -/
def ss : Slot := sl 9 265 9 0x40 0
/-- Solver 1 without patch buffers. -/
def solverS : Solver := { solver1 with record := { solver1.record with patch := 0 } }
/-- The same with its solve `y` and PERIOD `p`. -/
def solver1P (p : Nat) (y : Option Solve) : Solver := { solverS with record := { solverS.record with period := p }, run := y }
/-- FP64 0, 1, 2, 3 and 4. -/
def dOne : Nat := 0x3FF0000000000000
def dTwo : Nat := 0x4000000000000000
def dThree : Nat := 0x4008000000000000
def dFour : Nat := 0x4010000000000000
/-- The system 2 x = 4 under method `k`, spectrum 1 to 3, GMRES(1). -/
def sys1 (k : Nat) : Sys :=
  { a := ⟨true, 1, ⟨[], [((0, 0), dTwo)]⟩, dOne, 0⟩, p := ⟨0, [], ⟨[], []⟩, [], []⟩, b := [dFour], method := k, gm := 1, lmin := dOne, lmax := dThree }
/-- One chip, no halo. -/
def net1 : Net := ⟨[], [[], []], [], 0, 1, [], false⟩
/-- A solver of that system with the record `f` makes of its own. -/
def solverR (k : Nat) (f : SolveRec → SolveRec) : Solver := { solver1 with record := f { solver1.record with method := k, gm := 1 } }
/-- Iterations run, ending bit, and iteration and code of the best iterate, from x = 0 and iterations that end as `es` says. -/
def ended (k : Nat) (f : SolveRec → SolveRec) (v : Solve) (es : List (Nat × Nat)) : Option (Nat × Nat × Option (Nat × List Nat)) :=
  (runSolve (solverR k f) v (sys1 k) [0] net1 (1, 1) es).map fun o => (o.iters, o.stop, o.best.map fun b => (b.it, b.x))
/-- A solve scheduled and started at 5. -/
def v5 : Solve := { solve1 (some 5) with sched := some 5 }
/-- 06 R205, R209: the first iteration of each method on 2 x = 4 from 0 finds 2. -/
theorem wit_methods : ((sys1 0).a.mul [dTwo]) = [dFour]
    ∧ (let b := (sys1 0).begin [0] net1
       b.2 = dFour ∧ ((sys1 0).turn b.1).w.x = [dTwo] ∧ ((sys1 0).turn b.1).norm = 0 ∧ ((sys1 0).turn ((sys1 0).turn b.1).w).brk = true)
    ∧ ((sys1 1).turn ((sys1 1).begin [0] net1).1).brk = true
    ∧ (let t := (sys1 2).turn ((sys1 2).begin [0] net1).1
       t.exact = true ∧ (gmForm (sys1 2) t.w).x = [dTwo])
    ∧ ((sys1 3).turn ((sys1 3).begin [0] net1).1).w.x = [dTwo] := by decide +kernel
/-- 06 R211, R212: the diagonal inverse of 2, one of a zero pivot, IC(0) and ILU(0) of a scalar row. -/
theorem wit_precond : (let a := (sys1 0).a
      diagInverse a (pivThresh true 0) = ([0x3FE0000000000000], 0) ∧ (diagInverse { a with s := 0 } (pivThresh true 0x3FF0000000000000)).2 = 1
      ∧ (factorise a false (pivThresh true 0) [(0, 1)]).at 0 0 = dTwo
      ∧ (factorise { a with s := dTwo } true (pivThresh true 0) [(0, 1)]).at 0 0 = dTwo) := by decide +kernel
/-- 06 R208 to R210, R214, R215: not yet stopped, BREAKDOWN, TOL, another chip's NONFINITE, COUNT with a tie kept at the earlier, DEADLINE from MIN_IT on. -/
theorem wit_solve_ends : ended 0 id v5 [(6, 0)] = none ∧ ended 0 id v5 [(6, 0), (7, 0)] = some (2, 4, some (1, [dTwo]))
    ∧ ended 0 (fun r => { r with tol := 0x3F000000 }) v5 [(6, 0)] = some (1, 1, some (1, [dTwo]))
    ∧ (ended 0 id v5 [(6, 4)]).map (·.2.1) = some 5 := by decide +kernel
theorem wit_solve_ends_late : ended 2 id v5 [(6, 0)] = some (1, 1, some (1, [dTwo]))
    ∧ ended 3 id v5 [(6, 0), (7, 0), (8, 0), (9, 0)] = some (4, 0, some (1, [dTwo])) := by decide +kernel
theorem wit_solve_deadline : ended 3 (fun r => { r with minIt := 2 }) v5 [(200, 0)] = none
    ∧ ended 3 (fun r => { r with minIt := 2 }) v5 [(200, 0), (201, 0)] = some (2, 2, some (1, [dTwo]))
    ∧ solver1.record.nIter = 4 ∧ solver1.record.deadline = 100 := by decide +kernel
/-- 06 R207, R214, R218: HALO_TIMEOUT, and a deadline that had passed at the start, both with the starting iterate. -/
theorem wit_solve_ends_at_once : ended 0 id { v5 with status := 4096 } [] = some (0, 12, some (0, [0]))
    ∧ ended 0 id { v5 with start := some 200 } [(201, 0)] = some (0, 2, some (0, [0])) := by decide +kernel
/-- 06 R215: the smaller norm, the earlier of two equal, never one that is not finite. -/
theorem wit_best : noteIterate ⟨2, dOne, []⟩ (some ⟨1, dTwo, []⟩) = some ⟨2, dOne, []⟩ ∧ noteIterate ⟨2, dOne, []⟩ (some ⟨1, dOne, []⟩) = some ⟨1, dOne, []⟩
    ∧ noteIterate ⟨2, 0x7FF0000000000000, []⟩ none = none := by decide +kernel
/-- What its iterations ended with, and its record's time. -/
def end1 : SolveEnd := ⟨[6], [], [], [], 50⟩
/-- 06 R200, R213, R218, R219; 10 R313; 11 R340. -/
theorem wit_solves :
    issuesB (solD [ss] (solver1P 0 (some (solve1 none)))) 9 9 (runOf [ss]) ss = true ∧ (solveAt solveMem 0x60000040).id = 1
    ∧ heldWrite (solD [ss] solverS) (copyAt (solD [ss] solverS) solverS (solutionAt solverS) true) (vecBytes solverS) = false
    ∧ heldWrite (solD [ss] solverS) (copyAt (solD [ss] solverS) solverS (recordAt solverS) true) 64 = false
    ∧ solverAt (solD [ss] (solver1P 0 (some (solve1 none)))) 1 = some (solver1P 0 (some (solve1 none))) ∧ (solve1 none).start = none
    ∧ solveAfter (.solveSlot 9 7) solveMem (solD [ss] (solver1P 0 (some (solve1 none)))) = some (some (some 7, 0))
    ∧ solveAfter (.solveSlot 9 7) solveMem (solD [ss] solverS) = some (some (some 7, 512))
    ∧ issuesB (solD [ss] { solverS with valLost := true }) 9 9 (runOf [ss]) ss = true
    ∧ ((dv (exec (.solveSlot 9 7) ⟨solveMem, solD [ss] { solverS with valLost := true }, []⟩)).plan.run.map fun r => (r.done, r.cde)) = some ([9], [3])
    ∧ (solverAt (solD [ss] solverS) (solveAt [] 0x60000040).id) = none ∧ after (.solveSlot 9 7) (solD [ss] solverS) = some ([9], [9], .running) := by decide +kernel
/-- A tack entry over WORK of solver 1 whose other copy is HELD. -/
def solHeld : Dev := running { runOf [ss] with body := { body0 with slots := [ss], tacks := [⟨0, 0, 0, 0xFFFF, 0x10000, 0x40000, 0x8000⟩] } }
  { solD [ss] solverS with tack := { up.tack with copies := [(.current, .held)] } }
/-- 06 R218; 11 R340: a scheduled start of a solve that has been reached, of one that has not; without PERIOD; a slot that would write into a HELD copy. -/
theorem wit_scheduled :
    solveAfter (.solveScheduledStart 1 7) solveMem (running { runOf [ss] with issued := [9] } (solD [ss] (solver1P 100 (some { solve1 none with sched := some 7 }))))
        = some (some (some 7, 0))
    ∧ ((solverAt (dv (exec (.solveScheduledStart 1 7) ⟨solveMem, solD [ss] (solver1P 100 none), []⟩)) 1).map fun v => (v.waiting, v.t0)) = some (some 7, some 7)
    ∧ ((solverAt (dv (exec (.solveScheduledStart 1 7) ⟨solveMem, solD [ss] (solver1P 0 none), []⟩)) 1).bind Solver.waiting) = none
    ∧ heldWrite solHeld (copyAt solHeld solverS (recordAt solverS) true) 64 = true ∧ (dv (exec (.solveSlot 9 7) ⟨solveMem, solHeld, []⟩)).tack.waits = [9] := by
  decide +kernel
/-- A device on which the SOLVE slot of solver 1 has issued and its solve started. -/
def solRun (v : Solver) : Dev := running { runOf [ss] with issued := [9] } (solD [ss] { v with run := some v5 })
/-- 06 R207, R214, R217 to R220: a solve without unknowns breaks down and ends; one that has not stopped, or not started; a word of its image is bad;
a halo that is short at the deadline. -/
theorem wit_solve_stop :
    solveIssued solveMem { runOf [ss] with issued := [9] } 1 = some 9 ∧ readinessHeld (solRun solverS) = false
    ∧ ((runSolve { solverS with run := some v5 } v5 ({ solverS with run := some v5 }.sys solveMem (solRun solverS)) [] net1 (0, 0) [(6, 0)]).map
        fun o => (o.iters, o.stop)) = some (1, 4)
    ∧ (dv (exec (.solveStop 1 end1) ⟨solveMem, solRun solverS, []⟩)).solv.done = 1
    ∧ (mm (exec (.solveStop 1 end1) ⟨solveMem, solRun solverS, []⟩)).readLE (recordAt solverS true + 56) 8 = 2 ^ 16 + 16 * 2 ^ 0 - 2 ^ 16 + 2 ^ 16 + 0
    ∧ (dv (exec (.solveStop 1 { end1 with ends := [] }) ⟨solveMem, solRun solverS, []⟩)).solv.done = 0
    ∧ (dv (exec (.solveStop 1 end1) ⟨solveMem, solD [ss] (solver1P 0 (some (solve1 none))), []⟩)).solv.done = 0
    ∧ (let d := { solRun solverS with ecc := { up.ecc with ue := [0x10000] } }
       (badResolved d solverS.record.work (workBytes solveMem solverS.record solverS.hdr)).isSome = true
       ∧ ((dv (exec (.solveStop 1 end1) ⟨solveMem, d, []⟩)).plan.run.map fun r => (r.done, r.cde)) = some ([9], [3]))
    ∧ (let v := { solverS with hdr := { solverS.hdr with nnb := 1 } }
       haloReady solveMem (solRun v) v 1 = false
       ∧ ((dv (exec (.haloTimeout ⟨1, 0, 105⟩) ⟨solveMem, solRun v, []⟩)).plan.run.map Run.cde) = some [6]
       ∧ ((dv (exec (.haloTimeout ⟨1, 0, 104⟩) ⟨solveMem, solRun v, []⟩)).plan.run.map Run.cde) = some []) := by decide +kernel
/-- A root set of id 3 with one block and the threshold `th`, whose refresh has the source copy `c` of step 3, or waits for one, and forms
buffer 1. -/
def rsetOf (th : W32) (c : Option (List W32)) (ending : Bool) : RootSet :=
  ⟨⟨0, false, 0, 0, 4, 1, 0, 1, 0, 0, th, 0, 3, 0x5000⟩, [[.current, if c.isSome then .writing else .free, .free]], [[0x70000, 0x71000, 0x72000]], [],
    some ⟨0, 3, c.map fun _ => 3, c.toList, if c.isSome then [(0, 1)] else [], false, ending⟩, 1, false⟩
/-- Of threshold 0.5. -/
def rset : Option (List W32) → Bool → RootSet := rsetOf 0x3F000000
/-- A device on which slots `ws` run, with that set. -/
def rootD (ws : List Slot) (c : Option (List W32)) (ending : Bool) : Dev := let d := has ws up
  { d with curv := { d.curv with sets := [rset c ending] } }
/-- The same with a threshold that every finite residual meets. -/
def rootEasy : Dev := { rootD [] (some []) false with curv := { (rootD [] (some []) false).curv with sets := [rsetOf 0x7F000000 (some []) false] } }
/-- 05 R177 to R179: the Cholesky root of 4 is 1/4, its residual 0. -/
theorem wit_root_form : (let o := rootOf { (rset none false).record with chol := true } [[0x40800000]] [dOne]
    o.x = [[0x3E800000]] ∧ o.resid = 0 ∧ o.pivs = 0) := by decide +kernel
/-- The set after `i`: its buffers, and the source steps of its READY roots. -/
def rootAfter (i : Instr) (d : Dev) : Option (List (List RootState) × List Nat) :=
  ((dv (exec i (st d))).curv.sets.head?).map fun s => (s.bufs, s.ready.map RootReady.src)
/-- 05 R180: residuals 0.25, 0.5 and 1 against a threshold of 0.5. -/
theorem wit_root_check_rule : checkPasses 0x3E800000 0x3F000000 = true ∧ checkPasses 0x3F800000 0x3F000000 = false ∧ checkPasses 0x3F000000 0x3F000000 = true := by
  decide +kernel
/-- 05 R176 to R180: a root whose residual 1 is below its threshold is READY; above it the buffer is FREE again; a block without work. -/
theorem wit_root_check : rootAfter (.rootCheck 3 0 none) rootEasy = some ([[.current, .ready, .free]], [3])
    ∧ rootAfter (.rootCheck 3 0 none) (rootD [] (some []) false) = some ([[.current, .free, .free]], [])
    ∧ (dv (exec (.rootCheck 3 0 none) (st (rootD [] (some []) false)))).curv.rej = 1
    ∧ rootAfter (.rootCheck 3 1 none) (rootD [] (some []) false) = some ([[.current, .writing, .free]], [])
    ∧ setAt rootEasy 3 = some (rsetOf 0x7F000000 (some []) false) := by decide +kernel
/-- A refresh whose scratch at 0x2000 holds a bad word. -/
def rootLost : Dev := running { runOf [] with body := { (runOf []).body with places := [⟨0, 6, 0x2000, 0x1000⟩] } }
  { rootD [] (some []) false with ecc := { up.ecc with ue := [0x2000] } }
/-- 05 R183, R189: a bad word of scratch stops the judgement; a good one does not, nor a bad one elsewhere. -/
theorem wit_root_lost : scratchBad rootLost 0x2000 = true ∧ tackAt rootLost 0x2000 = none ∧ setAt rootLost 3 = some (rset (some []) false)
    ∧ rootAfter (.rootCheck 3 0 (some 0x2000)) rootLost = some ([[.current, .writing, .free]], [])
    ∧ (let d := dv (exec (.rootCheck 3 0 (some 0x2000)) (st rootLost)); (d.curv.scratchLost, d.plan.run.map Run.cde) = (true, some [3]))
    ∧ rootAfter (.rootCheck 3 0 (some 0x2100)) rootLost = some ([[.current, .free, .free]], []) := by decide +kernel
/-- A root-set record of id 3 at payload 0. -/
def rootMem : Mem := Mem.writeLE [] 0x60000000 32 (3 * 2 ^ 128)
/-- 05 R173, R176, R177, R184, R185, R188. -/
theorem wit_roots :
    (let w := sl 9 265 8 0 0
     issuesB (rootD [w] none false) 9 8 (runOf [w]) w = true ∧ after (.rootSlot 9) (rootD [w] none false) = some ([9], [9], .running)
     ∧ freeBufs (rset none false) = some [(0, 1)] ∧ (rootAt rootMem 0x60000000).id = 3
     ∧ ((dv (exec (.rootSlot 9) ⟨rootMem, rootD [w] none false, []⟩)).curv.sets.head?.bind fun s => s.refresh.map fun f => (f.src, f.work)) = some (some 3, [(0, 1)]))
    ∧ (dv (exec (.refreshAbandon 3) (st (rootD [] (some []) true)))).curv.aband = 1 ∧ (dv (exec (.refreshAbandon 3) (st (rootD [] (some []) false)))).curv.aband = 0
    ∧ (let w := sl 9 265 7 0 1
       issuesB (rootD [w] (some []) false) 9 7 (runOf [w]) w = true
       ∧ (∀ y ∈ (rootD [w] (some []) false).curv.sets, heldWrite (rootD [w] (some []) false) y.record.desc (64 * rootBlocks y.record) = false)
       ∧ after (.publicationPoint 9) (rootD [w] (some []) false) = some ([9], [9], .running)) := by
  decide +kernel

/-! ## The verdict -/

/-- The verdict-point mark. -/
def vm : Slot := sl 9 265 7 0 2
/-- A run of this chip, rank 0 of `n`, in `phase`, with the mark done when `done`; its area is at 0x8000. -/
def vrun (n : Nat) (phase : StepPhase) (done : Bool) : Run :=
  { run2 [vm] with body := { body2 [vm] with nRank := n }, phase := phase, issued := if done then [9] else [], done := if done then [9] else [] }
/-- A device of that run whose verdict registers are `v`. -/
def vdev (v : Vrd) (r : Run) : Dev := { net [] with plan := { up.plan with run := some r }, vrd := v }
/-- A vote of PLAN_ID 5 for step 3 from `rank` with `cause`, and ABSURD with cause 2. -/
def vote (rank cause : Nat) : Nat :=
  3 * 2 ^ 960 + 5 * 2 ^ 896 + rank * 2 ^ 816 + 0xFFFF * 2 ^ 800 + cause * 2 ^ 780 + ofBool (cause = 2) * 2 ^ 778
/-- Verdict registers with this chip's own vote and the records `got`. -/
def voted (got : List (Nat × Nat × Nat)) : Vrd := { up.vrd with vote := some (sealRecord 128 (vote 0 0)), got := got }
/-- A chip of rank 0 of 1 whose own vote has `cause`. -/
def alone (cause : Nat) : Dev := vdev { up.vrd with vote := some (sealRecord 128 (vote 0 cause)) } (vrun 1 .voted true)
/-- Phase after `i`, and D: commit, cause, rank. -/
def verdictAfter (i : Instr) (m : Mem) (d : Dev) : Option StepPhase × Option (Bool × Nat × Nat) :=
  let t := dv (exec i ⟨m, d, []⟩)
  (t.plan.run.map Run.phase, t.vrd.d)
/-- One signal on a vote, seal or reconcile tally. -/
def told (t : Nat) (d : Dev) : Dev := { d with tth := { d.tth with cur := [(t, 1)] } }
/-- 10 R310, R312 to R314: the verdict point waits for its slots; a ready chip casts its vote. -/
theorem wit_verdict_point : verdictMark (vrun 1 .running false) = some vm ∧ slotReady (atTime 50 (vdev up.vrd (vrun 1 .running false))) (vrun 1 .running false) vm = true
    ∧ cutShort (vrun 1 .running false) = false
    ∧ (verdictAfter (.verdictPoint 50) [] (vdev up.vrd (vrun 1 .running false))).1 = some .atVerdict
    ∧ (let w := { vm with waitA := 2 ^ 31 + 8 }
       let r := { vrun 1 .running false with body := { body2 [w] with nRank := 1 } }
       verdictMark r = some w ∧ slotReady (atTime 50 (vdev up.vrd r)) r w = false ∧ (verdictAfter (.verdictPoint 50) [] (vdev up.vrd r)).1 = some .running)
    ∧ voteReady (vdev (voted []) (vrun 1 .atVerdict true)) (vrun 1 .atVerdict true) = true
    ∧ (∀ x ∈ (vrun 1 .atVerdict true).cde, x ≠ 0)
    ∧ (verdictAfter (.voteCast 50) [] (vdev (voted []) (vrun 1 .atVerdict true))).1 = some .voted
    ∧ (verdictAfter (.voteCast 50) [] (vdev (voted []) (vrun 1 .running true))).1 = some .running := by
  and_intros <;> decide +kernel
/-- 10 R318: the one vote clean gives COMMIT; with cause 2 it gives SKIP; one missing gives SKIP at the deadline and before it waits. -/
theorem wit_votes : (vrun 2 .voted true).body.nRank ≤ ((told 0 (vdev (voted [(0, 1, 2)]) (vrun 2 .voted true))).tth.cur.get 0).toNat + 1
    ∧ (vrun 1 .voted true).body.nRank ≤ ((alone 0).tth.cur.get 0).toNat + 1
    ∧ verdictAfter (.votesGathered 50) [] (alone 0) = (some .sealed, some (true, 0, 0xFFFF))
    ∧ verdictAfter (.votesGathered 50) [] (alone 2) = (some .sealed, some (false, 2, 0))
    ∧ verdictAfter (.votesGathered 50) [] (vdev (voted []) (vrun 2 .voted true)) = (some .voted, none)
    ∧ (votesHeld [] (vdev (voted []) (vrun 2 .voted true)) (vrun 2 .voted true)).map (·.1) = [0]
    ∧ verdictAfter (.voteDeadline 500) [] (vdev (voted []) (vrun 2 .voted true)) = (some .sealed, some (false, 9, 1))
    ∧ verdictAfter (.voteDeadline 500) [] (vdev (voted []) (vrun 2 .atVerdict true)) = (some .atVerdict, none) := by
  and_intros <;> decide +kernel
/-- Verdict registers after this chip's D. -/
def sealing (commit : Bool) (got : List (Nat × Nat × Nat)) : Vrd := { voted got with d := some (commit, if commit then 0 else 2, if commit then 0xFFFF else 1) }
/-- A record of 64 bytes with DECISION `dec` and suspect `u`. -/
def recWord (dec u : Nat) : Nat := 3 * 2 ^ 448 + 1 * 2 ^ 432 + dec * 2 ^ 429 + u * 2 ^ 393
/-- Rank 1's seal in its place. -/
def sealMem (dec : Nat) : Mem := Mem.write [] (sealAddr (vrun 2 .sealed true) 1) (sealRecord 64 (recWord dec 0))
/-- Step index and attempt after `i`, and LAST_DEC. -/
def finalAfter (i : Instr) (m : Mem) (d : Dev) : Option (Nat × Nat × StepPhase) × Nat :=
  let t := dv (exec i ⟨m, d, []⟩)
  (t.plan.run.map fun r => (r.step, r.attempt, r.phase), t.vrd.lastDec)
/-- 10 R318 to R320, R322: seals of 1 commit step 3, a seal of 2 skips it, a missing one waits and at SEAL_TO leads to reconcile. -/
theorem wit_seals : sealOf (sealMem 1) (told 1 (vdev (sealing true [(1, 1, 2)]) (vrun 2 .sealed true))) (vrun 2 .sealed true) 1 ≠ none
    ∧ peers (vrun 2 .sealed true) = [1]
    ∧ finalAfter (.sealsGathered 50) (sealMem 1) (told 1 (vdev (sealing true [(1, 1, 2)]) (vrun 2 .sealed true))) = (some (4, 0, .committed), 1)
    ∧ finalAfter (.sealsGathered 50) (sealMem 2) (told 1 (vdev (sealing true [(1, 1, 2)]) (vrun 2 .sealed true))) = (some (3, 1, .between), 2)
    ∧ finalAfter (.sealsGathered 50) [] (vdev (sealing true []) (vrun 2 .sealed true)) = (some (3, 0, .sealed), 0)
    ∧ finalAfter (.sealTimeout 999) [] (vdev (sealing true []) (vrun 2 .sealed true)) = (some (3, 0, .sealed), 0)
    ∧ finalAfter (.sealTimeout 1000) [] (vdev (sealing true []) (vrun 2 .sealed true)) = (some (3, 0, .reconcile), 0)
    ∧ (dv (exec (.sealTimeout 1000) (st (vdev (sealing true []) (vrun 2 .sealed true))))).vrd.suspect = some 1 := by
  and_intros <;> decide +kernel
/-- Rank 1 of 3 is suspected for the attempt of start 2, and a variant is chosen. -/
def recon (got : List (Nat × Nat × Nat)) : Dev :=
  vdev { sealing true got with suspect := some 1, recAttempt := some (2, none) } { vrun 3 .reconcile true with pendVar := some 0 }
/-- Rank 2's reconcile record in its place. -/
def recMem (dec u : Nat) : Mem := Mem.write [] (recAddr (vrun 3 .reconcile true) 2) (sealRecord 64 (recWord dec u))
/-- 10 R323, R324, R333: another suspect stops the plan, FINAL_COMMIT commits, a missing record waits and at SEAL_TO stops the plan. -/
theorem wit_reconcile : (peers (vrun 3 .reconcile true)).filter (· ≠ 1) = [2] ∧ isCurrent (vrun 3 .reconcile true) 2 = true
    ∧ reconOf (recMem 4 0) (recon [(2, 2, 3)]) (vrun 3 .reconcile true) 2 2 ≠ none
    ∧ (finalAfter (.reconcileGathered 50) (recMem 4 0) (recon [(2, 2, 3)])).1 = none
    ∧ finalAfter (.reconcileGathered 50) (recMem 3 1) (recon [(2, 2, 3)]) = (some (4, 0, .committed), 1)
    ∧ (finalAfter (.reconcileGathered 50) [] (recon [])).1 = some (3, 0, .reconcile)
    ∧ (finalAfter (.reconcileTimeout 1000) [] (recon [])).1 = none
    ∧ (finalAfter (.reconcileTimeout 1000) (recMem 3 1) (recon [(2, 2, 3)])).1 = some (3, 0, .reconcile) := by
  and_intros <;> decide +kernel
/-- A chip whose attempt a watchdog has cut short, in `phase`. -/
def cutDev (phase : StepPhase) : Dev := vdev up.vrd { vrun 1 phase false with cde := [5], cdeSeq := [1] }
/-- 07 R241; 10 R310, R313, R318: an attempt cut short goes to its verdict at once, also out of a permuting collective; a vote deadline too early, and in
another phase. -/
theorem wit_cut_short : cutShort { vrun 1 .running false with cde := [5], cdeSeq := [1] } = true
    ∧ (verdictAfter (.verdictPoint 50) [] (cutDev .running)).1 = some .atVerdict ∧ (verdictAfter (.verdictPoint 50) [] (cutDev .permuting)).1 = some .atVerdict
    ∧ (verdictAfter (.verdictPoint 50) [] (vdev up.vrd (vrun 1 .permuting false))).1 = some .permuting
    ∧ (verdictAfter (.verdictPoint 50) [] (vdev up.vrd (vrun 1 .sealed false))).1 = some .sealed
    ∧ (vrun 1 .running false).body.verdict.grace = 100 ∧ sweepDue (vdev up.vrd (vrun 1 .running false)) 3 = false
    ∧ otherFirst (atTime 50 (vdev up.vrd (vrun 1 .running false))) (vrun 1 .running false) vm = false := by
  and_intros <;> decide +kernel
/-- Rank 1 of 3 is suspected for the attempt of start `c`, whose final verdict here was `fin`; the variant is chosen when `v`. -/
def reconFin (c : Nat) (fin : Option Bool) (v : Bool) (got : List (Nat × Nat × Nat)) : Dev :=
  vdev { sealing true got with suspect := some 1, recAttempt := some (c, fin) } { vrun 3 .reconcile true with pendVar := if v then some 0 else none }
/-- 10 R323, R324, R476: every survivor without a final commit skips; a final verdict stands; without a variant the plan stops; with every record
RECONCILE_TIMEOUT does nothing. -/
theorem wit_reconcile_other : finalAfter (.reconcileGathered 50) (recMem 5 1) (recon [(2, 2, 3)]) = (some (3, 1, .between), 2)
    ∧ (vrun 3 .reconcile true).tackLost = none
    ∧ reconOf (recMem 3 1) (reconFin 2 (some true) true [(2, 2, 3)]) (vrun 3 .reconcile true) 2 2 ≠ none
    ∧ (finalAfter (.reconcileGathered 50) (recMem 3 1) (reconFin 2 (some true) true [(2, 2, 3)])).1 = some (3, 0, .committed)
    ∧ isCurrent (vrun 3 .reconcile true) 1 = false ∧ reconOf (recMem 3 1) (reconFin 1 (some false) true [(2, 2, 2)]) (vrun 3 .reconcile true) 2 1 ≠ none
    ∧ (finalAfter (.reconcileGathered 50) (recMem 3 1) (reconFin 1 (some false) true [(2, 2, 2)])).1 = some (3, 0, .between)
    ∧ (finalAfter (.reconcileGathered 50) (recMem 5 1) (reconFin 2 none false [(2, 2, 3)])).1 = none
    ∧ (finalAfter (.reconcileTimeout 1000) (recMem 5 1) (recon [(2, 2, 3)])).1 = some (3, 0, .reconcile) := by
  and_intros <;> decide +kernel

/-! ## Snapshots, bays, losses, weights that stream -/

/-- A run of this chip, rank `self` of 2, with snapshot targets `tgt`, gondola slots at bay 0's window and the snapshot area at 0x9000. -/
def srun (tgt self : Nat) : Run := let r := vrun 2 .running false
  { r with body := { r.body with
    self := self, hops := [⟨0, 0, 0⟩, ⟨1, 64, 0⟩]
    tack := { body0.tack with tgt := tgt, slotBytes := 0x1000, gonBase := gonBase 0, area := 0x9000 } } }
/-- A snapshot of step 9 without items, all of it sent to the gondola target. -/
def snap9 : Drain := ⟨9, 0, 0, 0, [], 0x100, [(3, 7)], 0x100, 0, 0, 700⟩
/-- A device that copies it: 512 MiB in bay 0, a host window of 8 KiB, snapshots of step 4 before. -/
def copying (tgt self : Nat) : Dev := let d := net []
  { d with
    gon := (bays2 .empty).gon
    tth := { d.tth with self := 64 * self, ports := modAt (fun q => { q with dir := if self = 0 then q.dir else 3 }) 0 d.tth.ports }
    plan := { d.plan with run := some (srun tgt self) }
    snap := { d.snap with drain := some snap9, host := some (0x7000, 0x2000, 0), last := some 4 } }
/-- CRW_SNAP_LAST, DONE and ABORT after SNAPSHOT_COMPLETE. -/
def snapEnd (ok : Nat) (d : Dev) : Option Nat × Nat × Nat :=
  let t := (dv (exec (.snapshotComplete ⟨ok, 0⟩) (st d))).snap
  (t.last, t.done, t.abort)
/-- 11 R343, R345: the host and the gondola target acknowledged, a host that did not, and no snapshot. -/
theorem wit_snap_complete : outPort (copying 4 1) (hopOf (srun 4 1) 0) 265 ≠ none ∧ drainBad (copying 4 1) snap9 = none ∧ bit 4 2 = true ∧ (snap9.slot + 1) * 0x1000 ≤ 0x2000
    ∧ snapEnd 4 (copying 4 1) = (some 9, 1, 0) ∧ snapEnd 0 (copying 4 1) = (some 4, 0, 1)
    ∧ snap9.used + 64 ≤ 0x1000 ∧ backed (copying 1 1) (gonBase 0 + 0x100) = true ∧ backed (copying 1 1) (gonBase 0 + 0x100 - 1) = true
    ∧ snapEnd 1 (copying 1 1) = (some 9, 1, 0)
    ∧ snapEnd 1 { copying 1 1 with snap := (net []).snap } = (none, 0, 0)
    ∧ snapEnd 4 { copying 4 1 with snap := { (copying 4 1).snap with host := none } } = (some 4, 0, 1)
    ∧ snapEnd 4 { copying 4 1 with snap := { (copying 4 1).snap with host := some (0x7000, 0xFFF, 0) } } = (some 4, 0, 1) := by
  and_intros <;> decide +kernel
/-- Rank 0's own REPORT of step 9 with a cost of 800 and rank 1's with 1,000. -/
def reports : Mem := ((Mem.write [] 0x9000 (sealRecord 64 (snapWord 1 0 9 800 0 0 0 0))).write 0x9040 (sealRecord 64 (snapWord 1 1 9 1000 0 0 0 0)))
/-- Rank 0, with a cost of 200 before. -/
def rank0 (m : Mem) : Snap := (dv (exec (.intervalCompute ⟨50⟩)
  ⟨m, { copying 4 0 with snap := { (copying 4 0).snap with drain := none, cost := 200, costKnown := true } }, []⟩)).snap
/-- Rank 0's own REPORT alone, on which a later snapshot `x` already drains. -/
def rank0With (x : Option Drain) : Snap := (dv (exec (.intervalCompute ⟨50⟩)
  ⟨Mem.write [] 0x9000 (sealRecord 64 (snapWord 1 0 9 800 0 0 0 0)),
   { copying 4 0 with snap := { (copying 4 0).snap with drain := x, cost := 200, costKnown := true } }, []⟩)).snap
/-- 11 R347, R348: the cost is (3 x 200 + 1000) / 4, and stays without rank 0's own record or while a report is missing; a drain of a
later step ends the wait. -/
theorem wit_interval : (snapRecord reports (copying 4 0) 0x9000 0 1).isSome = true ∧ (rank0 reports).cost = 400
    ∧ snapRecord [] (copying 4 0) 0x9000 0 1 = none ∧ (rank0 []).cost = 200
    ∧ ((List.range 2).filterMap fun k => (snapRecord reports (copying 4 0) 0x9000 k 1).bind fun w =>
        if bits w 507 492 = k ∧ bits w 491 428 = 9 then some (bits w 427 364) else none) = [800, 1000]
    ∧ (rank0 (Mem.write [] 0x9000 (sealRecord 64 (snapWord 1 0 9 800 0 0 0 0)))).cost = 200
    ∧ ({ snap9 with step := 10 } : Drain).step = 10 ∧ (rank0With (some { snap9 with step := 10 })).cost = 350 := by
  and_intros <;> decide +kernel
/-- A lagged shard 3 with a lag of 2, whose sweep has written its one piece; shard 4's sweep has its one piece before it. -/
def sweeping (ph : StepPhase) (step : Nat) : Dev := running { run0 with
    phase := ph, step := step, sweepSlots := [7, 8], issued := [7]
    body := { body0 with
      ledgers := [⟨0, 0, 0, 0x4000, 0, 0, 0, 256, 1, 3, 2, 0⟩, ⟨0, 0, 0, 0x6000, 0, 0, 0, 256, 1, 4, 9, 0⟩]
      tacks := [⟨3, 1, 1, 0xFFFF, 0x4000, 0x5000, 256⟩, ⟨4, 1, 1, 0xFFFF, 0x6000, 0x7000, 256⟩] } }
  { up with tack := { up.tack with sweeps := [(3, 5, 0), (4, 5, 0)], swept := [(3, [(0x4000, 256)])] } }
/-- Sweeps after SWEEP_COMPLETE of shard `k`, and the slots that count as issued. -/
def sweepAfter (k : Nat) (d : Dev) : List (Nat × Nat × Nat) × Option (List Nat) :=
  let t := dv (exec (.sweepComplete k) (st d)); (t.tack.sweeps, t.plan.run.map Run.issued)
/-- 08 R264, R267: a whole sweep awaits its flip and ends the repeats of a held readiness; one with a piece to write does not. -/
theorem wit_sweep : sweepWhole (sweeping .running 7) 3 = true ∧ sweepAfter 3 (sweeping .running 7) = ([(3, 5, 1), (4, 5, 0)], some [7])
    ∧ sweepWhole (sweeping .running 7) 4 = false ∧ sweepAfter 4 (sweeping .running 7) = ([(3, 5, 0), (4, 5, 0)], some [7])
    ∧ readinessHeld (sweeping .running 7) = false ∧ readinessHeld (sweeping .atVerdict 7) = true
    ∧ sweepAfter 3 (sweeping .atVerdict 7) = ([(3, 5, 1), (4, 5, 0)], some [7, 8])
    ∧ sweepAfter 3 (sweeping .atVerdict 14) = ([(3, 5, 1), (4, 5, 0)], some [7]) := by
  and_intros <;> decide +kernel
/-- A run of this chip alone after the loss of rank 1, whose slots may hold step 9. -/
def lostRun : Run := { srun 4 0 with
  body := { (srun 4 0).body with nRank := 1, hops := [⟨0, 0, 0⟩], variant := 3 }
  phase := .permuting, lost := some 1, prev := some (srun 4 0).body }
/-- This survivor's INVENTORY: own slots of steps 8 and 9, and the ward's, rank 1's, of step 9. -/
def invMem : Mem := Mem.write [] 0x9040 (sealRecord 64 (snapWord 3 0 8 9 9 ones64 1 0))
/-- The device on which it has arrived in start 2. -/
def losing (r : Run) : Dev := let d := copying 4 0
  { d with plan := { d.plan with run := some r }, snap := { d.snap with drain := none, got := [(1, 2)] } }
/-- Phase, rewind and step index after `i`. -/
def lossAfter (i : Instr) (m : Mem) (r : Run) : Option (StepPhase × Option Nat × Nat) :=
  (dv (exec i ⟨m, losing r, []⟩)).plan.run.map fun q => (q.phase, q.rewind, q.step)
/-- 11 R355, R356: step 9 is held for both ranks; no step, a record missing, the timeout; the permutation's end with and without a rewind. -/
theorem wit_loss : (inventoryOf invMem (losing lostRun) lostRun 0).isSome = true
    ∧ commonStep (srun 4 0).body lostRun.body [(0, leNat (invMem.read 0x9040 64))] [] = some 9
    ∧ permTable invMem lostRun = [] ∧ lossAfter (.inventoryComplete []) invMem lostRun = some (.permuting, some 9, 3)
    ∧ (let m := Mem.write [] 0x9040 (sealRecord 64 (snapWord 3 0 8 9 7 ones64 1 0))
       commonStep (srun 4 0).body lostRun.body [(0, leNat (m.read 0x9040 64))] [] = none ∧ lossAfter (.inventoryComplete []) m lostRun = none)
    ∧ inventoryOf [] (losing lostRun) lostRun 0 = none ∧ lossAfter (.inventoryComplete []) [] lostRun = some (.permuting, none, 3)
    ∧ lossAfter .inventoryTimeout [] lostRun = none ∧ lossAfter .inventoryTimeout [] { lostRun with lost := none } = some (.permuting, none, 3)
    ∧ lossAfter .permutationComplete [] { lostRun with lost := none } = some (.running, none, 3)
    ∧ lossAfter .permutationComplete [] { lostRun with rewind := some 9 } = some (.running, none, 9)
    ∧ lossAfter .permutationComplete [] lostRun = some (.permuting, none, 3)
    ∧ lostRun.permSig = [] ∧ permAwait [] lostRun = 0
    ∧ lossAfter .permutationComplete [] { lostRun with rewind := some 9, permSig := [(1, 3)] } = some (.permuting, some 9, 3) := by
  and_intros <;> decide +kernel
/-- A device of 1 GiB that asks for bay `b`. -/
def gdev (b : Option Nat) : CxlDev := ⟨0x40000000, 16, 6, false, b⟩
/-- State and capacity of bay `b` after `i`. -/
def bayAfter (i : Instr) (b : Nat) (d : Dev) : Option (BayState × Nat) := (dv (exec i (st d))).gon.bays[b]?.map fun y => (y.state, y.cap)
/-- Bay 1 latches `v` behind a removal. -/
def latching (v : Option CxlDev) : Dev := let d := bays2 .draining
  { d with gon := { d.gon with bays := modAt (fun y => { y with restPend := v }) 1 d.gon.bays } }
/-- 08 R255, R258, R259. -/
theorem wit_bays : (bays2 .gone).gon.bays.findIdx? (fun k => k.state = .empty) = some 3
    ∧ bayAfter (.gondolaDevicePresence (gdev none)) 3 (bays2 .gone) = some (.training, 0)
    ∧ (dv (exec (.gondolaDevicePresence (gdev (some 1))) (st (bays2 .draining)))).gon.bays[1]?.map (fun y => y.restPend.isSome) = some true
    ∧ bayAfter (.gondolaDevicePresence (gdev (some 1))) 1 (bays2 .empty) = some (.empty, 0)
    ∧ mm (exec (.bayDrainComplete 1) ⟨[(gonBase 1, 7), (gonBase 2, 8)], latching none, []⟩) = [(gonBase 2, 8)]
    ∧ (let d := { linked with gon := { linked.gon with bays := List.replicate 4 { Bay.reset with state := .gone } } }
       (∀ k ∈ d.gon.bays, k.state ≠ .empty) ∧ (dv (exec (.gondolaDevicePresence (gdev none)) (st d))).evt.fseq = 1)
    ∧ (let d := { linked with gon := { linked.gon with bays := modAt (fun y => { y with state := .training, devCap := 4 }) 1 linked.gon.bays } }
       bayAfter (.bayTrainingComplete 1 true) 1 d = some (.online, 4) ∧ bayAfter (.bayTrainingComplete 1 false) 1 d = some (.empty, 0))
    ∧ bayAfter (.bayTrainingComplete 0 false) 0 (bays2 .empty) = some (.online, 2)
    ∧ bayAfter (.bayDrainComplete 1) 1 (latching none) = some (.empty, 0)
    ∧ bayAfter (.bayDrainComplete 1) 1 (latching (some (gdev (some 1)))) = some (.training, 0)
    ∧ bayAfter (.bayDrainComplete 0) 0 (bays2 .empty) = some (.online, 2) := by
  and_intros <;> decide +kernel
/-- A failed access at bay 0's first byte for the chip itself. -/
def g0 : GonErr := ⟨0, gonBase 0, none⟩
/-- The bays of `bays2` while `r` runs, bay 0 after `n` timeouts in a row. -/
def timed (n : Nat) (r : Option Run) : Dev := let d := bays2 .empty
  { d with plan := { d.plan with run := r }, gon := { d.gon with bays := modAt (fun y => { y with tmo := n }) 0 d.gon.bays } }
/-- 08 R253, R260; 14 R403: timeouts by their count, a link down, viral, and a pseudo-channel with and without room elsewhere. -/
theorem wit_tier_losses :
    ((dv (exec (.gondolaReadTimeout g0) (st (timed 1 (some run0))))).plan.run.map Run.cde) = some [3]
    ∧ bayAfter (.gondolaReadTimeout g0) 0 (timed 1 none) = some (.online, 2) ∧ bayAfter (.gondolaReadTimeout g0) 0 (timed 2 none) = some (.gone, 0)
    ∧ ((dv (exec (.gondolaBadCompletion g0 none) (st (timed 1 (some run0))))).gon.bays[0]?.map Bay.tmo) = some 0
    ∧ (dv (exec (.gondolaBadCompletion g0 (some (gonBase 0, 64))) (st (timed 0 (some run0))))).ecc.gonLost = [(gonBase 0, 64)]
    ∧ (dv (exec (.gondolaBadCompletion g0 none) (st (timed 0 none)))).integ.ue = 1
    ∧ (dv (exec (.gondolaBadCompletion { g0 with bay := 1 } (some (gonBase 1, 64))) (st (timed 0 none)))).ecc.gonLost = [(gonBase 1, 64)]
    ∧ bayAfter (.portGLinkDown 0) 0 (timed 0 none) = some (.gone, 0) ∧ bayAfter (.gondolaViral 2) 2 (timed 0 none) = some (.gone, 0)
    ∧ bayAfter (.gondolaViral 1) 1 (timed 0 none) = some (.empty, 0)
    ∧ (let r := { run0 with body := { body0 with places := [⟨2, 0, gonBase 0, 0x1000⟩] } }
       placedOn (timed 0 (some r)) 0 = true ∧ (dv (exec (.portGLinkDown 0) (st (timed 0 (some r))))).plan.run = none)
    ∧ pcLines 5 ≤ freeReserve up 2 ∧ (dv (exec (.pseudoChannelFailure 2 5) (st up))).integ.pcFailed = [(2, 5)]
    ∧ (let d := { up with integ := { up.integ with stackAbsent := [0, 1, 3, 4, 5, 6, 7] } }
       freeReserve d 2 < pcLines 5 ∧ (dv (exec (.pseudoChannelFailure 2 5) (st d))).integ.stackAbsent.contains 2 = true)
    ∧ (dv (exec (.pseudoChannelFailure 2 32) (st up))).integ.pcFailed = [] := by
  and_intros <;> decide +kernel
/-- A bay 0 that is ONLINE on a chip of two whose plan owns a range there. -/
def gonReq : Dev := { netGon with gon := (timed 0 none).gon }
/-- A transfer slot into bay 0 that is in flight, its descriptor at 0x60000000. -/
def inFl : Dev := running { runOf [sl 9 5 3 0 0] with issued := [9] } (timed 2 none)
/-- 08 R257, R260; 09 R289: a request that meets an error at port G gets NACK ADDRESS and its range is lost; the transfers in flight on a bay that
is lost are errors. -/
theorem wit_gon_requests : acceptedB gonReq 0 0 (reqGon 0) runGon false = true ∧ acceptedB gonReq 0 1 (reqGon 1) runGon false = true
    ∧ answer (.gondolaReadTimeout ⟨0, gonBase 0, some (0, reqGon 1)⟩) gonReq = [(0, 10, 5)]
    ∧ answer (.gondolaBadCompletion ⟨0, gonBase 0, some (0, reqGon 0)⟩ none) gonReq = [(0, 10, 5)]
    ∧ (dv (exec (.gondolaBadCompletion ⟨0, gonBase 0, some (0, reqGon 0)⟩ none) (st gonReq))).ecc.gonLost = [(gonBase 0, 16)]
    ∧ (let m := Mem.writeLE [] 0x60000000 32 (gonBase 0 * 2 ^ 208 + 0x3000 * 2 ^ 160 + 2 * 2 ^ 128)
       (bayFlights m inFl 0).length = 1 ∧ (dv (exec (.portGLinkDown 0) ⟨m, inFl, []⟩)).integ.ue = 1
       ∧ (dv (exec (.gondolaReadTimeout g0) ⟨m, inFl, []⟩)).integ.ue = 2) := by
  and_intros <;> decide +kernel
/-- A device whose scrubber stands at SRAM line `s`. -/
def scrubAt (s : Nat) (d : Dev) : Dev := { d with ecc := { d.ecc with scrubS := s } }
/-- 13 R383, R385, R388: the next line, the last one of the tier, a correction, an uncorrectable line, a stopped scrubber, a line that is not next. -/
theorem wit_scrub : scrubActive up = true ∧ prioOf up 0x500 = [] ∧ up.integ.rateS ≠ 0 ∧ up.integ.rateH ≠ 0 ∧ stackOf up.ecc.scrubH = some 0
    ∧ (dv (exec (.scrubLine 0x500 ⟨[], []⟩) (st (scrubAt 0x500 up)))).ecc.scrubS = 0x600
    ∧ (dv (exec (.scrubLine 0x5FFFFF00 ⟨[], []⟩) (st (scrubAt 0x5FFFFF00 up)))).integ.passS = 1
    ∧ 0x5FFFFF00 % 0x2000000 + 256 = 0x2000000 ∧ 0x5FFFFF00 / 0x2000000 = 47
    ∧ (dv (exec (.scrubLine up.ecc.scrubH ⟨[], []⟩) (st up))).ecc.scrubH = up.ecc.scrubH + 256
    ∧ up.ecc.scrubH + 256 < hbmBase 0 + hbmBytes
    ∧ (dv (exec (.scrubLine 0x500 ⟨[0x508], []⟩) (st (scrubAt 0x500 up)))).ecc.wbq = [0x500] ∧ wbqIn (scrubAt 0x500 up) 0x500 < 16
    ∧ (let x := exec (.scrubLine 0x500 ⟨[], [0x508]⟩) ⟨[(0x508, 3), (0x600, 4)], scrubAt 0x500 up, []⟩
       weightSlotAt up 0x500 = none ∧ serviceLine [(0x508, 3), (0x600, 4)] (scrubAt 0x500 up) 0x500 = false ∧ mm x = [(0x600, 4)] ∧ (dv x).integ.ue = 1)
    ∧ (dv (exec (.scrubLine 0x500 ⟨[], [0x508]⟩) (st { scrubAt 0x500 up with integ := { up.integ with scrubEn := false } }))).integ.ue = 0
    ∧ (dv (exec (.scrubLine 0x700 ⟨[], []⟩) (st (scrubAt 0x500 up)))).ecc.scrubS = 0x500
    ∧ (dv (exec (.correctiveWriteBack 0x500) (st { up with ecc := { up.ecc with wbq := [0x500, 0x900], ce := [0x508, 0x908] } }))).ecc.ce = [0x908]
    ∧ (dv (exec (.correctiveWriteBack 0x700) (st { up with ecc := { up.ecc with wbq := [0x500], ce := [0x708] } }))).ecc.ce = [0x708] := by
  and_intros <;> decide +kernel
/-- A bucket of two regions, region 4 at 2 and region 9 at 1, whose timer runs when `t`. -/
def bkt (t : Bool) : Bucket := ⟨10, 10, t, 40, [(4, 2), (9, 1)]⟩
/-- A device whose class 0 is that bucket. -/
def bktD (t : Bool) : Dev := { up with integ := { up.integ with buckets := [bkt t] } }
/-- 13 R385: a level of 2 goes to 1, one of 1 to 0; a class whose timer stands keeps its levels. -/
theorem wit_bucket_tick : (bkt true).level.Pairwise (fun x y => x.1 < y.1)
    ∧ (dv (exec (.bucketLeakTick 0) (st (bktD true)))).integ.buckets.map Bucket.level = [[(4, 1)]]
    ∧ (dv (exec (.bucketLeakTick 0) (st (bktD false)))).integ.buckets.map Bucket.level = [[(4, 2), (9, 1)]] := by
  and_intros <;> decide +kernel
/-- A device on which bank 5 is migrated. -/
def migr : Dev := { up with integ := { up.integ with migrating := [(5, 17)] } }
/-- A device without spare banks and spare core, whose core 0 is `x` and the others run. -/
def bare (x : CorePower) : Dev := { up with integ := { up.integ with balBanks := 0, balCore := false, cores := [x, .running, .running, .running] } }
/-- A test of site 4 in slice `s` that command TAG 7 of ring 0 waits for. -/
def bist (s : Nat) : Dev := { up with integ := { up.integ with bistRun := true, bistSite := 4, bistCmd := some (s, 0, 7) } }
/-- A device whose core 3 overflowed its bucket at 5 and is one event short of it again. -/
def overflowing : Dev := { up with integ := { up.integ with coreOvf := [(3, 5)], buckets := modAt (fun b => { b with thresh := 1 }) 6 up.integ.buckets } }
/-- 13 R385, R392, R398, R399; 15 R450. -/
theorem wit_repairs : (dv (exec (.bankMigrationComplete 5) (st migr))).integ.migrating = []
    ∧ (dv (exec (.bankMigrationComplete 6) (st migr))).integ.migrating = [(5, 17)]
    ∧ bankMoves migr 5 = true ∧ bankMoves migr 6 = false
    ∧ ((dv (exec (.bankFailure 5) (st migr))).integ.balBanks, bankMoves (dv (exec (.bankFailure 5) (st migr))) 5) = (up.integ.balBanks, false)
    ∧ up.integ.balBanks ≠ 0 ∧ up.integ.bistRun = false ∧ up.integ.balCore = true
    ∧ (dv (exec (.bankFailure 47) (st up))).integ.balBanks = up.integ.balBanks - 1
    ∧ (dv (exec (.bankFailure 47) (st (bare .running)))).integ.bankAbsent = [47] ∧ (dv (exec (.bankFailure 48) (st up))).integ.balBanks = up.integ.balBanks
    ∧ (dv (exec (.coreHeartbeatMiss ⟨3, .missed⟩) (st up))).integ.balCore = false
    ∧ (dv (exec (.coreHeartbeatMiss ⟨3, .missed⟩) (st (bare .running)))).integ.cores = [.running, .running, .running, .lost]
    ∧ (dv (exec (.coreHeartbeatMiss ⟨3, .missed⟩) (st (bare .lost)))).pwr.cause = 6 ∧ up.pwr.cause = 0
    ∧ (dv (exec (.coreHeartbeatMiss ⟨0, .missed⟩) (st (bare .lost)))).pwr.cause = 0
    ∧ (dv (exec (.coreHeartbeatMiss ⟨3, .uncorrectable⟩) (st up))).integ.ue = 1
    ∧ bucketFull 6 3 up = false ∧ ((dv (exec (.coreHeartbeatMiss ⟨3, .corrected 9⟩) (st up))).integ.corr, (dv (exec (.coreHeartbeatMiss ⟨3, .corrected 9⟩) (st up))).integ.balCore) = (1, true)
    ∧ bucketFull 6 3 overflowing = true ∧ (dv (exec (.coreHeartbeatMiss ⟨3, .corrected 9⟩) (st overflowing))).integ.balCore = false
    ∧ (bist 8).integ.balCore = true ∧ (dv (exec (.bistComplete false 0) (st (bist 8)))).integ.balCore = false
    ∧ (dv (exec (.bistComplete true 0) (st (bist 8)))).integ.bistRun = false
    ∧ (dv (exec (.bistComplete false 0) (st (bist 8)))).integ.bistResult = 1 ∧ (dv (exec .bistBudgetExpiry (st (bist 8)))).integ.bistResult = 4
    ∧ (dv (exec .bistBudgetExpiry (st up))).integ.bistResult = 0 := by
  and_intros <;> decide +kernel
/-- A session on the gateway route, its chunk wanted and `n` tries made of it. -/
def streaming (n : Nat) : Session := { keyed with hostRoute := false, tagTries := n, fetchTries := n }
/-- The device of that session. -/
def fetchD (q : Session) : Dev := slots2 fun _ => q
/-- RESULT of slot 1, whether the session is open, the chunks it wants, after `i`. -/
def fetchAfter (i : Instr) (q : Session) : Nat × Bool × List (Nat × Nat) :=
  let t := dv (exec i (st (fetchD q)))
  ((slotAt t false 1).result, (sessionAt t 1).isOpen, (sessionAt t 1).want)
/-- 12 R367 to R371: the last chunk, one of two, a wrong digest, a bad tag, the third one, a repeat and the fourth. -/
theorem wit_fetch : (fetchD (streaming 0)).wgt.sessions[1]? = some (streaming 0) ∧ 1 < (fetchD (streaming 0)).wgt.base.length
    ∧ fetchAfter (.weightFetchResponse 1 (chunk1 true)) (streaming 0) = (0, false, [])
    ∧ (slotAt (dv (exec (.weightFetchResponse 1 (chunk1 true)) (st (fetchD (streaming 0))))) false 1).state = .ready
    ∧ fetchAfter (.weightFetchResponse 1 (chunk1 true)) { streaming 0 with want := [(0, 0), (0, 1)] } = (0, true, [(0, 1)])
    ∧ (fetchAfter (.weightFetchResponse 1 { chunk1 true with digestOk := false }) (streaming 0)).2.1 = true
    ∧ (dv (exec (.weightFetchResponse 1 { chunk1 true with digestOk := false }) (st (fetchD (streaming 0))))).wgt.digFail = 1
    ∧ (sessionAt (dv (exec (.weightFetchResponse 1 (chunk1 false)) (st (fetchD (streaming 1))))) 1).tagTries = 2
    ∧ fetchAfter (.weightFetchResponse 1 (chunk1 false)) (streaming 2) = (4, false, [])
    ∧ (sessionAt (dv (exec (.weightFetchTimeout 1) (st (fetchD (streaming 2))))) 1).fetchTries = 3
    ∧ fetchAfter (.weightFetchTimeout 1) (streaming 3) = (6, false, [])
    ∧ fetchAfter (.weightFetchTimeout 1) keyed = (0, true, [(0, 0)])
    ∧ (sessionAt (dv (exec (.weightFetchResponse 1 { chunk1 true with nack := true }) (st (fetchD (streaming 2))))) 1).fetchTries = 3
    ∧ fetchAfter (.weightFetchResponse 1 { chunk1 true with nack := true }) (streaming 3) = (6, false, [])
    ∧ (fetchAfter (.weightFetchResponse 1 { chunk1 true with digestOk := false }) { streaming 0 with digTries := [0] }).2.1 = false
    ∧ (let d := fetchD { streaming 0 with repair := true }
       let d := { d with wgt := { d.wgt with base := modAt (fun w => { w with state := .ready, bad := [0, 5] }) 1 d.wgt.base } }
       (slotAt (dv (exec (.weightFetchResponse 1 (chunk1 true)) (st d))) false 1).bad = [5]) := by
  and_intros <;> decide +kernel
/-- A device whose base slot 1 is READY, or is overwritten with zeros and had RESULT 4. -/
def slot1 (zeroing : Bool) : Dev := { slots2 id with wgt := { (slots2 id).wgt with
  base := modAt (fun w => { w with state := if zeroing then .retiring else .ready, result := 4, zeroing := zeroing }) 1 (slots2 id).wgt.base } }
/-- 12 R371, R377: a mismatch at rest marks its shard, the zeros take the slot's bytes and no others. -/
theorem wit_scrub_zero : (dv (exec (.digestScrub [(1, 2)]) (st (slot1 false)))).wgt.scrubFail = 1
    ∧ (slotAt (dv (exec (.digestScrub [(1, 2)]) (st (slot1 false)))) false 1).bad = [2]
    ∧ (dv (exec (.digestScrub []) (st (slot1 false)))).wgt.scrubFail = 0
    ∧ (let d := { slot1 true with plan := { (slot1 true).plan with stopping := true }, wgt := { (slot1 true).wgt with traced := [(0x500, 16)] } }
       let x := exec .zeroingComplete ⟨[(0x500, 9), (0x510, 8)], d, []⟩
       mm x = [(0x510, 8)] ∧ (dv x).plan.stopping = false ∧ (dv x).wgt.traced = [])
    ∧ (slot1 true).plan.stopping = false ∧ (slot1 true).plan.latched = none
    ∧ (let x := exec .zeroingComplete ⟨[(planA, 1), (planA + unit256 + 5, 2), (planA + 2 * unit256, 3)], slot1 true, []⟩
       mm x = [(planA, 1), (planA + 2 * unit256, 3)] ∧ slotAt (dv x) false 1 = { WSlot.reset with result := 4 }) := by
  and_intros <;> decide +kernel

end Sys2Proof.Tests
end

section
/-! PROOFS. INT32 results of the vector units: two's complement codes, saturation, and the lane functions on TYPE INT32
(02 R44, R52; 04 R128). -/

namespace Sys2Proof.Machine

/-! ## Two's complement -/

/-- The top bit of a code of `k + 1` bits tells its upper half. -/
theorem bit_top {k w : Nat} (h : w < 2 ^ (k + 1)) : bit w k = decide (2 ^ k ≤ w) := by
  have hlt : w / 2 ^ k < 2 := (Nat.div_lt_iff_lt_mul (Nat.two_pow_pos k)).mpr (Nat.pow_succ' ▸ h)
  have hpos : 1 ≤ w / 2 ^ k ↔ 2 ^ k ≤ w := Nat.one_le_div_iff (Nat.two_pow_pos k)
  rw [bit, Nat.mod_eq_of_lt hlt, decide_eq_decide, ← hpos]
  omega

/-- A code below 2^(k+1) reads as itself in the lower half, and 2^(k+1) less in the upper (02 R44). -/
theorem sext_of_lt {k w : Nat} (h : w < 2 ^ (k + 1)) :
    sext (k + 1) w = if 2 ^ k ≤ w then (w : Int) - 2 ^ (k + 1) else w := by
  have hmod : (w : Int) % 2 ^ (k + 1) = w := by exact_mod_cast Nat.mod_eq_of_lt h
  simp only [sext, Nat.add_sub_cancel, bit_top h, decide_eq_true_eq, Nat.mod_eq_of_lt h, hmod]

/-- Coding and reading back is the identity on the range of the format, at every width. -/
theorem sext_ofSInt {k : Nat} {v : Int} (lo : -2 ^ k ≤ v) (hi : v < 2 ^ k) : sext (k + 1) (ofSInt (k + 1) v) = v := by
  have hpow : (2 : Int) ^ (k + 1) = 2 * 2 ^ k := by rw [Int.pow_succ, Int.mul_comm]
  have hpos : (0 : Int) < 2 ^ (k + 1) := Int.pow_pos (by decide)
  have hcode : (ofSInt (k + 1) v : Int) = v % 2 ^ (k + 1) := Int.toNat_of_nonneg (Int.emod_nonneg v (by omega))
  have hlt : ofSInt (k + 1) v < 2 ^ (k + 1) := by
    have := hcode ▸ Int.emod_lt_of_pos v hpos
    exact_mod_cast this
  have hhalf : 2 ^ k ≤ ofSInt (k + 1) v ↔ (2 : Int) ^ k ≤ v % 2 ^ (k + 1) := by
    rw [← hcode]
    norm_cast
  rw [sext_of_lt hlt, hcode]
  by_cases hneg : v < 0
  · have hmod : v % 2 ^ (k + 1) = v + 2 ^ (k + 1) := by
      rw [← Int.add_emod_right, Int.emod_eq_of_lt (by omega) (by omega)]
    rw [if_pos (hhalf.mpr (by omega)), hmod, Int.add_sub_cancel]
  · have hmod : v % 2 ^ (k + 1) = v := Int.emod_eq_of_lt (by omega) (by omega)
    rw [if_neg (fun h => by have := hhalf.mp h; omega), hmod]

/-! ## Saturation -/

/-- An integer of the range stays, with no flag. -/
theorem satSum_of_mem {v : Int} (lo : -2147483648 ≤ v) (hi : v ≤ 2147483647) : satSum v = (v, 0) := by
  rw [satSum, if_neg (by omega), if_neg (by omega)]

/-- Above the range: the largest value, with OVF. -/
theorem satSum_of_gt {v : Int} (h : 2147483647 < v) : satSum v = (2147483647, fOVF) := by
  rw [satSum, if_neg (by omega), if_pos h]

/-- Below the range: the smallest value, with OVF. -/
theorem satSum_of_lt {v : Int} (h : v < -2147483648) : satSum v = (-2147483648, fOVF) := if_pos h

/-- What saturates lies in the range of INT32. -/
theorem satSum_range (v : Int) : -2147483648 ≤ (satSum v).1 ∧ (satSum v).1 ≤ 2147483647 := by
  by_cases hlt : v < -2147483648
  · rw [satSum_of_lt hlt]; decide
  · by_cases hgt : 2147483647 < v
    · rw [satSum_of_gt hgt]; decide
    · rw [satSum_of_mem (by omega) (by omega)]; omega

/-! ## An INT32 result -/

/-- The code of a result reads as the saturated value. -/
theorem s32_int32_code (v : Int) : s32 (int32 v).code = (satSum v).1 :=
  sext_ofSInt (satSum_range v).1 (by have := (satSum_range v).2; omega)

/-- The flags of a result are those of the saturation. -/
theorem int32_flags (v : Int) : (int32 v).flags = (satSum v).2 := rfl

/-- Every result above the range is the largest code with OVF. -/
theorem int32_of_gt {v : Int} (h : 2147483647 < v) : int32 v = ⟨0x7FFFFFFF, fOVF⟩ := by
  rw [int32, satSum_of_gt h]
  rfl

/-- The code 0x80000000 is the smallest value. -/
theorem s32_smallest : s32 0x80000000 = -2147483648 := by decide

/-! ## The lane functions -/

section
variable {f : VFields} (hf : f.type = 2)
include hf

/-- A two-operand lane function on INT32. -/
theorem lane2_int (fp : Num → Num → Num × Nat) (int : Int → Int → Int) (a b c : Nat) :
    lane2 f fp int a b c = int32 (int (s32 a) (s32 b)) := if_pos hf

/-- ABS on INT32. -/
theorem laneAbs_int (a b c : Nat) : laneAbs f a b c = int32 (s32 a).natAbs := if_pos hf

/-- NEG on INT32. -/
theorem laneNeg_int (a b c : Nat) : laneNeg f a b c = int32 (-(s32 a)) := if_pos hf

/-- ABS of the smallest value saturates to the largest. -/
theorem laneAbs_smallest (b c : Nat) : laneAbs f 0x80000000 b c = ⟨0x7FFFFFFF, fOVF⟩ := by
  rw [laneAbs_int hf, s32_smallest]
  exact int32_of_gt (by decide)

/-- NEG of the smallest value saturates to the largest. -/
theorem laneNeg_smallest (b c : Nat) : laneNeg f 0x80000000 b c = ⟨0x7FFFFFFF, fOVF⟩ := by
  rw [laneNeg_int hf, s32_smallest]
  exact int32_of_gt (by decide)

end

/-! ## The statement -/

/-- Settles O40: a result reads as its saturated value (`s32_int32_code`), and each lane function on INT32 is `int32` of the
exact integer. -/
theorem integerArithmeticSaturates : Obligations.IntegerArithmeticSaturates := by
  refine ⟨fun v lo hi => ?inRange, fun v h => ?above, fun v h => ?below, fun f a b c hf => ?lanes⟩
  case inRange => rw [s32_int32_code, int32_flags, satSum_of_mem lo hi]; exact ⟨rfl, rfl⟩
  case above => rw [s32_int32_code, int32_flags, satSum_of_gt h]; exact ⟨rfl, rfl⟩
  case below => rw [s32_int32_code, int32_flags, satSum_of_lt h]; exact ⟨rfl, rfl⟩
  case lanes =>
    exact ⟨lane2_int hf _ _ a b c, lane2_int hf _ _ a b c, lane2_int hf _ _ a b c, laneAbs_int hf a b c, laneNeg_int hf a b c,
      laneAbs_smallest hf b c, laneNeg_smallest hf b c⟩

end Sys2Proof.Machine
end

section
/-! PROOFS. What the halyard makes of a command in progress before the command's own meaning is reached: a reference that names
no descriptor, a command that the safe state turns away, and one whose host buffer fails (14 R419, R425; log entries 37, 61). -/

namespace Sys2Proof.Machine

/-- From `d` the command of opcode `opc` that `c` names ends in `d'` without its own meaning: no descriptor of its own is in
progress and may run, or the safe state turns it away, or the host fails its buffer. DEVICE_RESET moves no buffer, so the last does
not concern it (15 R458). -/
inductive EndsAtGate (own : BitVec 512 → Bool) (d : Dev) (c : CmdRef) (opc : Nat) : Dev → Prop
  | unnamed (absent : cmdIf own d c opc = none) : EndsAtGate own d c opc d
  | safe {ord : Nat} {x : BitVec 512} (named : cmdIf own d c opc = some (ord, x)) (away : turnedAway d x = true) :
      EndsAtGate own d c opc (finish c.ring ord x safeAns d)
  | lost {ord : Nat} {x : BitVec 512} (named : cmdIf own d c opc = some (ord, x)) (stays : turnedAway d x = false)
      (fails : bufferLost c x = true) (noReset : opc ≠ 0x809) : EndsAtGate own d c opc (finish c.ring ord x lostAns d)

/-! ## The descriptor and its class -/

/-- A command found under an opcode has it. -/
theorem cmdIf_opcode {own : BitVec 512 → Bool} {d : Dev} {c : CmdRef} {opc ord : Nat} {x : BitVec 512}
    (h : cmdIf own d c opc = some (ord, x)) : dOpcode x = opc := by
  unfold cmdIf at h
  split at h
  · cases h
  split at h
  · cases h
  next e found =>
    obtain ⟨-, rfl⟩ : canStart d c.ring e.1 e.2 = true ∧ e = (ord, x) := by simpa using h
    have hmatch := List.find?_some found
    simp only [Bool.and_eq_true, decide_eq_true_eq] at hmatch
    obtain ⟨⟨-, hopc⟩, -⟩ := hmatch
    exact hopc

/-- The safe state turns away every class but 0x0 and 0x8 (14 R425). -/
theorem turnedAway_iff (d : Dev) (x : BitVec 512) :
    turnedAway d x = true ↔ d.pwr.cause ≠ 0 ∧ dOpcode x / 256 ≠ 0 ∧ dOpcode x / 256 ≠ 8 := by
  simp [turnedAway, isSafe, and_assoc]

/-! ## The runners of halyard commands -/

section
variable {own : BitVec 512 → Bool} {d d' : Dev} {c : CmdRef} {opc : Nat}

/-- A command with descriptors of its own, stopped at the gate. -/
theorem runCmdIf_of_endsAtGate (f : BitVec 512 → Dev → Dev × Ans) (h : EndsAtGate own d c opc d') :
    runCmdIf own c opc f d = d' := by
  cases h with
  | unnamed absent => simp [runCmdIf, absent]
  | safe named away => simp [runCmdIf, named, away]
  | lost named stays fails => simp [runCmdIf, named, stays, fails]

/-- A command of one opcode, stopped at the gate. -/
theorem runCmd_of_endsAtGate (f : BitVec 512 → Dev → Dev × Ans) (h : EndsAtGate (fun _ => true) d c opc d') :
    runCmd c opc f d = d' :=
  runCmdIf_of_endsAtGate f h

/-- A command that may stay in progress, stopped at the gate, leaves memory. -/
theorem runCmdLong_of_endsAtGate (f : Nat → BitVec 512 → Mem → Dev → Mem × Dev × Option Ans) (m : Mem)
    (h : EndsAtGate (fun _ => true) d c opc d') : runCmdLong c opc f m d = (m, d') := by
  cases h with
  | unnamed absent => simp [runCmdLong, cmdFor, absent]
  | safe named away => simp [runCmdLong, cmdFor, named, away]
  | lost named stays fails => simp [runCmdLong, cmdFor, named, stays, fails]

/-- A command over memory is one that may stay in progress and always answers. -/
theorem runCmdMem_eq_runCmdLong (f : BitVec 512 → Mem → Dev → Mem × Dev × Ans) (m : Mem) :
    runCmdMem c opc f m d =
      runCmdLong c opc (fun _ x m d => ((f x m d).1, (f x m d).2.1, some (f x m d).2.2)) m d := rfl

/-- A command over memory, stopped at the gate, leaves memory. -/
theorem runCmdMem_of_endsAtGate (f : BitVec 512 → Mem → Dev → Mem × Dev × Ans) (m : Mem)
    (h : EndsAtGate (fun _ => true) d c opc d') : runCmdMem c opc f m d = (m, d') := by
  rw [runCmdMem_eq_runCmdLong]
  exact runCmdLong_of_endsAtGate _ m h

/-- DEVICE_RESET stops at the gate only when nothing names it: its class is accepted, and it moves no buffer. -/
theorem deviceResetBoth_of_endsAtGate (m : Mem) (h : EndsAtGate (fun _ => true) d c 0x809 d') :
    deviceResetBoth c m d = (m, d') := by
  cases h with
  | unnamed absent => simp [deviceResetBoth, cmdFor, absent]
  | safe named away =>
    have hclass := ((turnedAway_iff d _).mp away).2.2
    rw [cmdIf_opcode named] at hclass
    exact absurd rfl hclass
  | lost _ _ _ noReset => exact absurd rfl noReset

end

/-! ## The commands -/

/-- A meaning that gives `d'` and leaves memory gives the state with device `d'`. -/
theorem onBoth_eq {f : Mem → Dev → Mem × Dev} {s : State} {d' : Dev} (h : f s.mem s.dev = (s.mem, d')) :
    onBoth f s = .next { s with dev := d' } := by
  rw [onBoth, h]

/-- A meaning that gives `d'` gives the state with device `d'`. -/
theorem onDev_eq {f : Dev → Dev} {s : State} {d' : Dev} (h : f s.dev = d') : onDev f s = .next { s with dev := d' } := by
  rw [onDev, h]

/-- Every halyard command that ends at the gate does there what the gate says, and nothing else: by the runner each is made of. -/
theorem exec_of_endsAtGate {i : Instr} {s : State} {c : CmdRef} {opc : Nat} {own : BitVec 512 → Bool} {d' : Dev}
    (hi : hlyCommand i = some (c, opc, own)) (h : EndsAtGate own s.dev c opc d') : exec i s = .next { s with dev := d' } := by
  cases i with
  | nop | discover | nflagRead | counterRead | repairRead | memRead | planReplace | planStop | permHostDone | wgtOpen | wgtClose
  | wgtSwitch | digestPeriod | ballastRotate | hdmMap | reefSet | powerRead | calRead | calWrite | attest | identCert | flashWrite
  | safeInfo =>
    cases hi
    exact onDev_eq (runCmd_of_endsAtGate _ h)
  | snapSetBounds | snapForcePoint | snapDisable | snapEnable | snapHostWindow | pubKeyEnrol | pubKeyClear | bootSelect
  | bootSelectCommitSvn =>
    cases hi
    exact onDev_eq (runCmdIf_of_endsAtGate _ h)
  | memWrite | planLoad | patchPost | wgtChunks | gonConfigure =>
    cases hi
    exact onBoth_eq (runCmdMem_of_endsAtGate _ _ h)
  | planAdmit | snapRestore | wgtKey | gonRemove | bistRun =>
    cases hi
    exact onBoth_eq (runCmdLong_of_endsAtGate _ _ h)
  | deviceReset =>
    cases hi
    exact onBoth_eq (deviceResetBoth_of_endsAtGate _ h)
  | _ => cases hi

/-- Settles O23: each clause but the second is a way to end at the gate (`exec_of_endsAtGate`); the second is the gate's own
condition on the class (`turnedAway_iff`). -/
theorem safeStateTurnsCommandsAway : Obligations.SafeStateTurnsCommandsAway := by
  intro i s c opc ord own x hi
  refine ⟨fun named cause c0 c8 => ?safe, fun named cls => ?accepted, fun named stays fails len noReset => ?lost,
    fun absent => ?unnamed⟩
  case safe =>
    have away : turnedAway s.dev x = true := (turnedAway_iff s.dev x).mpr (cmdIf_opcode named ▸ ⟨cause, c0, c8⟩)
    exact exec_of_endsAtGate hi (.safe named away)
  case accepted =>
    rw [← Bool.not_eq_true, turnedAway_iff, cmdIf_opcode named]
    exact fun ⟨_, c0, c8⟩ => cls.elim c0 c8
  case lost =>
    have lost : bufferLost c x = true := by simp [bufferLost, fails, len]
    exact exec_of_endsAtGate hi (.lost named stays lost noReset)
  case unnamed => exact exec_of_endsAtGate hi (.unnamed absent)

end Sys2Proof.Machine
end
